-- ==== Sys2Proof/Word.lean ====
section
/-!
DEFINITION. The word types of the model: bytes, 32-bit register and result words, byte strings.
-/
namespace Sys2Proof

/-- A byte of a command entry, a frame or a record (00 R11). -/
abbrev Byte := BitVec 8

/-- A 32-bit BAR0 register or result word (02 R30, Table 2-4). -/
abbrev Word := BitVec 32

/-- A byte string, first byte first. -/
abbrev Bytes := List Byte

/-- A table kept sparse: pairs of index and content, strictly rising by index (see `Sys2Proof.Machine.Tbl`). -/
abbrev Tbl (α : Type) := List (Nat × α)

end Sys2Proof
end

