-- ==== Sys2Proof/Syntax.lean ====
section
/-!
DEFINITION. The commands of the block: one constructor of `Instr` per row of spec/opcode_table.json, with its operands.

A row of a host command (a command packet of Table 2-3A) carries the `Packet` that the device fetched. Every other row is
a register write, or an event of the part or of its surroundings, and its operands say what the outside did: what a lane,
a pin, a terminal, a partner or a read of host memory delivered.
-/
namespace Sys2Proof

/-- A command entry as fetched from a ring (02 Table 2-3A), with what the read of its INDIRECT buffer returned.
The opcode is the row's own. -/
structure Packet where
  /-- The domain whose ring carried the entry (the doorbell's domain, 02 R30). -/
  ring   : Nat
  tag    : BitVec 16
  domain : Byte
  flags  : Byte
  plen   : BitVec 16
  tver   : Word
  beacon : Word
  /-- Entry bytes 16 to 63. -/
  param  : Bytes
  /-- What the device's read of the INDIRECT buffer gave; none for a failed read (02 R42). -/
  buf    : Option Bytes
deriving DecidableEq, Repr

/-- The objects that can be drained under 02 R71. -/
inductive DrainObj where
  | domain (d : Nat)
  | channel (g : Nat)
  | terminal (t : Nat)
  | flow (f : Nat)
  | rxRing (r : Nat)
  | txRing (r : Nat)
  | port (lane : Nat)
deriving DecidableEq, Repr

/-- An encapsulated frame of a burst as the tree unit separates it (03 R96, R97; 11 R274). -/
structure RxFrame where
  portId   : Nat
  /-- The key index field: 0 clear, i + 1 for key index bit i (11 R269). -/
  keyField : Nat
  /-- Payload as received, before the cipher engine. -/
  data     : Bytes
  /-- Header error control passed. -/
  hdrOk    : Bool
  /-- Every codeword that holds the frame was correct or corrected. -/
  fecOk    : Bool
  /-- Position of the payload in the PHY frame, for the counter of the standard's CTR. -/
  pos      : Nat
  /-- The header was handed to the pipeline before the tail arrived (09 R220). -/
  early    : Bool
deriving DecidableEq, Repr

/-- A status report of a burst (05 R137, R156): Alloc-ID, backlog in bytes, whether its check passed. -/
structure RxReport where
  allocId : Nat
  backlog : Nat
  valid   : Bool
deriving DecidableEq, Repr

/-- Payload and idle bytes that a burst carried for one Alloc-ID (05 R138). -/
structure RxFill where
  allocId  : Nat
  payload  : Nat
  idle     : Nat
deriving DecidableEq, Repr

/-- Final receiver settings of a burst (03 R91, Table 3-5). -/
structure RxFinal where
  gain   : BitVec 8
  thresh : BitVec 10
  phase  : BitVec 8
  freq   : BitVec 16
  eq     : BitVec 56
  lock   : BitVec 12
deriving DecidableEq, Repr

/-- A granted burst at the receiver (03 R93 to R97). -/
structure BurstRx where
  chan     : Nat
  term     : Nat
  /-- Receive frame of the grant, and the burst's START in its plan. -/
  frame    : Nat
  start    : Nat
  /-- Received bits from the first to the last position of the search window, followed by a delimiter's length. -/
  bits     : List Bool
  codewords     : Nat
  corrected     : Nat
  symbols       : Nat
  uncorrectable : Nat
  /-- Encapsulation headers that failed their header error control. -/
  hdrFails : Nat
  final    : RxFinal
  /-- Encapsulation frames in their order, circuit positions among them. -/
  frames   : List RxFrame
  reports  : List RxReport
  fills    : List RxFill
deriving DecidableEq, Repr

/-- A discovery window's outcome at the receiver (03 R94, 04 R113). -/
structure DiscoveryRx where
  chan      : Nat
  /-- Received bits of the window, from its first bit to its last. -/
  bits      : List Bool
  /-- The burst fails FEC or its header check while the detector shows light. -/
  badWithEnergy : Bool
  /-- The burst decodes to a Serial_Number_ONU message. -/
  decoded   : Bool
  serial    : Nat
  /-- Random delay that the message reports, in ns. -/
  randDelay : Nat
  /-- The terminal needs an option outside Table 3-1 (03 R74). -/
  unsupported : Bool
deriving DecidableEq, Repr

/-- A ranging window's burst (04 R116). -/
structure RangingRx where
  chan  : Nat
  term  : Nat
  /-- Time base in ns that the timestamp unit latched at the accepted delimiter, before the correction of 12 Table 12-3; none
  when no delimiter was accepted. -/
  delim : Option Nat
  /-- The burst is good under 03 R91. -/
  good  : Bool
  /-- Final receiver settings of the burst (03 R91). -/
  final : RxFinal
  /-- The Registration message with its MIC, the registration ID that it carries, and the management ring's consumer word. -/
  msg   : Bytes
  regId : Bytes
  consumer : Nat
deriving DecidableEq, Repr

/-- How a frame reached an Ethernet port's MAC merge sublayer (15 R380). -/
inductive MacPath where
  | plain
  | express
  | preemptable
deriving DecidableEq, Repr

/-- A frame at an Ethernet port's receive MAC, after MAC-merge reassembly (15 R378). -/
structure UplinkRx where
  lane     : Nat
  /-- The frame, FCS included. -/
  data     : Bytes
  pcsError : Bool
  path     : MacPath
  /-- The header was handed to the pipeline before the tail arrived (a cut-through start, 01 R19). -/
  early    : Bool
deriving DecidableEq, Repr

/-- A posted receive buffer that the device reads from a receive ring (09 R239). -/
structure RxPosted where
  addr : Nat
  len  : Nat
deriving DecidableEq, Repr

/-- A transmit entry that the device reads from a transmit ring, with the data of its buffer (09 R241). -/
structure TxPosted where
  len   : Nat
  flags : Byte
  data  : Bytes
deriving DecidableEq, Repr

/-- One frame time of a heritage lane (13 R314 to R319): the bits that arrived in it, from the first, and the containers that the frame
in alignment carries, as its pointers place them: connection address and content. -/
structure HeritageRx where
  lane    : Nat
  bits    : Bytes
  payload : List (Nat × Bytes)
deriving DecidableEq, Repr

/-- A time word of a Brynlink (12 R289): the sender's hops to the master, the master's DEV_ID, and the measured offset
(units of 2^-8 ns) and its correction of RATE. -/
structure TimeWordRx where
  lane   : Nat
  hops   : Nat
  master : Nat
  offset : Int
  rate   : Int
  /-- A re-base of the master that the word announces: its instant F and the step, in ns (12 R293). -/
  step   : Option (Nat × Int)
deriving DecidableEq, Repr

/-- The partner's tender status word (14 R346). -/
structure StatusWord where
  claim       : Nat
  wonA        : Bool
  wonB        : Bool
  transmitted : Bool
deriving DecidableEq, Repr

/-- A plan entry (05 Table 5-11). -/
structure PlanEntry where
  allocId : Nat
  term    : Nat
  start   : Nat
  size    : Nat
  kind    : Nat
  profile : Nat
  flags   : Byte
deriving DecidableEq, Repr

/-- A head of section 3 or a confirmation of section 4 of a mirror record (14 Table 14-9): a flow, or a channel for the Lantern
queue's head; the sequence (upstream: receive frame × 65,536 + index within the burst) and the ingress FCS. -/
structure MirrorHead where
  object   : Nat
  sequence : Nat
  fcs      : Nat
deriving DecidableEq, Repr

/-- An open downstream fragment in the channel part of section 3. -/
structure MirrorFragment where
  chan     : Nat
  flow     : Nat
  sequence : Nat
  sent     : Nat
deriving DecidableEq, Repr

/-- State of one allocation in section 5: credit, PRATE bucket, fill estimate, outstanding grants, report, event list, detector
state, forecasts. -/
structure MirrorAlloc where
  handle    : Nat
  credit    : Nat
  bucket    : Nat
  fill      : Nat
  grants    : List (Nat × Nat)
  report    : Nat × Bool × Nat
  events    : List (Nat × Nat)
  period    : Nat
  misses    : Nat
  forecasts : List (Nat × Nat × Nat × Nat)
deriving DecidableEq, Repr

/-- A reserved window of a channel's receive axis, in section 5: first byte, length, kind, terminal, grant frame and start, whether
its grant has been planned, whether its burst has come or failed to come, and REGCHK as its plan took it. -/
structure MirrorWindow where
  first : Nat
  len   : Nat
  kind  : Nat
  term  : Nat
  frame : Nat
  start : Nat
  sent  : Bool
  used  : Bool
  regChk : Bool
deriving DecidableEq, Repr

/-- Planner state of one channel in section 5: rotation pointer, reserved windows, end of the last displaced burst. -/
structure MirrorChan where
  chan      : Nat
  pointer   : Nat
  windows   : List MirrorWindow
  displaced : Nat
deriving DecidableEq, Repr

/-- A bucket level of section 6: kind 0 flow CIR, 1 flow PIR, 2 terminal, 3 channel, 4 port. -/
structure MirrorBucket where
  kind  : Nat
  index : Nat
  level : Int
deriving DecidableEq, Repr

/-- Scheduler state of section 6: kind 0 flow, 1 terminal, 2 channel, 3 port, 4 switch core; its pointers, deficits, marking
accumulators and spill states (09 R219). -/
structure MirrorSched where
  kind     : Nat
  index    : Nat
  pointers : List Nat
  deficits : List Int
  marks    : List Nat
  spills   : List Bool
deriving DecidableEq, Repr

/-- State of one terminal in section 7. -/
structure MirrorTerm where
  term    : Nat
  state   : Nat
  onuId   : Nat
  eqd     : Nat
  drift   : Int
  profile : Nat
deriving DecidableEq, Repr

/-- State of one key slot in section 8; `key` is present for a slot that KEY_EXCHANGE wrote. -/
structure MirrorKey where
  slot     : Nat
  useCount : Nat
  invDown  : Nat
  invUp    : Option Nat
  seen     : List Nat
  key      : Option Bytes
deriving DecidableEq, Repr

/-- A mirror record, or a part of one (14 R349, R359, Table 14-9). -/
structure MirrorRecord where
  /-- 0: the whole record. At a planned switchover: 1 the channel part of section 3, 2 its flow part and section 4, 3 the rest, 4 a
  closing section 4 alone. -/
  part     : Nat
  frame    : Nat
  running  : Nat
  slot     : Nat
  tsiPage  : Nat
  claim    : Nat
  /-- Launch advance and receive offset in ns per tree. -/
  trees    : List (Nat × Int × Int)
  /-- Channels whose downstream link is up at the active. -/
  linksUp  : List Nat
  plans    : List (Nat × List PlanEntry)
  lantern  : List MirrorHead
  fragments : List MirrorFragment
  heads    : List MirrorHead
  confirms : List MirrorHead
  /-- Flows whose closing entry is in section 4 (14 R359). -/
  closing  : List Nat
  allocs   : List MirrorAlloc
  chans    : List MirrorChan
  buckets  : List MirrorBucket
  scheds   : List MirrorSched
  /-- Per pool the packet-memory places that are not free (09 R219). -/
  pools    : List (Nat × List Nat)
  terms    : List MirrorTerm
  keys     : List MirrorKey
  /-- CRC-32C of each per-entry table kind and of meter state, in the order of `Sys2Proof.Machine.Dev.digests`. -/
  digests  : List Word
deriving DecidableEq, Repr

/-- The failures that the lane's link can see (15 R372). -/
inductive LinkCause where
  | lossOfLock
  | fault
  | timeWords
deriving DecidableEq, Repr

/-- What a lane of a group met in its start-up training (15 R369, R371): its place in the group, the partner's update requests (tap,
step in 1/128), and whether the partner asks for precoding. -/
structure LaneTraining where
  lane     : Nat
  requests : List (Int × Int)
  precode  : Bool
deriving DecidableEq, Repr

/-- What a source-loss event takes away (12 R290). -/
inductive TimeLoss where
  | frequency
  | pps
  | ptpMaster
  | path (lane : Nat)
deriving DecidableEq, Repr

/-- A PTP message at the Keepers, with what BMCA and servo made of it (12 R299). -/
structure PtpRx where
  lane   : Nat
  data   : Bytes
  /-- The port is in slave state after the message. -/
  slave  : Bool
  /-- The servo is locked to the selected master. -/
  locked : Bool
  offset : Int
  rate   : Int
deriving DecidableEq, Repr

/-- The commands of the block, in the order of spec/opcode_table.json. -/
inductive Instr where
  -- 02 registers and rings
  | ringEnable (fn : Nat) (log2 : BitVec 4)
  | ringCtrlDisable (fn : Nat) (log2 : BitVec 4)
  | cmdProducerDoorbell (fn : Nat) (value : Word)
  | registerWrite (fn offset size : Nat) (value : Word)
  | commandFetch (entry : Option Bytes) (buf : Option Bytes)
  -- 17, 02 system, domains, versions
  | identityRead (p : Packet)
  | heartbeatSet (p : Packet)
  | firmwareLoad (p : Packet)
  | firmwareStart (p : Packet)
  | selfTestEnd (failures : BitVec 8) (repaired ms : Nat)
  | bootStatus (p : Packet)
  | meshStatus (p : Packet)
  | epochPin (p : Packet)
  | epochQuery (p : Packet)
  | domainGrant (p : Packet)
  | domainRevoke (p : Packet)
  | domainDisable (p : Packet)
  | domainEnable (p : Packet)
  | versionOpen (p : Packet)
  | versionCommit (p : Packet)
  | commitChecksEnd
  | commitDone
  | versionAbort (p : Packet)
  | versionQuery (p : Packet)
  | versionRetireLimit (p : Packet)
  | versionRetire (slot : Nat)
  | retirementLimitExpiry (slot : Nat)
  | frameInstant
  | beaconFire (b : Nat)
  | pulseEnd (pin : Nat)
  | heartbeatPageWrite (dom : Nat)
  | drainEnd (obj : DrainObj)
  -- 03 tree channels
  | channelModeSet (p : Packet)
  | channelEnable (p : Packet)
  | channelDisable (p : Packet)
  | burstProfileSet (p : Packet)
  | bearingRead (p : Packet)
  | bearingClear (p : Packet)
  | channelStatus (p : Packet)
  | mgmtRingSet (p : Packet)
  | omciSend (p : Packet)
  | omciSent (term : Nat)
  | moduleAccess (p : Packet)
  | moduleAccessComplete (master : Nat) (nack : Option Nat) (data : Bytes)
  | moduleBusTimeout (master : Nat)
  | downstreamSelect (g : Nat)
  | tailStomp (g : Nat)
  | bearingLoad (g term : Nat) (discovery : Bool)
  | burstReceive (rx : BurstRx)
  | lossOfBurst (term : Nat)
  | bearingLockLoss (term : Nat)
  | upstreamLos (g : Nat)
  | treeLosAssert (tree : Nat)
  | treeLosDeassert (tree : Nat)
  | discoveryBurst (rx : DiscoveryRx)
  | rangingBurst (rx : RangingRx)
  | rangingAttemptsExhausted (term : Nat)
  | losttimeExpiry (term : Nat)
  | upstreamPloam (g term : Nat) (msg : Bytes) (consumer : Nat)
  | upstreamOmci (g term : Nat) (msg : Bytes) (consumer : Nat)
  -- 04 terminals
  | terminalSet (p : Packet)
  | terminalDelete (p : Packet)
  | terminalDisable (p : Packet)
  | terminalEnable (p : Packet)
  | terminalDeactivate (p : Packet)
  | terminalStatus (p : Packet)
  | discoverySet (p : Packet)
  | discoveryRead (p : Packet)
  | rerange (p : Packet)
  | terminalRegidSet (p : Packet)
  -- 05, 06 grant planner and Lantern class
  | plannerSet (p : Packet)
  | lanternAllocSet (p : Packet)
  | allocSet (p : Packet)
  | allocDelete (p : Packet)
  | allocDeleteComplete (handle : Nat)
  | plannerForecast (p : Packet)
  | allocStatus (p : Packet)
  | planRead (p : Packet)
  | lanternFlowSet (p : Packet)
  | lanternBoundRead (p : Packet)
  -- 07, 08 frames, classifier, forwarding
  | uplinkFrameReceive (rx : UplinkRx)
  | brynlinkFrameReceive (lane : Nat) (early : Bool) (data : Bytes)
  | brynlinkIdentity (lane devId : Nat) (serial : BitVec 64)
  | pipelinePass (pipe clocks : Nat)
  | secondPass (pipe clocks : Nat)
  | learnNoticeRelease
  | learnHoldExpiry (fid mac : Nat)
  | ageingScan
  | exceptionSet (p : Packet)
  | clsTableSet (p : Packet)
  | clsProgramSet (p : Packet)
  | clsBindSet (p : Packet)
  | clsRuleSet (p : Packet)
  | clsEntrySet (p : Packet)
  | clsEntryRead (p : Packet)
  | clsSearch (p : Packet)
  | clsUsage (p : Packet)
  | fwdEntryWrite (p : Packet)
  | fwdEntryDelete (p : Packet)
  | fwdEntryRead (p : Packet)
  | fwdSearch (p : Packet)
  | fwdFlush (p : Packet)
  | fwdFlushComplete
  | fwdSourceSet (p : Packet)
  | learnSet (p : Packet)
  -- 09 switch core and buffers
  | poolCarveSet (p : Packet)
  | poolStatus (p : Packet)
  | queueProfileSet (p : Packet)
  | cutSet (p : Packet)
  | replListSet (p : Packet)
  | rxRingSet (p : Packet)
  | txRingSet (p : Packet)
  | ringDisable (p : Packet)
  | segmentLogRead (p : Packet)
  | segmentFree (segment : Nat) (owner : Byte)
  | deepBufferReturn
  | deepBufferReadLate (stack : Nat)
  | hostRxWrite (ring producer : Nat) (posted : List RxPosted)
  | txRingPoll (ring producer : Nat) (entries : List TxPosted)
  -- 10 traffic manager
  | flowSet (p : Packet)
  | flowDisable (p : Packet)
  | flowEnable (p : Packet)
  | shapeProfileSet (p : Packet)
  | terminalShapeSet (p : Packet)
  | tmChannelSet (p : Packet)
  | tmPortSet (p : Packet)
  | portSchedule (lane : Nat)
  | meterSet (p : Packet)
  | gateListSet (p : Packet)
  | gateListStart (kind target : Nat)
  | gateStatus (p : Packet)
  | sampleSet (p : Packet)
  | sampleWindowEnd
  | queueSampleRead (p : Packet)
  | linkDownHoldExpiry (kind target : Nat)
  -- 11 cipher
  | keyWrite (p : Packet)
  | keyErase (p : Packet)
  | keySwitch (p : Packet)
  | keySwitchApply (slot : Nat)
  | keyExchange (p : Packet)
  | keyReportReceive (term : Nat) (msg : Bytes) (consumer : Nat)
  | keyExchangeRetry (term : Nat)
  | keyBindSet (p : Packet)
  | sessionKeySet (p : Packet)
  | keyStatus (p : Packet)
  | keyRead (p : Packet)
  -- 12 time and beacons
  | timeSourceSet (p : Packet)
  | timeSet (p : Packet)
  | timeSetTimeout
  | timeRateSet (p : Packet)
  | timeRebase (p : Packet)
  | rebaseStep
  | timeStatus (p : Packet)
  | timeWord (rx : TimeWordRx)
  | followerLock (masterTime : Nat)
  | timeSourceLoss (cause : TimeLoss) (averageRate : Int)
  | ppsInEdge (rising : Bool) (frac : Nat) (rate offset : Int) (locked : Bool)
  | teInEdge (pin : Nat) (rising : Bool) (frac : Nat)
  | ppsOutRise
  | ppsOutFall
  | beaconSet (p : Packet)
  | beaconClear (p : Packet)
  | beaconStatus (p : Packet)
  | ptpPortSet (p : Packet)
  | ptpMessage (rx : PtpRx)
  | syncePortSet (p : Packet)
  | esmcPdu (lane ql : Nat)
  | esmcInformationSend (lane : Nat)
  | synceWaitToRestoreExpiry (lane : Nat)
  | todQuery (p : Packet)
  | teInputSet (p : Packet)
  | teCaptureRead (p : Packet)
  | tsRingSet (p : Packet)
  -- 13 TDM gateway
  | heritageLaneSet (p : Packet)
  | heritageFrameReceive (rx : HeritageRx)
  | heritageDefectDetect (addr bit : Nat)
  | heritageDefectClear (addr bit : Nat)
  | tsiConnSet (p : Packet)
  | tsiPageSwap (p : Packet)
  | circuitSet (p : Packet)
  | heritageStatus (p : Packet)
  | tdmPmRead (p : Packet)
  | pmSecond
  | pmBinClose (day : Bool)
  -- 14 protection
  | protSet (p : Packet)
  | claimSet (p : Packet)
  | protIsolate (p : Packet)
  | shadowSet (p : Packet)
  | shadowRead (p : Packet)
  | protStatus (p : Packet)
  | claimRound (sampleA sampleB : List Bool)
  | tenderStatusWord (w : StatusWord)
  | mirrorRecordReceive (r : MirrorRecord)
  | healthRefreshTimeout
  | heldFrameExpiry
  | shadowLock (tree : Nat)
  | shadowLoss (tree : Nat)
  | waitToRestoreExpiry
  | rbeaconRetry
  -- 15 lanes and MACs
  | portSet (p : Packet)
  | portDisable (p : Packet)
  | portEnable (p : Packet)
  | eqTableWrite (p : Packet)
  | laneTrain (p : Packet)
  | laneTrainComplete (lane : Nat) (training : List LaneTraining) (partner : Word) (us outcome : Nat)
  | treeTrain (p : Packet)
  | treeTrainComplete (tree : Nat) (failed : List (Nat × BitVec 4)) (presets taps : List (Nat × Nat))
  | patternSet (p : Packet)
  | patternRead (p : Packet)
  | eyeScan (p : Packet)
  | eyeScanComplete (kind lane : Nat) (errors : List Nat) (interrupted : Bool)
  | laneStatus (p : Packet)
  | portStatus (p : Packet)
  | linkDown (lane : Nat) (cause : LinkCause)
  | linkUp (lane : Nat) (training : List LaneTraining)
  | linkRecoveryRetry (lane : Nat)
  | trainingTimeout (lane : Nat)
  | preemptionVerifyEnd (lane : Nat) (ok : Bool)
  -- 16 counters, health, faults
  | counterRead (p : Packet)
  | counterChainSet (p : Packet)
  | counterClear (p : Packet)
  | dumpSet (p : Packet)
  | dumpStart (p : Packet)
  | dumpInstant (set : Nat)
  | dumpWriteComplete (set : Nat)
  | alarmClear (p : Packet)
  | faultLogRead (p : Packet)
  | sensorRead (p : Packet)
  | ledgerRead (p : Packet)
  | ledgerLoad (p : Packet)
  | ledgerTick (readings : List Int)
  | correctedMemoryError
  | containedFault (detail : Byte) (index : Nat)
  | recoverableFault (detail : Byte) (index : Nat)
  | fatalFault (thermal : Bool)
  -- 18, 17 reset and boot
  | resetAssert (ns : Nat)
  | supplyUndervoltage (io : Bool) (millivolts ns : Nat)
  | resetRelease (devId : BitVec 3) (bootSel : Bool)
  | spiBoot (image : Bytes) (length : Nat) (crc : Word)
  | timeBasePllLock
  | ptpMessageSend (lane : Nat) (data : Bytes)
deriving DecidableEq, Repr

end Sys2Proof
end

