-- ==== Sys2Proof/Config.lean ====
section
/-!
DEFINITION. What one implementation fixes and what the manual leaves open: constants of the part, and values with no
body that nothing in Lean can evaluate (each is named in a row of notes/assumptions).
-/
namespace Sys2Proof

/-! ### Identity of the part (02 Table 2-1) -/

/-- IDENT_PART, 02 Table 2-1. -/
def Config.identPart : Word := 0x4896#32
/-- Silicon revision, IDENT_REV[15:8]: the part's own, open here. -/
opaque Config.siliconRev : BitVec 8
/-- Factory serial number, IDENT_SERIAL_HI and IDENT_SERIAL_LO (fuses, 00 R10). -/
opaque Config.serial : BitVec 64
/-- Lowest and highest epoch supported: the first release knows epoch 1 alone (00 R6). DEDUCED, log entry 6. -/
def Config.epochLow : Nat := 1
/-- See `Config.epochLow`. -/
def Config.epochHigh : Nat := 1

/-! ### Values the manual does not state -/

/-- A fresh value each time, applied to the counter `Dev.freeCount` (a free value; never evaluated). -/
opaque Config.freeValue : Nat → Nat
/-- Depth in frames of the normal ingress queue of a pipeline, less one (01 R17 gives no figure). Log entry 9. -/
opaque Config.normalDepthLess1 : Nat
/-- Class of a frame that neither its result nor a flow gives one (07 R184). Log entry 55. -/
opaque Config.openClass : Nat
/-- Node bytes of a tree of `n` records; only the ceiling of 32 bytes per record is stated (07 R188). Log entry 17. -/
opaque Config.treeNodeBytes : Bytes → Nat
/-- Whether a firmware image's header names this part and a supported silicon revision (17 R405: layout not given). -/
opaque Config.imageHeaderOk : Bytes → Bool
/-- Firmware revision that an image brings, IDENT_REV[7:0] after the start (17 R401, R405). -/
opaque Config.imageRevision : Bytes → BitVec 8

/-- SSM code that the device sends while it is locked to TB_REF_IN, or follows (12 R300 names the code of holdover and free-run
only). -/
opaque Config.refQl : Nat

/-- The bytes of an STM-N or STS-3N frame before scrambling, as ITU-T G.707 multiplexes them from section overhead and containers (13
R316 names the standard and gives no layout). -/
opaque Config.stmFrame : (n : Nat) → (overhead : List Nat) → (containers : List (Nat × Bytes)) → Bytes

/-- clockClass that a master without CLASS announces in a state of Table 12-2A (12 R299 gives no code). -/
opaque Config.stateClass : (state : Nat) → Nat

/-- Content of an output container to which the active page connects nothing (13 R322 states none), by its address. -/
opaque Config.idleContent : Nat → Byte

/-! ### Functions of the named ITU-T standards, which the manual does not restate -/

/-- MIC check of an upstream PLOAM message with the key the standard prescribes (03 R100). -/
opaque Config.ploamMicOk : (key msg : Bytes) → Bool
/-- CMAC check of an upstream OMCI message with OMCI_IK (03 R101). -/
opaque Config.omciMicOk : (key msg : Bytes) → Bool
/-- The 4-byte MIC that the device appends to a downstream OMCI message (03 R104). -/
opaque Config.omciMic : (key msg : Bytes) → Word
/-- The 8-byte MIC with which the device signs a downstream PLOAM message (11 R276). -/
opaque Config.ploamMic : (key msg : Bytes) → BitVec 64
/-- KEK, PLOAM_IK and OMCI_IK derived from a session key as the standard of a channel's mode prescribes (11 R276). -/
opaque Config.deriveKek : (mode : Nat) → Bytes → Bytes
/-- See `Config.deriveKek`. -/
opaque Config.derivePloamIk : (mode : Nat) → Bytes → Bytes
/-- See `Config.deriveKek`. -/
opaque Config.deriveOmciIk : (mode : Nat) → Bytes → Bytes
/-- The default session key of the standard of a channel's mode, in force until one is written (11 R276). -/
opaque Config.defaultSession : (mode : Nat) → Bytes
/-- The CTR key that a Key_Report carries, decrypted with the KEK (11 R275). -/
opaque Config.unwrapKey : (kek report : Bytes) → Bytes
/-- AES-128-CTR of an encapsulation payload: mode (1 10G, 2 50G), key, superframe count, position in the frame (11). -/
opaque Config.ctrCrypt : (mode : Nat) → (key : Bytes) → (superframe pos : Nat) → Bytes → Bytes
/-- SHA-256 is computed by the model; this is the standard's PLOAM encoding of a message kind and its fields (03 R100). -/
opaque Config.ploamEncode : (kind onu : Nat) → (fields : List Nat) → Bytes
/-- Standard's burst-profile choice of default grants' and window Alloc-ID for serial-number acquisition (05 R142). -/
opaque Config.broadcastAllocId : Nat

/-! ### Open results of health and faults -/

/-- How the sum of equivalent seconds is rounded to 1/1,024 s in the ledger's record, by its fraction: down, otherwise up (16 R398,
R399 do not say). -/
opaque Config.ledgerRoundUp : Nat → Bool
/-- The counter in which a fault recovery counts the frames that it discards (02 R69 names none). -/
opaque Config.recoveryCounter : Nat

/-- Image of a per-entry table over which a digest of section 9 runs (14 Table 14-9 does not give it): table kind and the entries'
fields. -/
opaque Config.tableImage : (kind : Nat) → List (Nat × List Nat) → Bytes

end Sys2Proof
end

