-- ==== Sys2Proof/Machine/Types.lean ====
section
/-!
DEFINITION. The parts of the device's state, chapter by chapter of spec/. A field's default is its value at reset: the
value the manual states, or the value that a log entry names (marked there).
-/
namespace Sys2Proof.Machine

/-! ### Frames, queues and outputs -/

/-- Source or egress encoding of 07 Table 7-2: kind in bits 15:14, index below. -/
def srcCode (kind index : Nat) : Nat := kind * 16384 + index

/-- No flow: one past the flow handles 0 to 65,535, all of which are valid (00 Table 0-3). -/
def noFlow : Nat := 65536

/-- The 16 bits in which a record gives a flow: 0xFFFF for none. -/
def flowWord (f : Nat) : Nat := min f 0xFFFF

/-- No version slot: a frame that has not had its first parse clock (01 R18). -/
def noSlot : Nat := 4

/-- A frame inside the device, from its ingress queue to its egress. -/
structure Frame where
  /-- The Ethernet frame, FCS included. -/
  data    : Bytes := []
  src     : Nat := 0
  term    : Nat := 0xFFFF
  portId  : Nat := 0
  /-- Flow bound to the encapsulation port, or the first pass's FLOW on a second pass (Table 7-2); `noFlow` for none. -/
  bound   : Nat := noFlow
  express : Bool := false
  /-- Ingress timestamp in ns. -/
  itime   : Nat := 0
  /-- Version slot taken at the first parse clock (01 R18); `noSlot` before it. -/
  slot    : Nat := noSlot
  pass    : Nat := 0
  /-- The tail had not been checked when the header was handed over (01 R19). -/
  early   : Bool := false
  /-- The frame is bad: truncated, with an FCS error, or cut short by its source (03 R85). -/
  bad     : Bool := false
  /-- What its receive MAC found wrong with it after the header was handed over: 0 nothing, 1 FCS or code error, 2 longer than MAXFRAME. -/
  rxErr   : Nat := 0
  flow    : Nat := noFlow
  cls     : Nat := 4
  /-- 0 green, 1 yellow, 2 red (10 R259). -/
  colour  : Nat := 0
  action  : Nat := 0
  tunId   : Nat := 0
  /-- Where the second pass starts its parse (07 R196). -/
  parseAt : Nat := 0
  /-- The header at which it starts: 4 an inner IPv4 header, 6 an inner IPv6 header, 0 an Ethernet header. -/
  parseIp : Nat := 0
  pflags  : Nat := 0
  /-- Places of the outer tag's TCI and of the IP header, with the IP version, as the last parse found them; 0 for none. -/
  tagAt   : Nat := 0
  ipAt    : Nat := 0
  ipVer   : Nat := 0
  /-- Malformed by the comparison with the length, found after a cut-through start (07 R177). -/
  malformed : Bool := false
  /-- Segments the frame holds, by their first byte in packet memory, and the owner code that names this copy (09 R228). -/
  segs    : List Nat := []
  owner   : Nat := 0
  /-- Downstream sequence number (14 R350) and frame number of its enqueue. -/
  seq     : Nat := 0
  /-- Ingress FCS, which a mark does not change (14 R354). -/
  ifcs    : Nat := 0
  /-- Transmit ring and index of a frame sent with TSREQ (12 R297). -/
  tsReq   : Option (Nat × Nat) := none
  /-- The ring-delivery reason (09 Table 9-9) and descriptor flags of a frame for the host. -/
  reason  : Nat := 0
  dflags  : Nat := 0
deriving DecidableEq, Repr

/-- A token bucket: level in 1/1,024 byte, remainder below one unit (units of 1/125,000), last update on the time base
(10 R254). An unused bucket has rate 0 (10 R255). -/
structure Bucket where
  level : Int := 0
  rest  : Nat := 0
  last  : Nat := 0
  used  : Bool := false
deriving DecidableEq, Repr

/-- A queue with its congestion, spill and sampling state (09 R233 to R237, 10 R267). -/
structure Queue where
  frames  : List Frame := []
  /-- Spilled frames, oldest first. -/
  deep    : List Frame := []
  /-- Return reads: the frame and the instant at which it may be placed (09 R236). -/
  returns : List (Frame × Nat) := []
  spill   : Bool := false
  /-- Ramp accumulator (09 R234). -/
  acc     : Nat := 0
  drops   : Nat := 0
  marks   : Nat := 0
  maxDepth    : Nat := 0
  maxSojourn  : Nat := 0
  lastDepth   : Nat := 0
  lastSojourn : Nat := 0
  /-- Deep-buffer pages held (64 KiB each, 09 R237). -/
  pages   : Nat := 0
deriving DecidableEq, Repr

/-- Section overhead that a heritage lane sends in a frame (13 Table 13-4); bytes that the table names together stand once. -/
structure SectionOut where
  a1  : Byte := 0xF6#8
  a2  : Byte := 0x28#8
  j0  : Byte
  b1  : Byte
  /-- E1, F1, E2, D1 to D12, K1 and K2 bits 1 to 5. -/
  zero : Byte := 0#8
  /-- K2 bits 6 to 8. -/
  k2  : Nat
  b2  : Bytes
  s1  : Nat
  m1  : Nat
  /-- H1 and H2 of each AU, by its address. -/
  ptrs : List (Nat × Nat)
  /-- Multiframe phase in H4 of each container with TUs, by its address (13 R317). -/
  h4  : List (Nat × Nat)
deriving DecidableEq, Repr

/-- A transmitter's answer to an update request in training (15 R371). -/
inductive TapAnswer where
  | updated
  | limit
  | notSupported
deriving DecidableEq, Repr

/-- What leaves the device, oldest first: posted host writes, PON, uplink, heritage and control output, bus actions. -/
inductive Out where
  /-- A posted PCIe write (02 R431). -/
  | hostWrite (addr : Nat) (data : Bytes)
  /-- A downstream PLOAM message: channel, kind, ONU-ID (0x3FF broadcast), fields, MIC (03 R100, 11 R276). -/
  | ploam (chan kind onu : Nat) (fields : List Nat) (mic : BitVec 64)
  /-- A downstream frame start: channel, frame number, superframe count, burst map (05 R125). -/
  | ponFrame (chan frame superframe : Nat) (map : List PlanEntry)
  /-- An encapsulation frame: channel, port ID, key index field, last-fragment flag, payload (03 R83). -/
  | pon (chan portId keyField : Nat) (last : Bool) (data : Bytes)
  /-- A circuit position of a downstream frame: channel, port ID, key index field, payload (13 R327). -/
  | circuit (chan portId keyField : Nat) (data : Bytes)
  /-- A frame at an uplink MAC: lane, express path, frame with FCS (15 R379). -/
  | uplink (lane : Nat) (express : Bool) (data : Bytes)
  /-- A fragment of a preemptable frame at an uplink MAC: lane, first and last fragment, data (15 R380). -/
  | mpacket (lane : Nat) (first last : Bool) (data : Bytes)
  /-- A Brynlink frame: lane, 8-byte carriage header and frame (15 R368). -/
  | brynlink (lane : Nat) (header data : Bytes)
  /-- Blocks of a Brynlink frame that a control block cuts: lane, first and last piece, bytes from the carriage header on (15 R368). -/
  | blocks (lane : Nat) (first last : Bool) (data : Bytes)
  /-- An answer in start-up training: lane, tap, status (15 R371). -/
  | tapAnswer (lane : Nat) (tap : Int) (answer : TapAnswer)
  /-- The levels of one USER pattern that a lane's generator sends: kind, lane, levels (15 R369, R375). -/
  | pattern (kind lane : Nat) (levels : List Int)
  /-- A control block of a Brynlink: lane, kind (1 time word, 2 status word, 3 identity, 4 re-base), words. -/
  | control (lane kind : Nat) (words : List Int)
  /-- The device's drive of CLAIM_A and CLAIM_B in slots 0 to 33 of a round: `true` low, `false` released (14 Table 14-7). -/
  | claim (a b : List Bool)
  /-- A mirror record, or a part of it, on the tender link (14 R349, R359). -/
  | mirror (lane : Nat) (record : MirrorRecord)
  /-- A heritage frame: lane, section overhead, and per container its address and content (13 R313, R316). -/
  | heritage (lane : Nat) (overhead : SectionOut) (containers : List (Nat × Bytes))
  /-- An I2C transaction on a master: tree, read, address, register, data (03 R81). -/
  | i2c (tree : Nat) (read : Bool) (devAddr reg : Nat) (data : Bytes)
  /-- Nine clocks and a STOP that free an I2C bus (03 R81). -/
  | i2cFree (master : Nat)
  /-- An ESMC PDU on a port: QL, event PDU (12 R300). -/
  | esmc (lane ql : Nat) (event : Bool)
deriving DecidableEq, Repr

/-! ### 02 Host interface and commands -/

/-- A domain's management ring (03 R102, R103). -/
structure MgmtRing where
  base     : Nat
  consWord : Nat
  log2     : Nat
  count    : Nat := 0
  consumer : Nat := 0
deriving DecidableEq, Repr

/-- One command domain: BAR0 ring registers (02 Tables 2-1 to 2-3), heartbeat (R47), management ring, disabled state. -/
structure Dom where
  cmdBaseHi   : Word := 0#32
  cmdBaseLo   : Word := 0#32
  replyBaseHi : Word := 0#32
  replyBaseLo : Word := 0#32
  enable   : Bool := false
  log2     : BitVec 4 := 0#4
  producer : BitVec 16 := 0#16
  consumer : BitVec 16 := 0#16
  active   : Bool := false
  err      : BitVec 4 := 0#4
  errCount : Nat := 0
  /-- Index of the next reply the device will write (02 R40). -/
  replyIdx : BitVec 16 := 0#16
  /-- Commands fetched from the ring since the last enable, counting held ones: the ring order of FENCE. -/
  nextSeq  : Nat := 0
  disabled : Bool := false
  hbAddr   : Nat := 0
  hbPeriod : Nat := 100
  /-- SEQ of the next page. -/
  hbSeq    : Word := 0#32
  /-- Counter value at which the next page is due. -/
  hbDue    : Nat := 0
  /-- A fault recovery has fallen since the previous page (STATE bit 1). -/
  hbRecovered : Bool := false
  /-- Sticky alarm bits of the domain's page (16 R394). -/
  sticky   : List Nat := []
  mgmt     : Option MgmtRing := none
deriving DecidableEq, Repr

/-- A command in execution (02 R37): from its fetch until its final reply. -/
structure Exec where
  dom     : Nat
  seq     : Nat
  op      : Nat
  pkt     : Packet
  /-- Effective parameter bytes. -/
  par     : Bytes
  /-- The objects that the command names, for 02 R71. -/
  names   : List DrainObj := []
  /-- False while a FENCE holds the command (02 R42). -/
  started : Bool := true
  /-- The beacon on which the command is armed (02 R46). -/
  armed   : Option Nat := none
  /-- The first reply (ARMED) is written. -/
  replied : Bool := false
  /-- CTIME of the final reply of a command that a beacon has fired: the beacon's instant in ns (02 R46). -/
  stamp   : Option Nat := none
  /-- Progress of a command that ends later. -/
  aux     : List Nat := []
deriving DecidableEq, Repr

/-- A drain in progress (02 R71). -/
structure Drain where
  obj       : DrainObj
  dom       : Nat
  seq       : Nat
  /-- Counter value at which the limit ends. -/
  due       : Nat
  sent      : Nat := 0
  discarded : Nat := 0
  abandoned : Nat := 0
deriving DecidableEq, Repr

/-! ### 02 Versions -/

/-- A versioned object: opcode, key and canonical parameters (02 R60). -/
structure VObj where
  op     : Nat
  key    : Bytes
  params : Bytes
deriving DecidableEq, Repr

/-- A committed version in its slot. -/
structure Version where
  num  : Nat
  slot : Nat
  objs : List VObj
  /-- The characteristic built at its commit: channel, handle and offset of each placed Lantern allocation (05 R134). -/
  places : List (Nat × Nat × Nat) := []
  /-- Counter value of the retirement limit, once replaced (02 R65). -/
  due  : Nat := 0
deriving DecidableEq, Repr

/-- Where a commit stands (02 R61 to R64). -/
inductive CommitPhase where
  | checking
  | waiting (instant : Nat)
  | armed (beacon : Nat)
  | switched (slot instant : Nat)
deriving DecidableEq, Repr

/-- A commit in execution. -/
structure Commit where
  dom     : Nat
  seq     : Nat
  version : Nat
  digest  : Bytes
  report  : Nat
  dry     : Bool
  beacon  : Option Nat
  phase   : CommitPhase := .checking
  /-- The characteristic of the version, once its checks have passed (05 R134). -/
  places  : List (Nat × Nat × Nat) := []
deriving DecidableEq, Repr

/-- The version state (02 R56 to R67). -/
structure Vers where
  running  : Option Version := none
  retiring : List Version := []
  openNum  : Nat := 0
  openObjs : List VObj := []
  /-- Greatest version number opened since reset. -/
  highest  : Nat := 0
  retireMs : Nat := 500
  commit   : Option Commit := none
  /-- Commits that have switched and wait for every pipeline to stamp the new slot. -/
  switched : List Commit := []
  /-- A version has committed since reset. -/
  committed : Bool := false
deriving DecidableEq, Repr

/-! ### 03 to 05 Channels, terminals, allocations -/

/-- A reserved window of a receive axis: absolute first byte (frame × U + position), length in bytes, kind 5 discovery or
6 ranging, terminal, and the grant that opens it: frame and start (05 R142 to R144). -/
structure Window where
  first : Nat
  len   : Nat
  kind  : Nat
  term  : Nat
  grantFrame : Nat
  grantStart : Nat
  sent  : Bool := false
  /-- The window has passed: its burst has come, or has failed to come. -/
  used  : Bool := false
  /-- REGCHK of the terminal when the plan that carries the grant was built (04 R106). -/
  regChk : Bool := false
deriving DecidableEq, Repr

/-- A burst profile (03 Table 3-4). -/
structure Profile where
  fec      : Bool
  preRep   : Nat
  delimLen : Nat
  tol      : Nat
  prePat   : Nat
  delimPat : Nat
deriving DecidableEq, Repr

/-- A kept plan (05 R153), with the profiles of the version under which it was built (03 Table 3-8). -/
structure Plan where
  frame   : Nat
  entries : List PlanEntry
  idle    : Nat
  displaced : Nat
  profs   : List (Nat × Profile) := []
deriving DecidableEq, Repr

/-- A discovery-list entry (04 Table 4-4). -/
structure DiscEntry where
  serial : Nat
  reason : Nat
  seen   : Nat
  rtd    : Nat
  first  : Nat
  last   : Nat
deriving DecidableEq, Repr

/-- A frame being sent downstream, or a preempted one: payload bytes already sent (03 R83). -/
structure Sending where
  frame : Frame
  sent  : Nat
  /-- Key index field, slot and CTR key fixed at the frame's start (11 R273); no slot where the payload is not encrypted by CTR. -/
  keyField : Nat
  slot  : Option Nat := none
  key   : Bytes := []
  /-- Superframe count and place in the PHY frame at which the current fragment began. -/
  sf    : Nat := 0
  pos   : Nat := 0
  /-- The payload before CTR encryption; of a sealed frame, the sealed payload. -/
  payload : Bytes
deriving DecidableEq, Repr

/-- One tree channel: burst receiver, PLOAM queue, discovery list, planner and traffic-manager state. -/
structure Chan where
  disabled  : Bool := false
  /-- CHANNEL_ENABLE has replied; the channel restarts at the next frame instant (03 R78). -/
  restart   : Bool := false
  los       : Bool := false
  /-- Consecutive frames with a granted burst and no accepted delimiter (03 R98). -/
  losRun    : Nat := 0
  /-- Receive frame that the next three fields describe, whether it granted a burst, whether a delimiter was accepted, and
  whether all of its bursts have been judged. -/
  losFrame  : Nat := 0
  granted   : Bool := false
  accepted  : Bool := false
  losOver   : Bool := false
  /-- Terminal whose bearing the receiver has loaded; none for the cold preset (03 R90). -/
  loaded    : Option Nat := none
  loadedBits : BitVec 128 := 0#128
  /-- PLOAM messages: kind, ONU-ID, fields; the first 64 are the channel's queue, the rest wait in the Keepers. -/
  ploam     : List (Nat × Nat × List Nat) := []
  /-- Profiles still to be announced: index and frames left (03 R88). -/
  announce  : List (Nat × Nat) := []
  disc      : List DiscEntry := []
  /-- Terminals whose ranging waits for a window, oldest first, with the coarse delay (05 R143). -/
  ranging   : List (Nat × Nat) := []
  plans     : List Plan := []
  windows   : List Window := []
  /-- Rotation pointer of the planner (05 R147). -/
  pointer   : Nat := 0
  /-- End of the last displaced Lantern burst on the receive axis; 0 when none is displaced (05 R144). -/
  displacedTo : Nat := 0
  /-- A discovery grant that displaced Lantern bursts or another window delay (05 R144). -/
  discDue   : Bool := false
  /-- Lantern queue (06 R164). -/
  lantern   : List Frame := []
  lanternSeq : Nat := 0
  bucket    : Bucket := {}
  /-- Committed-round pointers per class 1 to 3 (10 R252). -/
  ptr       : List Nat := [0, 0, 0]
  /-- Excess-round position per class 1 to 3: the terminal being served, plus one. -/
  dwrr      : List Nat := [0, 0, 0]
  sending   : Option Sending := none
  fragment  : Option Sending := none
  linkUp    : Bool := false
  /-- Link-down hold: counter value of its end; none when no hold runs (10 R265). -/
  hold      : Option Nat := none
  /-- The hold has expired: arrivals are discarded until the link returns. -/
  flushed   : Bool := false
  maxDepth    : Nat := 0
  maxSojourn  : Nat := 0
  lastDepth   : Nat := 0
  lastSojourn : Nat := 0
  /-- Octets of this PHY frame already filled, for the counter of CTR. -/
  phyPos    : Nat := 0
deriving DecidableEq, Repr

/-- One tree: pins, training (15 R374), module bus. -/
structure Tree where
  losPin    : Bool := false
  /-- Trained-mode map: bit 0 10G, bit 1 50G. -/
  trained   : BitVec 2 := 0#2
  training  : Bool := false
  /-- Cold presets: channel × 4 + UPRATE, and the preset. -/
  presets   : List (Nat × Nat) := []
  /-- Trained transmit taps: channel × 4 + MODE, and c(-1), c(0), c(1) in the layout of 15 R373. -/
  taps      : List (Nat × Nat) := []
  selfCheck : Bool := true
deriving DecidableEq, Repr

/-- One terminal record (04), its bearing (03 R89) and its keys (11). -/
structure Term where
  chan     : Nat
  regChk   : Bool
  onuId    : Nat
  profPin  : Nat
  serial   : Nat
  regId    : Bytes := List.replicate 36 0#8
  /-- State code of 04 Table 4-5. -/
  state    : Nat := 1
  assigned : Nat := 0xFFFF
  eqd      : Nat := 0
  profile  : Nat := 0
  activations : Nat := 0
  since    : Nat := 0
  missing  : Nat := 0
  /-- Consecutive bursts in which no delimiter was accepted (03 R92). -/
  noDelim  : Nat := 0
  lossOfBurst : Bool := false
  locked   : Bool := false
  count    : Nat := 0
  final    : RxFinal := ⟨0#8, 0#10, 0#8, 0#16, 0#56, 0#12⟩
  /-- Delimiter offsets of the last good bursts, newest first, at most 16 (04 R118). -/
  drift    : List Int := []
  /-- Drift mean that the active's mirror record gave (14 R355). -/
  meanAct  : Int := 0
  /-- Extra guard in bits and the frames it still lasts; frames until the next EqD may be sent. -/
  guardBits : Nat := 0
  guardFrames : Nat := 0
  eqdWait  : Nat := 0
  /-- EqD of a `RERANGE` that waits for the end of `eqdWait` (04 R118, R119). -/
  heldEqd  : Option Nat := none
  /-- Time base in ns of the delimiter of the terminal's last burst (03 R96). -/
  burstTime : Nat := 0
  /-- LOCK in UI of the last good bursts, newest first, at most 16 (04 R120). -/
  locks    : List Nat := []
  /-- Profiles allowed by the last consecutive good bursts that allow a shorter one, newest first, at most 16 (04 R120). -/
  runs     : List Nat := []
  /-- Ranging attempts used in the current activation or RERANGE. -/
  attempts : Nat := 0
  rtdCoarse : Nat := 0
  /-- Counter value at which LOSTTIME expires (04 R115). -/
  lostDue  : Nat := 0
  /-- A TERMINAL_DISABLE drain runs. -/
  draining : Bool := false
  shaper   : Nat := 0
  bucket   : Bucket := {}
  /-- Deficits per class 1 to 3, and the flow of each class being served, plus one (10 R252; log entry 63). -/
  deficit  : List Int := [0, 0, 0]
  turns    : List Nat := [0, 0, 0]
  /-- OMCI messages waiting: exec identity and message with MIC (03 R104). -/
  omci     : List (Nat × Nat × Bytes) := []
  /-- Frame of the last PLOAMu grant, and whether a PLOAM message needs an answer (05 R131). -/
  lastPloamu : Nat := 0
  needPloamu : Bool := false
  mgmtBacklog : Nat := 0
  /-- Frames of a deactivation whose grants are not counted as missing (04 R122). -/
  graceTo  : Nat := 0
  session  : Option Bytes := none
  activeKey : Nat := 0
  /-- Pending key switch: slot and SFC (11 R272). -/
  keySwitch : Option (Nat × Nat) := none
deriving DecidableEq, Repr

/-- A per-entry allocation (05 R129) and its planner state (R137 to R149). -/
structure Alloc where
  term    : Nat
  allocId : Nat
  cls     : Nat
  flags   : Byte
  arate   : Nat
  prate   : Nat
  weight  : Nat
  maxGrant : Nat
  repCap  : Nat
  /-- Last valid report and whether one has come; bursts since the last valid report. -/
  report  : Nat := 0
  reported : Bool := false
  distrust : Nat := 0
  /-- Grants in flight: receive frame and bytes (05 R137). -/
  grants  : List (Nat × Nat) := []
  fill    : Nat := 0
  /-- Bytes received since the last report (05 R139). -/
  since   : Nat := 0
  /-- Events, newest first: frame and size. -/
  events  : List (Nat × Nat) := []
  period  : Nat := 0
  misses  : Nat := 0
  /-- Forecasts: first frame, repeat, interval, bytes (05 R141). -/
  forecasts : List (Nat × Nat × Nat × Nat) := []
  /-- Assured credit and PRATE bucket in units of 1/64 byte. -/
  credit  : Nat := 0
  bucket  : Nat := 0
  /-- ALLOC_DELETE is waiting for the last planned burst (05 R155). -/
  deleting : Bool := false
  lastPlan : Nat := 0
deriving DecidableEq, Repr

/-! ### 07, 08 Classifier and forwarding -/

/-- An exception reason (07 R180) with its token bucket in frames × 10^9. -/
structure Exc where
  ring  : Option Nat := none
  rate  : Nat
  burst : Nat
  level : Nat
  last  : Nat := 0
deriving DecidableEq, Repr

/-- A subscriber-table entry (07 R192). -/
structure SubEntry where
  action : Nat
  value  : Bytes
  mask   : Bytes
  owner  : Nat
deriving DecidableEq, Repr

/-- Classifier state that belongs to no version. -/
structure Cls where
  excs : Tbl Exc := []
  /-- Subscriber entries by table × 65,536 + address. -/
  sub  : Tbl SubEntry := []
deriving DecidableEq, Repr

/-- A forwarding entry (08 Table 8-3). -/
structure FwdEntry where
  fid     : Nat
  mac     : Nat
  static  : Bool
  dropSa  : Bool
  dkind   : Nat
  dest    : Nat
  counter : Nat
  hit     : Bool := false
  age     : Nat := 0
  /-- Order of its write among the table's commands (08 R209). -/
  stamp   : Nat := 0
  /-- A kind-3 notice has been made since the last hit (08 R214). -/
  noticed : Bool := false
deriving DecidableEq, Repr

/-- A source's forwarding setting (08 Table 8-2). -/
structure FwdSource where
  defFid   : Nat := 0
  lookup   : Bool := false
  learn    : Bool := false
  vidFid   : Bool := false
  missKind : Nat := 5
  missDest : Nat := 0
deriving DecidableEq, Repr

/-- A learn notice (08 Table 8-4). -/
structure Notice where
  kind : Nat
  contested : Bool
  fid  : Nat
  mac  : Nat
  src  : Nat
  flow : Nat
  pipe : Nat
  time : Nat
  index : Nat
  okind : Nat
  odest : Nat
deriving DecidableEq, Repr

/-- A pending-list entry: key, source, end of HOLD (08 R211). -/
structure Pend where
  fid : Nat
  mac : Nat
  src : Nat
  due : Nat
deriving DecidableEq, Repr

/-- A flush in progress (08 R209): exec identity, filters, stamp at its start. -/
structure Flush where
  dom   : Nat
  seq   : Nat
  fid   : Nat
  dkind : Nat
  dest  : Nat
  statics : Bool
  stamp : Nat
deriving DecidableEq, Repr

/-- Forwarding table and learning (08). -/
structure Fwd where
  slots   : Tbl FwdEntry := []
  moves   : Nat := 0
  stamp   : Nat := 0
  flush   : Option Flush := none
  sources : Tbl FwdSource := []
  pend    : List Pend := []
  notices : List Notice := []
  ring    : Option Nat := none
  rate    : Nat := 100000
  burst   : Nat := 1024
  hold    : Nat := 10
  agePeriod : Nat := 60
  ageMax  : Nat := 5
  /-- Counter value at which the next ageing scan is due (08 R214; log entry 162). -/
  ageDue  : Nat := 60000000000
  /-- Learn bucket in notices × 10^9 and its last update. -/
  level   : Nat := 1024000000000
  last    : Nat := 0
deriving DecidableEq, Repr

/-! ### 09 Switch core and buffers -/

/-- A segment in use (09 Table 9-4): its index when it was allocated, its size, its descriptor. -/
structure Seg where
  index   : Nat
  size    : Nat
  next    : Nat := 0xFFFFFFFF
  len     : Nat := 0
  first   : Bool := false
  last    : Bool := false
  lres    : Bool := false
  slot    : Nat := 0
  itime   : Nat := 0
  owners  : List Byte := []
  /-- Owners that have freed the segment since its allocation (09 R229). -/
  past    : List Byte := []
deriving DecidableEq, Repr

/-- A record of the free-fault log (09 R230). -/
structure FreeFault where
  segment : Nat
  owner   : Byte
  kind    : Nat
  time    : Nat
deriving DecidableEq, Repr

/-- A host frame ring (09 R238). -/
structure FrameRing where
  log2     : Nat
  base     : Nat
  prodWord : Nat
  poll     : Nat
  producer : Nat := 0
  /-- Free-running index of the next entry the device takes. -/
  index    : Nat := 0
  disabled : Bool := false
  /-- Frames and records waiting for buffers of a receive ring. -/
  queue    : List Frame := []
  /-- Entries fetched from a transmit ring and not yet taken as a frame. -/
  chain    : List TxPosted := []
  nextPoll : Nat := 0
deriving DecidableEq, Repr

/-- Where a frame goes after its last pass. -/
inductive Dest where
  /-- A flow's downstream queue on its terminal's channel. -/
  | flow (f : Nat)
  | port (lane : Nat)
  | brynlink (lane : Nat)
  | host (ring : Nat)
  | discard
deriving DecidableEq, Repr

/-- A frame in a virtual output queue of an input (09 R216): crossbar output, destination, class, cells still to cross. -/
structure Voq where
  input  : Nat
  output : Nat
  dest   : Dest
  cls    : Nat
  frame  : Frame
  cells  : Nat
  started : Bool := false
  reserved : Bool := false
deriving DecidableEq, Repr

/-- A pipeline's ingress queues (01 R17) and second-pass hold. -/
structure Pipe where
  express : List Frame := []
  normal  : List Frame := []
deriving DecidableEq, Repr

/-- Switch core and buffers (09). -/
structure Switch where
  pipes    : Tbl Pipe := []
  voqs     : List Voq := []
  /-- Round-robin pointers: output × 4 + class, and the input (09 R217). -/
  rr       : Tbl Nat := []
  /-- Segments in use, by the first byte of their place in packet memory, and the sizes in force in MiB. -/
  segs     : List (Nat × Seg) := []
  /-- Owners that had freed a segment by its return, by segment index, until the segment is taken again (09 R229). -/
  freed    : Tbl (List Byte) := []
  sizes    : List Nat := [16, 32, 48, 32, 64]
  lres     : Nat := 0
  /-- Lowest free count per pool since the last carving switch. -/
  low      : Tbl Nat := []
  freeLog  : List FreeFault := []
  freeFaults : Nat := 0
  repl     : Tbl (List (Nat × Nat)) := []
  rx       : Tbl FrameRing := []
  tx       : Tbl FrameRing := []
deriving DecidableEq, Repr

/-! ### 10 Traffic manager -/

/-- A flow context (10 Table 10-2), its queue and buckets. -/
structure Flow where
  term    : Nat
  dnPort  : Nat
  upPort  : Nat
  cls     : Nat
  sealedFlow : Bool
  fprof   : Nat
  qprof   : Nat
  udKind  : Nat
  udest   : Nat
  cbase   : Nat
  disabled : Bool := false
  /-- Key source of `KEY_BIND_SET` (11 R277). -/
  keySrc  : Nat := 0
  queue   : Queue := {}
  cir     : Bucket := {}
  pir     : Bucket := {}
  deficit : Int := 0
  seq     : Nat := 0
  /-- Retained frames of a standby: sequence, frame number of its scheduling, frame (14 R350). -/
  retain  : List (Nat × Frame) := []
deriving DecidableEq, Repr

/-- A meter (10 R258): configuration bytes 18 to 43 of its write, and its two buckets. -/
structure Meter where
  mode  : Nat
  aware : Bool
  cir   : Nat
  cbs   : Nat
  pir   : Nat
  ebs   : Nat
  yact  : Nat
  ract  : Nat
  overhead : Int
  cbase : Nat
  c     : Bucket
  e     : Bucket
deriving DecidableEq, Repr

/-- A gate list: realised start, cycle, entries of mask and interval (10 R261, R262). -/
structure GateList where
  start : Nat
  cycle : Nat
  entries : List (Nat × Nat)
deriving DecidableEq, Repr

/-- A target's gate state: the list in force, and one that waits for its start. -/
structure Gate where
  inForce : Option GateList := none
  waiting : Option GateList := none
deriving DecidableEq, Repr

/-! ### 11 Key slots -/

/-- A key slot (11 R269 to R283). -/
structure KeySlot where
  ctr       : Bool := false
  ctrKey    : Bytes := []
  exchanged : Bool := false
  ctrCount  : Nat := 0
  gcm       : Bool := false
  gcmKey    : Bytes := []
  salt      : Nat := 0
  invDown   : Nat := 0
  /-- Downstream INV of the active in its last record (14 R360). -/
  invAct    : Nat := 0
  /-- Highest upstream INV accepted; none before the first. -/
  invUp     : Option Nat := none
  /-- INVs seen within 64 below the highest. -/
  seen      : List Nat := []
  invUpCount : Nat := 0
  /-- Frame of the last upstream use, and the last frames counted by the CTR part per direction. -/
  lastUp    : Option Nat := none
  countedDn : Option Nat := none
  countedUp : Option Nat := none
deriving DecidableEq, Repr

/-! ### 12 Time base -/

/-- Beacon states in the order of 12 R303. -/
inductive BeaconState where
  | unset
  | set
  | armed
  | fired
  | missed
deriving DecidableEq, Repr

/-- A beacon (12 R302 to R306). -/
structure Beacon where
  state   : BeaconState := .unset
  pinAct  : Nat := 0
  pin     : Nat := 0
  width   : Nat := 0
  /-- Next or last INSTANT. -/
  instant : Nat := 0
  /-- INSTANT as set: firings fall at it plus whole periods (12 R305). -/
  base    : Nat := 0
  period  : Nat := 0
  firings : Nat := 0
deriving DecidableEq, Repr

/-- A captured edge: rising, ns, fraction (12 R309). -/
structure Capture where
  rising : Bool
  ns     : Nat
  frac   : Nat
deriving DecidableEq, Repr

/-- A time-event input (12 R309). -/
structure TeInput where
  mask : BitVec 2 := 0#2
  caps : List Capture := []
deriving DecidableEq, Repr

/-- PTP on an uplink port (12 R298) and what its message exchange has reached. -/
structure PtpPort where
  profile : Nat
  flags   : Byte
  domain  : Nat
  asym    : Word
  prio    : Nat
  addr    : Nat
  slave   : Bool := false
  locked  : Bool := false
  /-- Corrected timestamps of the last event message received and sent: ns and 2^-32 ns (12 R296, R299). -/
  rxStamp : Option (Nat × Nat) := none
  txStamp : Option (Nat × Nat) := none
deriving DecidableEq, Repr

/-- ESMC and SyncE on an uplink port (12 R300). -/
structure SyncePort where
  flags  : Byte
  prio   : Nat
  /-- Received QL (SSM code); none before the first PDU or after loss. -/
  ql     : Option Nat := none
  /-- QL last sent. -/
  sentQl : Nat := 15
  /-- Unusable until hold-off or wait-to-restore ends: counter value. -/
  waitTo : Option Nat := none
  failed : Bool := false
deriving DecidableEq, Repr

/-- A scheduled step of the time base (12 R293). -/
structure Rebase where
  dom   : Nat
  seq   : Nat
  at_   : Nat
  step  : Int
  /-- The step was announced by the master, not by this device's TIME_REBASE. -/
  remote : Bool
deriving DecidableEq, Repr

/-- The time base, beacons and time-event pins (12). -/
structure Time where
  /-- The free-running counter C (12 R285). -/
  c      : Nat := 0
  c0     : Nat := 0
  /-- T0 in units of 2^-32 ns. -/
  t0     : Int := 0
  rate   : Int := 0
  role   : Nat := 0
  freq   : Nat := 0
  clockClass : Nat := 248
  /-- A step has set the time, or the follower has locked (12 R295). -/
  isSet  : Bool := false
  /-- A TIME_SET has stepped the time base since reset. -/
  stepped : Bool := false
  /-- A TIME_SET waits for PPS_IN: exec identity, value, counter value of its timeout. -/
  waiting : Option (Nat × Nat × Nat × Nat) := none
  rebases : List Rebase := []
  /-- Superframe count less frame number (12 R294). -/
  sfOffset : Int := 0
  /-- Number of the frame whose instant last passed. -/
  frame  : Nat := 0
  /-- Steps 1 and 2 of 01 R28 have been taken for the next frame instant: a beacon at it has fired. -/
  headDone : Bool := false
  pllLocked : Bool := false
  pllLost   : Bool := false
  ppsLocked : Bool := false
  ppsLost   : Bool := false
  /-- The grandmaster has been locked to both its sources, or the follower to its master, in its present role (12 R436). -/
  wasLocked : Bool := false
  ptpLocked : Bool := false
  ptpLost   : Bool := false
  folLocked : Bool := false
  /-- The follower has locked once since reset (17 R409). -/
  folEver   : Bool := false
  /-- Consecutive measurements within the limit (12 R289). -/
  good   : Nat := 0
  /-- Time words heard: lane, hops, master. -/
  paths  : List (Nat × Nat × Nat) := []
  source : Option Nat := none
  hops   : Nat := 0
  master : Option Nat := none
  offset : Int := 0
  conflict : Bool := false
  synceQualified : Bool := false
  beacons : Tbl Beacon := []
  /-- TE_OUT levels as actions have set them: pins that are high. -/
  teHigh  : List Nat := []
  /-- Pulses running: pin, beacon, counter value of the fall (12 R305). -/
  pulses  : List (Nat × Nat × Nat) := []
  ppsHigh : Bool := false
  ppsFall : Nat := 0
  inputs  : Tbl TeInput := []
  tsRing  : Option Nat := none
  ptp     : Tbl PtpPort := []
  synce   : Tbl SyncePort := []
deriving DecidableEq, Repr

/-! ### 13 TDM gateway -/

/-- A frame in a slip buffer: its number in arrival order, its containers, and the justifications of its AU pointers (13 R316,
R319). -/
structure SlipFrame where
  num     : Nat
  payload : List (Nat × Bytes)
  steps   : List (Nat × Int) := []
deriving DecidableEq, Repr

/-- The interpreter of an AU or TU pointer (13 R316, R317). -/
structure Pointer where
  value  : Option Nat := none
  /-- The last valid pointer, and how many times running it has come. -/
  cand   : Nat := 0
  eqRun  : Nat := 0
  /-- Consecutive invalid pointers or NDFs, and consecutive words of all ones. -/
  badRun : Nat := 0
  aisRun : Nat := 0
  /-- The last word was a valid pointer with NDF set. -/
  ndf    : Bool := false
  /-- Justification of the last word: 1 an increment, -1 a decrement. -/
  step   : Int := 0
  /-- V1 of the multiframe in progress, for a TU. -/
  v1     : Nat := 0
deriving DecidableEq, Repr

/-- The TU multiframe of a container as H4 shows it (13 R317, R319). -/
structure Multi where
  phase   : Option Nat := none
  badRun  : Nat := 0
  goodRun : Nat := 0
  /-- The next frame is taken as it comes: after a slip. -/
  relearn : Bool := false
deriving DecidableEq, Repr

/-- Path overhead of a monitored container (13 R316, R333). -/
structure PathMon where
  /-- BIP-8 of the container before, or of the bytes of a virtual container since its V5. -/
  bip     : Option Byte := none
  /-- Errored blocks of the second, near and far, and whether the far end showed RDI in it. -/
  near    : Nat := 0
  far     : Nat := 0
  rdi     : Bool := false
  /-- Consecutive unequipped and equipped labels. -/
  uneqRun : Nat := 0
  eqRun   : Nat := 0
deriving DecidableEq, Repr

/-- A window of B2 errors, and what the last full one showed of the error ratio (13 R318). -/
structure Ratio where
  frames : Nat := 0
  errors : Nat := 0
  high   : Bool := false
  low    : Bool := false
deriving DecidableEq, Repr

/-- A pointer that the gateway sends (13 R316): its offset, justifications to pass on, and frames until the next may go. -/
structure TxPointer where
  value   : Nat := 0
  pending : Int := 0
  wait    : Nat := 0
deriving DecidableEq, Repr

/-- A heritage receive lane (13 R314 to R320). -/
structure Heritage where
  inFrame   : Bool := false
  position  : Nat := 0
  candidate : List Nat := []
  /-- The lane has just left in-frame state: the first search tests the old position first. -/
  left      : Bool := false
  badRun    : Nat := 0
  /-- The bits that arrived in the frame time before. -/
  prev      : Bytes := []
  /-- BIP-8 of the scrambled frame before, and BIP-24 of its STM-1 equivalents; none before the first. -/
  bip8      : Option Byte := none
  bip24     : Option Bytes := none
  /-- Frame times out of frame and in frame, consecutive (Table 13-5). -/
  outRun    : Nat := 0
  inRun     : Nat := 0
  /-- Frame times with transitions since LOS was set. -/
  losRun    : Nat := 0
  /-- Defect bits 0 to 7 (Table 13-5), and those seen in this second. -/
  defects   : BitVec 8 := 0#8
  seen      : BitVec 8 := 0#8
  /-- Consecutive K2 values of MS-AIS, other than MS-AIS, of MS-RDI, other than MS-RDI. -/
  aisOn     : Nat := 0
  aisOff    : Nat := 0
  rdiOn     : Nat := 0
  rdiOff    : Nat := 0
  sf        : Ratio := {}
  sd        : Ratio := {}
  /-- Errored blocks of the second: RS, MS near, MS far. -/
  nearRs    : Nat := 0
  nearMs    : Nat := 0
  farMs     : Nat := 0
  count     : Nat := 0
  buffer    : List SlipFrame := []
  lastRead  : Option SlipFrame := none
  /-- The last read was a repetition. -/
  again     : Bool := false
  fresh     : Bool := true
  fill      : Nat := 0
  lastReady : Nat := 0
  s1        : Byte := 0#8
  /-- The trace in arrival, the complete traces newest first, and the accepted trace (15 characters). -/
  trace     : Bytes := []
  traces    : List Bytes := []
  j0        : Option Bytes := none
  b2Prev    : Nat := 0
  /-- B1 and B2 of the next frame sent. -/
  txB1      : Byte := 0#8
  txB2      : Bytes := []
deriving DecidableEq, Repr

/-- A performance bin (13 R334 to R336): near and far ES, SES, BBE, UAS. -/
structure PmBin where
  start   : Nat := 0
  suspect : Bool := false
  near    : List Nat := [0, 0, 0, 0]
  far     : List Nat := [0, 0, 0, 0]
deriving DecidableEq, Repr

/-- One second held before booking: errored blocks and defect, near and far (13 R334). -/
structure PmHeld where
  second : Nat
  near   : Nat × Bool
  far    : Nat × Bool
  /-- Final availability: true when the second is unavailable, near and far. -/
  nearUas : Bool := false
  farUas  : Bool := false
deriving DecidableEq, Repr

/-- A monitored entity (13 R333). -/
structure Pm where
  cur15  : PmBin := {}
  prev15 : List PmBin := []
  cur24  : PmBin := {}
  prev24 : PmBin := {}
  held   : List PmHeld := []
  /-- The bins after the current ones are suspect: a step, a re-base or a recovery fell in them before the current ones closed. -/
  next15 : Bool := false
  next24 : Bool := false
  nearUnavail : Bool := false
  farUnavail  : Bool := false
deriving DecidableEq, Repr

/-- A circuit's upstream state (13 R331, R332). -/
structure Circ where
  /-- Content received, by gateway frame. -/
  content : List (Nat × Bytes) := []
  /-- Multiframe phase of that content, from its circuit header. -/
  phases  : List (Nat × Nat) := []
  lossRun : Nat := 0
  goodRun : Nat := 0
  alarm   : Bool := false
deriving DecidableEq, Repr

/-- Outputs of the interchange for a gateway frame: containers by destination, AU pointer words and H4 phases by address. -/
structure TsiFrame where
  frame : Nat
  conts : List (Nat × Bytes)
  ptrs  : List (Nat × Nat)
  h4    : List (Nat × Nat)
deriving DecidableEq, Repr

/-- The TDM gateway (13). -/
structure Tdm where
  lanes   : Tbl Heritage := []
  /-- Slips of the lanes since reset (13 R337). -/
  slips   : Tbl Nat := []
  /-- Defect bits 8 to 14 of AUs and TUs by connection address, and those seen in this second. -/
  defects : Tbl Nat := []
  seen    : Tbl Nat := []
  /-- Pointers, TU multiframes and path overhead received, by address. -/
  ptrs    : Tbl Pointer := []
  multis  : Tbl Multi := []
  paths   : Tbl PathMon := []
  /-- AU pointers sent, by address, and the last TU pointer sent to a destination. -/
  txPtrs  : Tbl TxPointer := []
  tuSent  : Tbl Nat := []
  page    : Nat := 0
  /-- TSI outputs of the last gateway frames (13 R329). -/
  outputs : List TsiFrame := []
  circs   : Tbl Circ := []
  /-- Monitored entities by address and kind: 0 an MS or AU, 1 an RS, 2 a MON destination (13 R333). -/
  pms     : List ((Nat × Nat) × Pm) := []
deriving DecidableEq, Repr

/-! ### 14 Protection -/

/-- A tree's shadow ranging (14 R355 to R357). -/
structure Shadow where
  /-- 0 IDLE, 1 ACQUIRING, 2 LOCKED, 3 FAULT. -/
  state   : Nat := 0
  delta0  : Int := 0
  ratio   : Int := 0
  asym    : Int := 0
  /-- Samples newest first (the last 256), in units of the bit time at 49.7664 Gb/s, and their number since the last lock. -/
  samples : List Int := []
  taken   : Nat := 0
  /-- Consecutive bursts without an accepted delimiter. -/
  missed  : Nat := 0
  /-- Receive offset Ro; the active's Ro and launch advance; the own launch advance A, all in ns. -/
  ro      : Int := 0
  roAct   : Int := 0
  aAct    : Int := 0
  advance : Int := 0
deriving DecidableEq, Repr

/-- Where a planned switchover stands (14 R359). -/
inductive Cutover where
  | none
  /-- An active has lost the deciding round: no non-Lantern downstream frame starts. -/
  | losing
  /-- After the cut, the outgoing device sends the upstream frames of bursts before it. -/
  | outgoing
  /-- The incoming device waits for section 3. -/
  | incoming
  /-- The incoming device has the channel part of section 3: Lantern frames start and open fragments go on. -/
  | opened
  /-- The incoming device waits for closing entries of section 4. -/
  | closing
deriving DecidableEq, Repr

/-- Protection (14). -/
structure Prot where
  mode     : Nat := 0
  partner  : Nat := 0
  tlane    : Nat := 0
  aprio    : Nat := 128
  wtr      : Nat := 300
  rbeacon  : Nat := 511
  /-- PRIO and HEALTH in the claim unit. -/
  prio     : Nat := 128
  health   : Nat := 0
  /-- The Keepers have failed to refresh the claim unit, and have shown no activity since (14 R343, log entry 178). -/
  hung     : Bool := false
  /-- What the claim unit took at slot 0 of a frame's round: frame, claim, whether it drives the lines (14 R344). -/
  latched  : Option (Nat × Nat × Bool) := none
  /-- Results of the last round: line not faulted, line won. -/
  okA      : Bool := false
  okB      : Bool := false
  wonA     : Bool := false
  wonB     : Bool := false
  /-- The decision for the next frame, and transmission in the current frame and in the one before it. -/
  decided  : Bool := false
  transmitting : Bool := false
  sentLast : Bool := false
  isolated : Bool := false
  /-- Wait-to-restore: PRIO is claimed as 0. -/
  wtrRunning : Bool := false
  /-- Counter value at which the timer expires; none until its conditions hold (14 R362). -/
  wtrDue   : Option Nat := none
  /-- The timer has expired, and the restore of APRIO is armed on RBEACON or waits for a retry. -/
  wtrOver  : Bool := false
  restoreArmed : Bool := false
  /-- Counter value of the last try for RBEACON. -/
  triedAt  : Nat := 0
  /-- The partner's last tender status word. -/
  status   : Option StatusWord := none
  /-- Last two applied record frames, newest first; consecutive records with a digest that differs; the active's version. -/
  applied  : List Nat := []
  digestBad : Nat := 0
  sameVersion : Bool := true
  /-- Channels whose link the active reports up. -/
  linksUp  : List Nat := []
  shadows  : Tbl Shadow := []
  /-- The active's packet-memory places in use per pool (09 R219). -/
  pools    : Tbl (List Nat) := []
  /-- TSI page at the last frame instant, which the record of the frame before it names (13 R325). -/
  pageThen : Nat := 0
  /-- Stamp of the accepted delimiter of each Lantern allocation's last burst before the cut (14 R359). -/
  lanternAt : Tbl Nat := []
  /-- Upstream frames held for a port: its lane and the frame (14 R353, R359). -/
  held     : List (Nat × Frame) := []
  /-- Lantern frames that a standby has scheduled: channel, frame number, frame (14 R350). -/
  lanternRetain : List (Nat × Nat × Frame) := []
  /-- Heads and confirmations gathered for the record of the current frame. -/
  confirms : List MirrorHead := []
  heads    : List MirrorHead := []
  lanternHeads : List MirrorHead := []
  /-- The state that the last record sent has shown, whole. -/
  shown    : Option MirrorRecord := none
  cutover  : Cutover := .none
  /-- Instant of the last cut in ns, and the flows whose closing entry has been sent or has arrived since. -/
  cutAt    : Nat := 0
  closed   : List Nat := []
deriving DecidableEq, Repr

/-! ### 15 Lanes and groups -/

/-- Board equalisation entry (15 Table 15-5). -/
structure EqEntry where
  cm1  : BitVec 8 := 0#8
  c0   : BitVec 8 := 128#8
  cp1  : BitVec 8 := 0#8
  ctle : BitVec 8 := 8#8
  gain : BitVec 8 := 96#8
deriving DecidableEq, Repr

/-- A lane of a kind (1 uplink, 2 PON transmit, 3 PON receive, 4 heritage). -/
structure Lane where
  taps     : EqEntry := {}
  /-- Precoding in force, in the layout of PRECODE: 0 not settled, 1 off, 2 on (15 R369). -/
  precode  : Nat := 0
  blockLock : Bool := false
  fecAlign : Bool := false
  /-- Pattern generator and checker (15 R375, R376): pattern numbers, 0 off. -/
  generator : Nat := 0
  checker  : Nat := 0
  userPat  : Nat := 0
  inject   : Nat := 0
  interval : Nat := 0
  training : Bool := false
  scanning : Bool := false
deriving DecidableEq, Repr

/-- A preemptable frame that a port's MAC has started (15 R380): its class, what is sent on the wire, and the bytes already sent. -/
structure PortSend where
  frame : Frame
  cls   : Nat
  data  : Bytes
  sent  : Nat := 0
deriving DecidableEq, Repr

/-- A port, Brynlink or tender link, by its lowest lane: link, MAC and scheduler state. -/
structure Port where
  /-- Link state of 15 R384: 1 down, 2 up, 5 starting. -/
  link     : Nat := 1
  downs    : Nat := 0
  changed  : Nat := 0
  /-- Counter value at which recovery starts the lanes again (15 R372). -/
  retryAt  : Option Nat := none
  disabled : Option (Nat × Nat) := none
  /-- Preemption: 0 off, 1 verifying, 2 active, 3 failed. -/
  preempt  : Nat := 0
  /-- Peer of a Brynlink: DEV_ID and serial; conflict under 17 R411. -/
  peer     : Option (Nat × Nat) := none
  conflict : Option Nat := none
  queues   : List Queue := [{}, {}, {}, {}]
  bucket   : Bucket := {}
  deficits : List Int := [0, 0, 0]
  /-- Class being served in deficit round robin, 0 before the first (10 R256). -/
  turn     : Nat := 0
  /-- The preemptable frame on the wire, or the one that waits to go on after a fragment (10 R263, 15 R380). -/
  sending  : Option PortSend := none
  fragment : Option PortSend := none
  hold     : Option Nat := none
  flushed  : Bool := false
deriving DecidableEq, Repr

/-! ### 16 Counters, health, faults -/

/-- A dump being written: the fields of its header, and the identity of a `DUMP_START`. -/
structure DumpRun where
  num   : Nat
  flags : Nat
  time  : Nat
  skips : Nat
  exec  : Option (Nat × Nat)
deriving DecidableEq, Repr

/-- A dump set (16 R391 to R393). -/
structure DumpSet where
  period : Nat
  bufA   : Nat
  bufB   : Nat
  /-- FIRST and COUNT of each range. -/
  ranges : List (Nat × Nat)
  /-- Number of the next dump, and instant in ns up to which periodic dumps have fallen due. -/
  next   : Nat := 0
  last   : Nat := 0
  skips  : Nat := 0
  /-- A dump was skipped, a fault recovery fell, since the previous dump. -/
  skipped : Bool := false
  recovered : Bool := false
  writing : Option DumpRun := none
deriving DecidableEq, Repr

/-- A fault record (16 Table 16-7). -/
structure FaultRec where
  index  : Nat
  cls    : Nat
  detail : Byte
  time   : Nat
deriving DecidableEq, Repr

/-- The life ledger (16 R398, R399): equivalent seconds in units of 2^-42 s. -/
structure Ledger where
  equiv    : Nat := 0
  powered  : Nat := 0
  hot95    : Nat := 0
  hot100   : Nat := 0
  highest  : Int := 0
  trips    : Nat := 0
  powerUps : Nat := 0
  loaded   : Bool := false
deriving DecidableEq, Repr

/-- Counters, dumps, sensors, ledger and fault log (16). -/
structure Health where
  counters : Tbl Nat := []
  chain    : Tbl Bool := []
  dumps    : Tbl DumpSet := []
  log      : List FaultRec := []
  logged   : Nat := 0
  /-- Sensor values as last measured, and their highest since reset; none before the first measurement. -/
  sensors  : Tbl Int := []
  highs    : Tbl Int := []
  ledger   : Ledger := {}
  /-- Corrected errors in the current second and the second's number. -/
  corrected : Nat := 0
  correctedSec : Nat := 0
deriving DecidableEq, Repr

/-! ### 17, 18 Boot and pins -/

/-- System state: reset, boot, straps, epoch pin, outputs dark. -/
structure Sys where
  inReset  : Bool := false
  /-- A class 4 fault has stopped heartbeat and command fetch (16 Table 16-6). -/
  fatal    : Bool := false
  /-- Boot state of 17 R407. -/
  boot     : Nat := 0
  devId    : BitVec 3 := 0#3
  bootSel  : Bool := false
  fwRev    : BitVec 8 := 0#8
  fwStarted : Bool := false
  selfBits : BitVec 8 := 0#8
  repaired : Nat := 0
  /-- Keeper staging memory: bytes that differ from 0 (17 R404). -/
  staging  : Tbl Byte := []
  /-- A start in progress: identity of its FIRMWARE_START; none for a start from SPI. -/
  starting : Option (Option (Nat × Nat)) := none
  /-- Revision of the image being started. -/
  newRev   : BitVec 8 := 0#8
  epochPin : BitVec 16 := 0#16
  dark     : Bool := true
  /-- Counter value of the last fault recovery. -/
  recoveredAt : Option Nat := none
deriving DecidableEq, Repr

/-- Level of an output pin that can float (18 Table 18-6). -/
inductive PinLevel where
  | low
  | high
  | floating
deriving DecidableEq, Repr

/-- What the heritage transmit lanes carry: idle in reset (18 Table 18-6), AIS while outputs are dark (02 R68). -/
inductive HtxState where
  | idle
  | ais
deriving DecidableEq, Repr

/-- The pins as their rules hold them after each step. -/
structure Pins where
  /-- TREE_TXDIS pins are driven; high impedance in reset (18 Table 18-6). -/
  txDisDriven : Bool
  /-- Trees whose TREE_TXDIS is asserted (03 R79). -/
  txDis   : List Nat
  /-- PTX lanes in electrical idle (03 R77, R78). -/
  ptxIdle : List Nat
  /-- Lowest lanes of groups whose UTX lanes are active (02 R68, 15 R383). -/
  utxActive : List Nat
  /-- What the heritage lanes outside `htxActive` carry, and the lanes that carry frames. -/
  htx     : HtxState
  htxActive : List Nat
  /-- TE_OUT pins that are high (12 R308). -/
  teOut   : List Nat
  ppsOut  : Bool
  treeSelDriven : Bool
  /-- TREE_SEL pins that are high (03 R80). -/
  treeSel : List Nat
  /-- Claim lines between rounds: released. -/
  claim   : PinLevel
  spiCs   : PinLevel
deriving DecidableEq, Repr

end Sys2Proof.Machine
end

