-- ==== Sys2Proof/Machine/State.lean ====
section
/-!
DEFINITION. The device's whole state as plain data, the queue of waiting commands, and the state after reset.
-/
namespace Sys2Proof.Machine

/-- The device: everything but the queue of waiting commands. -/
structure Dev where
  sys     : Sys := {}
  /-- Command domains 0 to 15 (02 R30), by domain. -/
  doms    : Tbl Dom := []
  /-- The domain whose turn to be fetched comes next (02 R37). -/
  rotor   : Nat := 0
  /-- Commands in execution, in fetch order (02 R37). -/
  execs   : List Exec := []
  drains  : List Drain := []
  vers    : Vers := {}
  /-- Tree channels by global index g. -/
  chans   : Tbl Chan := []
  trees   : Tbl Tree := []
  /-- Terminal records by handle. -/
  terms   : Tbl Term := []
  /-- Per-entry allocations by handle. -/
  allocs  : Tbl Alloc := []
  cls     : Cls := {}
  fwd     : Fwd := {}
  sw      : Switch := {}
  /-- Flow contexts by handle. -/
  flows   : Tbl Flow := []
  meters  : Tbl Meter := []
  /-- Gate state by KIND × 1,024 + TARGET (10 R261). -/
  gates   : Tbl Gate := []
  /-- Key slots by slot number (11 R269). -/
  keys    : Tbl KeySlot := []
  /-- Broadcast sets by 4g + p: active index and pending switch (slot, SFC). -/
  bsets   : Tbl (Nat × Option (Nat × Nat)) := []
  time    : Time := {}
  tdm     : Tdm := {}
  prot    : Prot := {}
  /-- Board equalisation table by KIND × 16,384 + RATE × 1,024 + lane (15 R370). -/
  eqTable : Tbl EqEntry := []
  /-- Lanes by KIND × 1,024 + lane. -/
  lanes   : Tbl Lane := []
  /-- Ports, Brynlinks and the tender link by lowest lane. -/
  ports   : Tbl Port := []
  /-- Sampling window in ms, the one that applies from the next boundary, and the last window's end (10 R267). -/
  window  : Nat := 1000
  windowNext : Nat := 1000
  windowEnd  : Nat := 0
  health  : Health := {}
  /-- Tenant domains of terminal and flow handles; unlisted handles are domain 0's (02 R51). -/
  termDom : Tbl Nat := []
  flowDom : Tbl Nat := []
  /-- Pins as 03 R79, 02 R68 and 18 R425 hold them. -/
  pins    : Pins
  /-- What has left the device, oldest first. -/
  out     : List Out := []
  /-- The model's own field, not the manual's: how many free values have been drawn. -/
  freeCount : Nat := 0
deriving DecidableEq, Repr

/-- The block: the device and the commands that wait, first in first out. -/
structure State where
  dev     : Dev
  pending : List Instr := []
deriving DecidableEq, Repr

/-- Why the block could stop with a fault: nothing does. Every error of the manual is a status, a counter, a discard or a
recovery, that is a next state, so this type has no constructor. -/
inductive Fault where
deriving DecidableEq, Repr

/-- Why a command could be refused. -/
inductive Refusal where
  /-- Raised by the dispatcher alone, for a command without a meaning yet; safe (nothing is claimed of it). -/
  | notModelled (mnemonic : String)
deriving DecidableEq, Repr

/-- Pins right after reset: every output dark (02 R68), TREE_TXDIS asserted on all 48 trees, PON transmit lanes idle,
heritage lanes sending AIS, the claim lines released, no module selected. -/
def Pins.reset : Pins where
  txDisDriven := true
  txDis := List.range 48
  ptxIdle := List.range 192
  utxActive := []
  htx := .ais
  htxActive := []
  teOut := []
  ppsOut := false
  treeSelDriven := true
  treeSel := []
  claim := .floating
  spiCs := .high

/-- The device right after the release of reset with DEV_ID 0 and BOOT_SEL low: boot state 0 (17 R401), outputs dark
(02 R68), every register at its reset value. -/
def Dev.reset : Dev := { pins := Pins.reset }

/-- The block right after reset, with no command waiting. -/
def State.reset : State where
  dev := Dev.reset
  pending := []

end Sys2Proof.Machine
end

