-- ==== Sys2Proof/Machine/Flags.lean ====
section
/-!
DEFINITION. Status codes (02 Table 2-6), alarm bits (16 Table 16-5) and the addresses of the fixed counters (16 Table
16-2).
-/
namespace Sys2Proof.Machine

/-- Status of a reply (02 Table 2-6). -/
inductive Status where
  | done
  | staged
  | armed
  | busy
  | late
  | badParam
  | badOpcode
  | denied
  | noRoom
  | conflict
  | lost
  | abandoned
  | refused
  | epoch
deriving DecidableEq, Repr

/-- The 16-bit code of a status (02 R44, Table 2-6). -/
def Status.code : Status → Nat
  | .done => 0x0000
  | .staged => 0x0001
  | .armed => 0x0002
  | .busy => 0x0010
  | .late => 0x0011
  | .badParam => 0x0020
  | .badOpcode => 0x0021
  | .denied => 0x0022
  | .noRoom => 0x0023
  | .conflict => 0x0024
  | .lost => 0x0030
  | .abandoned => 0x0031
  | .refused => 0x0040
  | .epoch => 0x0041

/-! ### Alarm bits (16 Table 16-5) -/

/-- Lantern bound exceeded. -/
def alLantern : Nat := 3
/-- Free fault. -/
def alFree : Nat := 4
/-- Claim conflict. -/
def alClaim : Nat := 11
/-- Counter saturated. -/
def alSaturated : Nat := 15
/-- Contained memory fault. -/
def alContained : Nat := 16
/-- Dump skipped. -/
def alDump : Nat := 21
/-- Corrected memory errors above 1,000 in one second. -/
def alCorrected : Nat := 22

/-- The sticky alarms of Table 16-5. -/
def stickyAlarms : List Nat := [alLantern, alFree, alClaim, alSaturated, alContained, alDump, alCorrected]

/-- The alarms that a tenant page may show (Table 16-5). -/
def tenantAlarms : List Nat := [2, 3, 9]

/-! ### Fixed counters (16 R386, Table 16-2): base + stride × object + offset -/

/-- A channel's counter. -/
def ctrChan (g o : Nat) : Nat := 64 * g + o
/-- An uplink lane's counter. -/
def ctrLane (l o : Nat) : Nat := 0x3000 + 32 * l + o
/-- A pipeline's counter. -/
def ctrPipe (p o : Nat) : Nat := 0x3C00 + 32 * p + o
/-- A pool's counter. -/
def ctrPool (p o : Nat) : Nat := 0x3D00 + 16 * p + o
/-- A device counter. -/
def ctrDev (o : Nat) : Nat := 0x3E00 + o
/-- A receive ring's counter. -/
def ctrRx (r o : Nat) : Nat := 0x4000 + 4 * r + o
/-- A transmit ring's counter. -/
def ctrTx (r o : Nat) : Nat := 0x4000 + 4 * (64 + r) + o
/-- A heritage lane's counter. -/
def ctrHeritage (l o : Nat) : Nat := 0x4200 + 16 * l + o
/-- A circuit's loss counter. -/
def ctrCirc (c : Nat) : Nat := 0x4400 + 4 * c
/-- A terminal's counter. -/
def ctrTerm (t o : Nat) : Nat := 0x10000 + 16 * t + o
/-- An allocation's counter. -/
def ctrAlloc (h o : Nat) : Nat := 0x70000 + 4 * h + o

/-- First counter of the allocatable region and number of all counters (16 R385). -/
def ctrFree : Nat := 786432
/-- See `ctrFree`. -/
def ctrCount : Nat := 2097152

end Sys2Proof.Machine
end

