-- ==== Sys2Proof/Machine/Bits.lean ====
section
/-!
DEFINITION. Byte order, bit fields, sparse tables and the named checksums and ciphers: CRC-32C, CRC-32, SHA-256, AES.
-/
namespace Sys2Proof

/-! ### Sparse tables -/

/-- The entry at `i`, if any. -/
def Tbl.find? {α : Type} : Tbl α → Nat → Option α
  | [], _ => none
  | (j, v) :: t, i => if i = j then some v else Tbl.find? t i

/-- The entry at `i`, or a default. -/
def Tbl.getD {α : Type} (t : Tbl α) (i : Nat) (d : α) : α := (Tbl.find? t i).getD d

/-- The table with `v` at `i`, kept strictly rising. -/
def Tbl.put {α : Type} : Tbl α → Nat → α → Tbl α
  | [], i, v => [(i, v)]
  | (j, w) :: t, i, v => if i < j then (i, v) :: (j, w) :: t else if i = j then (i, v) :: t else (j, w) :: Tbl.put t i v

/-- The table without an entry at `i`. -/
def Tbl.del {α : Type} (t : Tbl α) (i : Nat) : Tbl α := t.filter fun e => decide (e.1 ≠ i)

/-- Changes the entry at `i`, taking `d` where there is none. -/
def Tbl.alter {α : Type} (t : Tbl α) (i : Nat) (d : α) (f : α → α) : Tbl α := Tbl.put t i (f (Tbl.getD t i d))

/-- Changes the entry at `i` where there is one. -/
def Tbl.adjust {α : Type} (t : Tbl α) (i : Nat) (f : α → α) : Tbl α :=
  match Tbl.find? t i with
  | some v => Tbl.put t i (f v)
  | none => t

/-- Changes every entry. -/
def Tbl.mapAll {α : Type} (t : Tbl α) (f : Nat → α → α) : Tbl α := t.map fun e => (e.1, f e.1 e.2)

/-- Strictly rising indices: the canonical form of a table. -/
def Tbl.Sorted {α : Type} (t : Tbl α) : Prop := t.Pairwise fun a b => a.1 < b.1

namespace Machine

/-! ### Big-endian fields (00 R11) -/

/-- The number that bytes spell, first byte most significant. -/
def beNat (bs : Bytes) : Nat := bs.foldl (fun a b => a * 256 + b.toNat) 0

/-- `n` bytes of `v`, most significant first. -/
def beBytes : Nat → Nat → Bytes
  | 0, _ => []
  | n + 1, v => BitVec.ofNat 8 (v / 256 ^ n) :: beBytes n v

/-- `len` bytes from offset `off`, bytes beyond the end read as 0 (02 R41). -/
def slice (bs : Bytes) (off len : Nat) : Bytes :=
  let s := (bs.drop off).take len
  s ++ List.replicate (len - s.length) 0#8

/-- Field of `len` bytes at `off`. -/
def field (bs : Bytes) (off len : Nat) : Nat := beNat (slice bs off len)

/-- Bits `hi` down to `lo` of a number. -/
def bits (v hi lo : Nat) : Nat := v / 2 ^ lo % 2 ^ (hi - lo + 1)

/-- Bit `i` of a number. -/
def bit (v i : Nat) : Bool := v / 2 ^ i % 2 == 1

/-- 1 for true. -/
def b2n (b : Bool) : Nat := if b then 1 else 0

/-- The signed reading of an `n`-bit field. -/
def signed (n v : Nat) : Int := if v % 2 ^ n < 2 ^ (n - 1) then (v % 2 ^ n : Nat) else (v % 2 ^ n : Nat) - (2 ^ n : Nat)

/-- The low `n` bits of an integer in two's complement. -/
def wrap (n : Nat) (v : Int) : Nat := (v % (2 ^ n : Nat)).toNat

/-- Signed difference of two wrapped `n`-bit fields (12 R287). -/
def sdiff (n a b : Nat) : Int := signed n (wrap n ((a : Int) - b))

/-- How far time-base value `a` lies after `b`, as 64-bit fields compare (12 R287). -/
def tdiff (a b : Nat) : Int := sdiff 64 a b

/-- Overwrites bytes from offset `off`. -/
def patch (bs : Bytes) (off : Nat) (new : Bytes) : Bytes := slice bs 0 off ++ new ++ bs.drop (off + new.length)

/-- Ceiling of a quotient. -/
def cdiv (a b : Nat) : Nat := (a + b - 1) / b

/-- Rounded up to a multiple. -/
def roundUp (a m : Nat) : Nat := cdiv a m * m

/-- Rounded down to a multiple. -/
def roundDown (a m : Nat) : Nat := a / m * m

/-- A word from a number, taken modulo 2^32. -/
def w32 (v : Nat) : Word := BitVec.ofNat 32 v

/-- A number held at the ceiling of a saturating field of `n` bits. -/
def sat (n v : Nat) : Nat := min v (2 ^ n - 1)

/-- Sum of a list of numbers. -/
def sumBy {α : Type} (l : List α) (f : α → Nat) : Nat := l.foldl (fun a x => a + f x) 0

/-- Largest of a list of numbers, 0 for none. -/
def maxBy {α : Type} (l : List α) (f : α → Nat) : Nat := l.foldl (fun a x => max a (f x)) 0

/-- Stable insertion of an element by a key. -/
def insertBy {α : Type} (key : α → Nat) (x : α) : List α → List α
  | [] => [x]
  | y :: t => if key x < key y then x :: y :: t else y :: insertBy key x t

/-- Stable ascending sort by a key. -/
def sortBy {α : Type} (key : α → Nat) (l : List α) : List α := l.foldl (fun acc x => insertBy key x acc) []

/-- Distinct elements, first occurrences kept. -/
def distinct {α : Type} [BEq α] (l : List α) : List α := l.foldl (fun acc x => if acc.contains x then acc else acc ++ [x]) []

/-- A list without the elements that meet a test. -/
def dropWhere {α : Type} (l : List α) (p : α → Bool) : List α := l.filter fun x => !p x

/-! ### Checksums -/

/-- One byte of a reflected CRC-32. -/
def crcByte (poly : Word) (c : Word) (b : Byte) : Word :=
  (List.range 8).foldl (fun c _ => if c.getLsbD 0 then (c >>> 1) ^^^ poly else c >>> 1) (c ^^^ b.setWidth 32)

/-- CRC-32C with an initial value and no final inversion (08 R201). -/
def crc32cRaw (init : Word) (bs : Bytes) : Word := bs.foldl (crcByte 0x82F63B78#32) init

/-- CRC-32C of an image, a record or a table (16 R399, 17 R405, 14 Table 14-9). -/
def crc32c (bs : Bytes) : Word := crc32cRaw 0xFFFFFFFF#32 bs ^^^ 0xFFFFFFFF#32

/-- IEEE 802.3 FCS of a frame's bytes, as its four bytes are sent. -/
def fcsOf (bs : Bytes) : Bytes :=
  let c := bs.foldl (crcByte 0xEDB88320#32) 0xFFFFFFFF#32 ^^^ 0xFFFFFFFF#32
  (beBytes 4 c.toNat).reverse

/-- The frame's last four bytes are the FCS of the rest. -/
def fcsGood (frame : Bytes) : Bool :=
  decide (4 ≤ frame.length) && (frame.drop (frame.length - 4) == fcsOf (frame.take (frame.length - 4)))

/-- The frame with its FCS inverted: a stomped frame (01 R19). -/
def stomp (frame : Bytes) : Bytes :=
  frame.take (frame.length - 4) ++ (frame.drop (frame.length - 4)).map fun b => ~~~b

/-! ### SHA-256 (02 R59) -/

/-- Round constants of SHA-256. -/
def sha256K : List Word :=
  [0x428a2f98#32, 0x71374491#32, 0xb5c0fbcf#32, 0xe9b5dba5#32, 0x3956c25b#32, 0x59f111f1#32, 0x923f82a4#32, 0xab1c5ed5#32,
   0xd807aa98#32, 0x12835b01#32, 0x243185be#32, 0x550c7dc3#32, 0x72be5d74#32, 0x80deb1fe#32, 0x9bdc06a7#32, 0xc19bf174#32]
  ++ [0xe49b69c1#32, 0xefbe4786#32, 0x0fc19dc6#32, 0x240ca1cc#32, 0x2de92c6f#32, 0x4a7484aa#32, 0x5cb0a9dc#32, 0x76f988da#32,
   0x983e5152#32, 0xa831c66d#32, 0xb00327c8#32, 0xbf597fc7#32, 0xc6e00bf3#32, 0xd5a79147#32, 0x06ca6351#32, 0x14292967#32]
  ++ [0x27b70a85#32, 0x2e1b2138#32, 0x4d2c6dfc#32, 0x53380d13#32, 0x650a7354#32, 0x766a0abb#32, 0x81c2c92e#32, 0x92722c85#32,
   0xa2bfe8a1#32, 0xa81a664b#32, 0xc24b8b70#32, 0xc76c51a3#32, 0xd192e819#32, 0xd6990624#32, 0xf40e3585#32, 0x106aa070#32]
  ++ [0x19a4c116#32, 0x1e376c08#32, 0x2748774c#32, 0x34b0bcb5#32, 0x391c0cb3#32, 0x4ed8aa4a#32, 0x5b9cca4f#32, 0x682e6ff3#32,
   0x748f82ee#32, 0x78a5636f#32, 0x84c87814#32, 0x8cc70208#32, 0x90befffa#32, 0xa4506ceb#32, 0xbef9a3f7#32, 0xc67178f2#32]

/-- Message schedule of a block: the 64 words. -/
def sha256Schedule (block : Bytes) : List Word :=
  let w0 := (List.range 16).map fun i => w32 (field block (4 * i) 4)
  let rev := (List.range 48).foldl (fun (r : List Word) _ =>
    let a := r.getD 1 0#32
    let b := r.getD 14 0#32
    let s1 := a.rotateRight 17 ^^^ a.rotateRight 19 ^^^ (a >>> 10)
    let s0 := b.rotateRight 7 ^^^ b.rotateRight 18 ^^^ (b >>> 3)
    (s1 + r.getD 6 0#32 + s0 + r.getD 15 0#32) :: r) w0.reverse
  rev.reverse

/-- One compression of SHA-256. -/
def sha256Block (h : List Word) (block : Bytes) : List Word :=
  let v := (sha256K.zip (sha256Schedule block)).foldl (fun (v : List Word) kw =>
    let a := v.getD 0 0#32
    let b := v.getD 1 0#32
    let c := v.getD 2 0#32
    let e := v.getD 4 0#32
    let t1 := v.getD 7 0#32 + (e.rotateRight 6 ^^^ e.rotateRight 11 ^^^ e.rotateRight 25)
      + ((e &&& v.getD 5 0#32) ^^^ (~~~e &&& v.getD 6 0#32)) + kw.1 + kw.2
    let t2 := (a.rotateRight 2 ^^^ a.rotateRight 13 ^^^ a.rotateRight 22) + ((a &&& b) ^^^ (a &&& c) ^^^ (b &&& c))
    [t1 + t2, a, b, c, v.getD 3 0#32 + t1, e, v.getD 5 0#32, v.getD 6 0#32]) h
  (h.zip v).map fun p => p.1 + p.2

/-- The message padded to whole blocks. -/
def sha256Pad (msg : Bytes) : Bytes :=
  msg ++ [0x80#8] ++ List.replicate ((119 - msg.length % 64) % 64) 0#8 ++ beBytes 8 (8 * msg.length)

/-- SHA-256 of a byte string. -/
def sha256 (msg : Bytes) : Bytes :=
  let m := sha256Pad msg
  let h := (List.range (m.length / 64)).foldl (fun h i => sha256Block h (slice m (64 * i) 64))
    [0x6a09e667#32, 0xbb67ae85#32, 0x3c6ef372#32, 0xa54ff53a#32, 0x510e527f#32, 0x9b05688c#32, 0x1f83d9ab#32, 0x5be0cd19#32]
  h.flatMap fun w => beBytes 4 w.toNat

/-! ### AES-256-GCM (11 Table 11-1): the cipher of sealed flows -/

/-- Doubling in the field of AES. -/
def gfDouble (b : Byte) : Byte := if b.getLsbD 7 then (b <<< 1) ^^^ 0x1B#8 else b <<< 1

/-- Product in the field of AES. -/
def gfMul (a b : Byte) : Byte :=
  ((List.range 8).foldl (fun (s : Byte × Byte) i => (if b.getLsbD i then s.1 ^^^ s.2 else s.1, gfDouble s.2)) (0#8, a)).1

/-- Inverse in the field of AES, as the 254th power. -/
def gfInv (a : Byte) : Byte :=
  let sq := fun x : Byte => gfMul x x
  let a2 := sq a
  let a4 := sq a2
  let a8 := sq a4
  let a16 := sq a8
  let a32 := sq a16
  let a64 := sq a32
  let a128 := sq a64
  gfMul a128 (gfMul a64 (gfMul a32 (gfMul a16 (gfMul a8 (gfMul a4 a2)))))

/-- The S-box of AES. -/
def aesSub (a : Byte) : Byte :=
  let i := gfInv a
  i ^^^ i.rotateLeft 1 ^^^ i.rotateLeft 2 ^^^ i.rotateLeft 3 ^^^ i.rotateLeft 4 ^^^ 0x63#8

/-- Byte-wise exclusive or. -/
def xorBytes (a b : Bytes) : Bytes := (a.zip b).map fun p => p.1 ^^^ p.2

/-- Key schedule: the words of the expanded key, newest first. -/
def aesExpand (nk total : Nat) (key : Bytes) : List Bytes :=
  let w0 := ((List.range nk).map fun i => slice key (4 * i) 4).reverse
  ((List.range (total - nk)).foldl (fun (st : List Bytes × Byte) j =>
    let i := nk + j
    let prev := st.1.getD 0 []
    let back := st.1.getD (nk - 1) []
    if i % nk = 0 then
      let t := ((prev.drop 1) ++ prev.take 1).map aesSub
      (xorBytes back (xorBytes t [st.2, 0#8, 0#8, 0#8]) :: st.1, gfDouble st.2)
    else if nk > 6 ∧ i % nk = 4 then (xorBytes back (prev.map aesSub) :: st.1, st.2)
    else (xorBytes back prev :: st.1, st.2)) (w0, 1#8)).1

/-- Rows shifted, on the column-major state. -/
def aesShiftRows (s : Bytes) : Bytes :=
  (List.range 16).map fun i => s.getD ((i + 4 * (i % 4)) % 16) 0#8

/-- Columns mixed. -/
def aesMixColumns (s : Bytes) : Bytes :=
  (List.range 16).map fun i =>
    let c := i / 4 * 4
    let at' := fun k => s.getD (c + (i + k) % 4) 0#8
    gfDouble (at' 0) ^^^ (gfDouble (at' 1) ^^^ at' 1) ^^^ at' 2 ^^^ at' 3

/-- AES-256 encryption of one block. -/
def aes256Block (key block : Bytes) : Bytes :=
  let w := (aesExpand 8 60 key).reverse
  let rk := fun r => (w.getD (4 * r) []) ++ (w.getD (4 * r + 1) []) ++ (w.getD (4 * r + 2) []) ++ (w.getD (4 * r + 3) [])
  let s := (List.range 13).foldl (fun s r => xorBytes (aesMixColumns (aesShiftRows (s.map aesSub))) (rk (r + 1)))
    (xorBytes block (rk 0))
  xorBytes (aesShiftRows (s.map aesSub)) (rk 14)

/-- Product in the field of GHASH. -/
def ghashMul (x y : BitVec 128) : BitVec 128 :=
  ((List.range 128).foldl (fun (s : BitVec 128 × BitVec 128) i =>
    (if x.getMsbD i then s.1 ^^^ s.2 else s.1,
     if s.2.getLsbD 0 then (s.2 >>> 1) ^^^ (0xE1#128 <<< 120) else s.2 >>> 1)) (0#128, y)).1

/-- GHASH of a whole number of blocks. -/
def ghash (h : BitVec 128) (bs : Bytes) : BitVec 128 :=
  (List.range (bs.length / 16)).foldl (fun y i => ghashMul (y ^^^ BitVec.ofNat 128 (field bs (16 * i) 16)) h) 0#128

/-- Zero padding to whole blocks. -/
def padBlock (bs : Bytes) : Bytes := slice bs 0 (roundUp bs.length 16)

/-- Counter-mode key stream of GCM from counter 2. -/
def gcmCrypt (key nonce data : Bytes) : Bytes :=
  xorBytes data ((List.range (cdiv data.length 16)).flatMap fun i => aes256Block key (nonce ++ beBytes 4 (i + 2)))

/-- The 128-bit tag of GCM over additional data and ciphertext, for a 96-bit nonce. -/
def gcmTag (key nonce aad cipher : Bytes) : Bytes :=
  let h := BitVec.ofNat 128 (beNat (aes256Block key (List.replicate 16 0#8)))
  let s := ghash h (padBlock aad ++ padBlock cipher ++ beBytes 8 (8 * aad.length) ++ beBytes 8 (8 * cipher.length))
  xorBytes (beBytes 16 s.toNat) (aes256Block key (nonce ++ beBytes 4 1))

end Machine
end Sys2Proof
end

