-- ==== Sys2Proof/Machine/Objects.lean ====
section
/-!
DEFINITION. Versioned objects and what their parameters mean: one reader per versioned command, with the Reset column's
value where no command has set a field (00 R432) and every "0 means" applied.
-/
namespace Sys2Proof.Machine

/-- The object of an opcode and key in a version's content. -/
def findObj (objs : List VObj) (op : Nat) (key : Bytes) : Option Bytes :=
  (objs.find? fun o => o.op == op && o.key == key).map VObj.params

/-- All objects of an opcode. -/
def objsOf (objs : List VObj) (op : Nat) : List VObj := objs.filter fun o => o.op == op

/-- Field of parameters that the manual counts from entry byte 16. -/
def ent (p : Bytes) (byte len : Nat) : Nat := field p (byte - 16) len

/-- A value whose 0 stands for a default. -/
def orZero (v d : Nat) : Nat := if v = 0 then d else v

/-- Parameters of the object, or none, as an empty string that reads as 0. -/
def objParams (objs : List VObj) (op : Nat) (key : Bytes) : Bytes := (findObj objs op key).getD []

/-! ### 03 Channels -/

/-- CHANNEL_MODE_SET of a channel (03 Table 3-3). -/
structure ChanCfg where
  mode     : Nat
  upRate   : Nat
  maxFrame : Nat
  errDeliv : Bool
  ploamCopy : Bool
  win      : Nat
  losFr    : Nat
deriving DecidableEq, Repr

/-- The channel's mode parameters in a version. -/
def chanCfg (objs : List VObj) (g : Nat) : ChanCfg :=
  let p := objParams objs 0x0301 (beBytes 2 g)
  { mode := ent p 18 1, upRate := ent p 19 1, maxFrame := orZero (ent p 20 2) 9600,
    errDeliv := bit (ent p 22 1) 0, ploamCopy := bit (ent p 22 1) 1,
    win := orZero (ent p 23 1) 4, losFr := orZero (ent p 24 1) 8 }

/-- Profile `i` of channel `g`, when it exists. -/
def profile? (objs : List VObj) (g i : Nat) : Option Profile :=
  (findObj objs 0x0304 (beBytes 2 g ++ beBytes 1 i)).map fun p =>
    { fec := bit (ent p 19 1) 0, preRep := ent p 20 1, delimLen := ent p 21 1, tol := ent p 22 1,
      prePat := ent p 24 8, delimPat := ent p 32 8 }

/-- Existing profiles of a channel in index order. -/
def profiles (objs : List VObj) (g : Nat) : List (Nat × Profile) :=
  (List.range 4).filterMap fun i => (profile? objs g i).map fun q => (i, q)

/-- Profile `i` where it exists, otherwise profile 0, otherwise an empty profile. -/
def profileOr0 (objs : List VObj) (g i : Nat) : Profile :=
  (profile? objs g i).getD ((profile? objs g 0).getD ⟨false, 0, 0, 0, 0, 0⟩)

/-- The same among the profiles of a kept plan. -/
def Plan.prof (p : Plan) (i : Nat) : Profile :=
  let find := fun i => (p.profs.find? fun q => q.1 == i).map Prod.snd
  (find i).getD ((find 0).getD ⟨false, 0, 0, 0, 0, 0⟩)

/-- Preamble of a profile in bits. -/
def Profile.preBits (p : Profile) : Nat := 64 * p.preRep

/-- Upstream line rate in units of 10^-5 Gb/s: mode 1 and UPRATE (03 Table 3-3). -/
def upRate5 (c : ChanCfg) : Nat :=
  match c.upRate with
  | 1 => 1244160
  | 2 => 2488320
  | 3 => 4976640
  | _ => 995328

/-- U, bytes of one receive frame (05 Table 5-1). -/
def rxFrameBytes (c : ChanCfg) : Nat :=
  match c.upRate with
  | 1 => 194400
  | 2 => 388800
  | 3 => 777600
  | _ => 155520

/-! ### 04 Discovery -/

/-- DISCOVERY_SET of a channel (04 Table 4-3). -/
structure DiscCfg where
  on       : Bool
  dmin     : Nat
  dmax     : Nat
  dperiod  : Nat
  profMargin : Nat
  driftThr : Nat
  lostTime : Nat
  rangeAtt : Nat
deriving DecidableEq, Repr

/-- The channel's discovery parameters in a version. -/
def discCfg (objs : List VObj) (g : Nat) : DiscCfg :=
  match findObj objs 0x0407 (beBytes 2 g) with
  | none => { on := false, dmin := 0, dmax := 20000, dperiod := 80, profMargin := 10, driftThr := 8, lostTime := 100, rangeAtt := 3 }
  | some p =>
    { on := bit (ent p 18 1) 0, dmin := ent p 20 4, dmax := ent p 24 4, dperiod := orZero (ent p 28 2) 80,
      profMargin := orZero (ent p 30 1) 10, driftThr := orZero (ent p 31 1) 8,
      lostTime := orZero (ent p 32 2) 100, rangeAtt := orZero (ent p 34 1) 3 }

/-- Bits of FEC parity of one codeword: 32 bytes in 10G mode, 336 bytes in 50G mode (04 R110). -/
def parityQ (c : ChanCfg) : Nat := if c.mode = 2 then 336 else 32

/-- Payload bytes of one codeword (05 Table 5-7). -/
def parityK (c : ChanCfg) : Nat := if c.mode = 2 then 1824 else 216

/-- T_sn in ns (04 R110). -/
def snTime (objs : List VObj) (g : Nat) : Nat :=
  let c := chanCfg objs g
  let p := profileOr0 objs g 0
  cdiv ((p.preBits + 8 * p.delimLen + 8 * (60 + if p.fec then parityQ c else 0)) * 100000) (upRate5 c)

/-- RTD_min and RTD_max in tenths of ns (04 R110). -/
def rtdMin10 (x : DiscCfg) : Nat := 98 * x.dmin + 340000
/-- See `rtdMin10`. -/
def rtdMax10 (x : DiscCfg) : Nat := 98 * x.dmax + 360000

/-- W in ns, rounded up to a whole µs (04 R110). -/
def windowW (objs : List VObj) (g : Nat) : Nat :=
  let x := discCfg objs g
  roundUp (98 * (x.dmax - x.dmin) + 10 * (2000 + 48000 + snTime objs g + 512)) 10000 / 10

/-- W_rng in ns (04 R110). -/
def windowRng (objs : List VObj) (g : Nat) : Nat := min (windowW objs g) (snTime objs g + 5024)

/-- W_c in ns (04 R111). -/
def windowC (objs : List VObj) (g : Nat) : Nat := if (discCfg objs g).on then windowW objs g else 0

/-- T_eq in upstream bits: RTD_max rounded up to a whole bit (04 R110). -/
def teqBits (objs : List VObj) (g : Nat) : Nat := cdiv (rtdMax10 (discCfg objs g) * upRate5 (chanCfg objs g)) 1000000

/-- T_eq in ns, rounded up. -/
def teqNs (objs : List VObj) (g : Nat) : Nat := cdiv (teqBits objs g * 100000) (upRate5 (chanCfg objs g))

/-! ### 05 Planner -/

/-- PLANNER_SET of a channel (05 Table 5-3). -/
structure PlanCfg where
  lshare   : Nat
  charLen  : Nat
  guard    : Nat
  preAdv   : Nat
  detector : Bool
  minGrant : Nat
  keepInt  : Nat
deriving DecidableEq, Repr

/-- The channel's planner parameters in a version. -/
def planCfg (objs : List VObj) (g : Nat) : PlanCfg :=
  let dflt := if (chanCfg objs g).mode = 2 then 512 else 128
  match findObj objs 0x0501 (beBytes 2 g) with
  | none => { lshare := 60, charLen := 48, guard := dflt, preAdv := 1, detector := false, minGrant := 64, keepInt := 8 }
  | some p =>
    { lshare := ent p 18 1, charLen := orZero (ent p 19 1) 48, guard := orZero (ent p 20 2) dflt, preAdv := ent p 22 1,
      detector := bit (ent p 23 1) 0, minGrant := orZero (ent p 24 4) 64, keepInt := orZero (ent p 28 1) 8 }

/-- A Lantern allocation (05 Table 5-5). -/
structure LAlloc where
  handle  : Nat
  term    : Nat
  allocId : Nat
  k       : Nat
  phase   : Nat
  b       : Nat
  offset  : Option Nat
deriving DecidableEq, Repr

/-- Reads a Lantern allocation. -/
def lallocOf (o : VObj) : LAlloc :=
  let p := o.params
  { handle := ent p 16 2, term := ent p 18 2, allocId := ent p 20 2, k := ent p 22 1, phase := ent p 23 1, b := ent p 24 4,
    offset := if ent p 28 4 = 0xFFFFFFFF then none else some (ent p 28 4) }

/-- Lantern allocations of a version in handle order. -/
def lallocs (objs : List VObj) : List LAlloc := sortBy LAlloc.handle ((objsOf objs 0x0502).map lallocOf)

/-- A Lantern allocation by handle. -/
def lalloc? (objs : List VObj) (h : Nat) : Option LAlloc := (lallocs objs).find? fun a => a.handle == h

/-- A Lantern flow binding (06 Table 6-5). -/
structure LFlow where
  flow  : Nat
  alloc : Option Nat
  uport : Nat
  dnq   : Nat
  smax  : Nat
  reqUp : Nat
  reqDn : Nat
deriving DecidableEq, Repr

/-- Reads a Lantern flow binding. -/
def lflowOf (o : VObj) : LFlow :=
  let p := o.params
  { flow := ent p 16 2, alloc := if ent p 18 2 = 0xFFFF then none else some (ent p 18 2), uport := ent p 20 1,
    dnq := ent p 21 1, smax := ent p 22 2, reqUp := ent p 24 4, reqDn := ent p 28 4 }

/-- Lantern flow bindings of a version in flow order. -/
def lflows (objs : List VObj) : List LFlow := sortBy LFlow.flow ((objsOf objs 0x0508).map lflowOf)

/-- The Lantern binding of a flow. -/
def lflow? (objs : List VObj) (f : Nat) : Option LFlow := (lflows objs).find? fun x => x.flow == f

/-! ### 07 Classifier -/

/-- A classifier table (07 Table 7-7). -/
structure ClsTable where
  table  : Nat
  kind   : Nat
  scope  : Nat
  width  : Nat
  first  : Nat
  nbanks : Nat
  step   : Bool
  selw   : Nat
  seloff : Nat
  segs   : List (Nat × Nat)
deriving DecidableEq, Repr

/-- Key segments up to the first of width 0. -/
def segsUntil0 : List (Nat × Nat) → List (Nat × Nat)
  | [] => []
  | (o, w) :: t => if w = 0 then [] else (o, w) :: segsUntil0 t

/-- Reads a table's parameters. -/
def clsTableOf (p : Bytes) : ClsTable :=
  { table := ent p 16 1, kind := ent p 17 1, scope := ent p 18 1, width := ent p 19 1, first := ent p 20 1,
    nbanks := ent p 21 1, step := bit (ent p 22 1) 0, selw := ent p 23 1, seloff := ent p 24 2,
    segs := segsUntil0 ((List.range 8).map fun i => (bits (ent p (28 + 4 * i) 4) 31 22, bits (ent p (28 + 4 * i) 4) 21 13)) }

/-- A table of a version. -/
def clsTable? (objs : List VObj) (t : Nat) : Option ClsTable := (findObj objs 0x0601 (beBytes 1 t)).map clsTableOf

/-- Lookups of a program: table numbers up to the first 0xFF (07 R182). -/
def program? (objs : List VObj) (n : Nat) : Option (List Nat) :=
  (findObj objs 0x0602 (beBytes 1 n)).map fun p => ((List.range 4).map fun i => ent p (18 + i) 1).filter fun t => t != 0xFF

/-- PROG1 and PROG2 of a source; program 0 in both passes without a binding (07 R182). -/
def binding (objs : List VObj) (src : Nat) : Nat × Nat :=
  match findObj objs 0x0603 (beBytes 2 src) with
  | none => (0, 0)
  | some p => (ent p 18 1, if ent p 19 1 = 0xFF then ent p 18 1 else ent p 19 1)

/-- Rule records of a table: record index and 64 bytes, in index order (07 R185). -/
def ruleRecords (objs : List VObj) (t : Nat) : List (Nat × Bytes) :=
  sortBy Prod.fst (((objsOf objs 0x0604).filter fun o => field o.params 0 1 == t).map fun o =>
    (field o.params 4 4, slice o.params 8 64))

/-- An associative entry: address, action, value, mask. -/
structure AssocEntry where
  addr   : Nat
  action : Nat
  value  : Bytes
  mask   : Bytes
deriving DecidableEq, Repr

/-- Operator entries of a table in address order (07 R189, R192). -/
def operEntries (objs : List VObj) (t : ClsTable) : List AssocEntry :=
  sortBy AssocEntry.addr (((objsOf objs 0x0605).filter fun o => field o.params 0 1 == t.table).map fun o =>
    { addr := field o.params 2 2, action := field o.params 4 8, value := slice o.params 12 (10 * t.width),
      mask := slice o.params (12 + 10 * t.width) (10 * t.width) })

/-! ### 09, 10 Switch core and traffic manager -/

/-- Pool sizes in MiB and LRES (09 Table 9-3). -/
def carving (objs : List VObj) : List Nat × Nat :=
  match findObj objs 0x0801 [] with
  | none => ([16, 32, 48, 32, 64], 0)
  | some p => ((List.range 5).map fun i => ent p (16 + 2 * i) 2, ent p 28 4)

/-- A queue profile (09 Table 9-7). -/
structure QProf where
  mark  : Bool
  spill : Bool
  pmax  : Nat
  minth : Nat
  maxth : Nat
  dropth : Nat
  spillth : Nat
  returnth : Nat
deriving DecidableEq, Repr

/-- A queue profile of a version. -/
def qprof? (objs : List VObj) (i : Nat) : Option QProf :=
  (findObj objs 0x0803 (beBytes 1 i)).map fun p =>
    { mark := bit (ent p 17 1) 0, spill := bit (ent p 17 1) 1, pmax := ent p 18 2, minth := ent p 20 4, maxth := ent p 24 4,
      dropth := ent p 28 4, spillth := ent p 32 4, returnth := ent p 36 4 }

/-- Cut-through allowed for a class at an egress (09 R221). -/
def cutAllowed (objs : List VObj) (egress cls : Nat) : Bool :=
  let onChannel := decide (egress < 16384)
  match findObj objs 0x0804 (beBytes 2 egress) with
  | none => onChannel
  | some p => bit (ent p 18 1) cls || (onChannel && cls == 0)

/-- A shaper profile (10 Table 10-4). -/
structure Shaper where
  weight : Nat
  cir    : Nat
  cbs    : Nat
  pir    : Nat
  pbs    : Nat
deriving DecidableEq, Repr

/-- A shaper profile of a version; profile 0 always exists (10 R248). -/
def shaper? (objs : List VObj) (i : Nat) : Option Shaper :=
  match findObj objs 0x0904 (beBytes 2 i) with
  | some p => some { weight := orZero (ent p 19 1) 1, cir := ent p 20 4, cbs := ent p 24 4, pir := ent p 28 4, pbs := ent p 32 4 }
  | none => if i = 0 then some { weight := 1, cir := 0, cbs := 16000, pir := 0, pbs := 16000 } else none

/-- A shaper profile, profile 0 where it is missing. -/
def shaper (objs : List VObj) (i : Nat) : Shaper := (shaper? objs i).getD ⟨1, 0, 16000, 0, 16000⟩

/-- A channel's traffic-manager node (10 Table 10-5). -/
structure TmChan where
  overhead : Int
  pir      : Nat
  pbs      : Nat
  hold     : Nat
deriving DecidableEq, Repr

/-- HOLD in ms: 0xFFFF means 50. -/
def holdMs (v : Nat) : Nat := if v = 0xFFFF then 50 else v

/-- The channel's node in a version. -/
def tmChan (objs : List VObj) (g : Nat) : TmChan :=
  match findObj objs 0x0906 (beBytes 2 g) with
  | none => { overhead := 8, pir := 0, pbs := 65536, hold := 50 }
  | some p => { overhead := signed 8 (ent p 18 1), pir := ent p 20 4, pbs := ent p 24 4, hold := holdMs (ent p 28 2) }

/-- A port's scheduler (10 Table 10-6). -/
structure TmPort where
  drr      : Bool
  overhead : Int
  weights  : List Nat
  pir      : Nat
  pbs      : Nat
  qprofs   : List Nat
  hold     : Nat
deriving DecidableEq, Repr

/-- The port's scheduler in a version. -/
def tmPort (objs : List VObj) (lane : Nat) : TmPort :=
  match findObj objs 0x0907 (beBytes 1 lane) with
  | none => { drr := false, overhead := 20, weights := [1, 1, 1], pir := 0, pbs := 65536, qprofs := [0, 0, 0], hold := 50 }
  | some p =>
    { drr := ent p 17 1 == 1, overhead := signed 8 (ent p 18 1), weights := [ent p 20 1, ent p 21 1, ent p 22 1],
      pir := ent p 24 4, pbs := ent p 28 4, qprofs := [ent p 32 1, ent p 33 1, ent p 34 1], hold := holdMs (ent p 36 2) }

/-- A gate list as staged: BASE, CYCLE and entries of mask and interval (10 Table 10-8). -/
structure GateCfg where
  base  : Nat
  cycle : Nat
  entries : List (Nat × Nat)
deriving DecidableEq, Repr

/-- Reads a gate list's buffer. -/
def gateOf (p : Bytes) : GateCfg :=
  { base := field p 8 8, cycle := field p 16 4,
    entries := (List.range (field p 20 2)).map fun i => (bits (field p (24 + 4 * i) 4) 31 28, bits (field p (24 + 4 * i) 4) 27 0) }

/-- The gate list of a target in a version. -/
def gateCfg? (objs : List VObj) (kind target : Nat) : Option GateCfg :=
  (findObj objs 0x0909 (beBytes 1 kind ++ beBytes 2 target)).map gateOf

/-! ### 13 TDM -/

/-- A heritage lane (13 Table 13-3). -/
structure HLane where
  mode   : Nat
  au3    : Bool
  timChk : Bool
  ssmTx  : Bool
  sdThr  : Nat
  sfThr  : Nat
  j0tx   : Bytes
  j0exp  : Bytes
deriving DecidableEq, Repr

/-- The lane's settings in a version. -/
def hlane (objs : List VObj) (l : Nat) : HLane :=
  match findObj objs 0x0C01 (beBytes 1 l) with
  | none => { mode := 0, au3 := false, timChk := false, ssmTx := false, sdThr := 6, sfThr := 3, j0tx := [], j0exp := [] }
  | some p =>
    { mode := ent p 17 1, au3 := ent p 18 1 == 1, timChk := bit (ent p 19 1) 0, ssmTx := bit (ent p 19 1) 1,
      sdThr := ent p 20 1, sfThr := ent p 21 1, j0tx := slice p 9 15, j0exp := slice p 25 15 }

/-- Connections of a page: destination and source address, in destination order (13 R322). -/
def connections (objs : List VObj) (page : Nat) : List (Nat × Nat) :=
  sortBy Prod.fst (((objsOf objs 0x0C02).filter fun o => field o.params 0 1 == page).map fun o => (field o.params 4 4, field o.params 8 4))

/-- A circuit (13 Table 13-7). -/
structure CircCfg where
  circ   : Nat
  term   : Nat
  level  : Nat
  dnPort : Nat
  upPort : Nat
  ualloc : Nat
deriving DecidableEq, Repr

/-- Reads a circuit. -/
def circOf (o : VObj) : CircCfg :=
  let p := o.params
  { circ := ent p 16 2, term := ent p 18 2, level := ent p 20 1, dnPort := ent p 22 2, upPort := ent p 24 2, ualloc := ent p 26 2 }

/-- Circuits of a version in handle order. -/
def circuits (objs : List VObj) : List CircCfg := sortBy CircCfg.circ ((objsOf objs 0x0C04).map circOf)

/-- Size of a circuit position in bytes (13 R327). -/
def CircCfg.size (c : CircCfg) : Nat := if c.level = 2 then 48 else 40

/-! ### 15 Groups -/

/-- A group of uplink lanes (15 Table 15-4). -/
structure Group where
  lane     : Nat
  kind     : Nat
  width    : Nat
  rate     : Nat
  fec      : Nat
  precode  : Nat
  maxFrame : Nat
  flags    : Nat
  exprx    : Nat
  exptx    : Nat
  addFrag  : Nat
  verifyMs : Nat
  recov    : Nat
deriving DecidableEq, Repr

/-- Reads a group. -/
def groupOf (o : VObj) : Group :=
  let p := o.params
  { lane := ent p 16 1, kind := ent p 17 1, width := ent p 18 1, rate := ent p 19 1, fec := ent p 20 1, precode := ent p 21 1,
    maxFrame := orZero (ent p 22 2) 9600, flags := ent p 24 1, exprx := ent p 25 1, exptx := ent p 26 1,
    addFrag := ent p 27 1, verifyMs := orZero (ent p 28 1) 10, recov := orZero (ent p 29 2) 500 }

/-- Groups of a version in lane order. -/
def groups (objs : List VObj) : List Group := sortBy Group.lane ((objsOf objs 0x0E01).map groupOf)

/-- The group whose lowest lane is `lane`. -/
def group? (objs : List VObj) (lane : Nat) : Option Group := (groups objs).find? fun q => q.lane == lane

/-- The flags of a group: ERRDELIV, PREEMPT, NOVERIFY, TRAIN. -/
def Group.errDeliv (q : Group) : Bool := bit q.flags 0
/-- See `Group.errDeliv`. -/
def Group.preempt (q : Group) : Bool := bit q.flags 1
/-- See `Group.errDeliv`. -/
def Group.noVerify (q : Group) : Bool := bit q.flags 2
/-- See `Group.errDeliv`. -/
def Group.train (q : Group) : Bool := bit q.flags 3

/-- Lane rate in units of 10^-5 Gb/s (15 Table 15-4). -/
def laneRate5 : Nat → Nat
  | 1 => 10625000
  | 2 => 5312500
  | 3 => 2578125
  | _ => 1031250

/-- R_p in Gb/s of an Ethernet port (15 Table 15-3); for a Brynlink the lane rate times its width, rounded down. -/
def Group.rateGb (q : Group) : Nat :=
  if q.kind = 1 then
    match q.rate with
    | 1 => 100 * q.width
    | 2 => 50 * q.width
    | _ => 100
  else laneRate5 q.rate * q.width / 100000

/-- WIDTH, RATE and FEC of a group agree with 15 R366. -/
def groupFits (kind width rate fec : Nat) : Bool :=
  let fecOk := fec == 0 || (fec == 1 && (rate == 3 || rate == 4))
  match kind with
  | 1 => fecOk && ((rate == 1 && [1, 2, 4, 8].contains width) || (rate == 2 && [2, 4, 8].contains width) || (rate == 3 && width == 4))
  | 2 => fecOk && [1, 2, 3, 4].contains rate && (width == 4 || width == 8)
  | 3 => fec == 0 && rate == 1 && width == 4
  | _ => false

end Sys2Proof.Machine
end

