-- ==== Sys2Proof/Machine/Ops.lean ====
section
/-!
DEFINITION. The named operations over the device that the commands share: time, domains and replies, counters and
alarms, the running version, the pins.
-/
namespace Sys2Proof.Machine

/-! ### Free values -/

/-- The next free value: nothing in Lean can evaluate it. -/
def Dev.freeNow (d : Dev) : Nat := Config.freeValue d.freeCount

/-- The device after a free value has been drawn. -/
def Dev.freeNext (d : Dev) : Dev := { d with freeCount := d.freeCount + 1 }

/-! ### Time (12 R285 to R287) -/

/-- T at counter value `c`, in units of 2^-32 ns (12 R286). -/
def Time.raw (t : Time) (c : Nat) : Int :=
  t.t0 + ((c : Int) - t.c0) * 4294967296 + (((c : Int) - t.c0) * t.rate) / 4096

/-- The time base now, in units of 2^-32 ns. -/
def Dev.raw (d : Dev) : Int := d.time.raw d.time.c

/-- The time base now, 64 bits of whole ns: the fraction is dropped (12 R285). -/
def Dev.now (d : Dev) : Nat := (d.raw / 4294967296 % 18446744073709551616).toNat

/-- Fraction of the time base now, in units of 2^-32 ns. -/
def Dev.frac (d : Dev) : Nat := (d.raw % 4294967296).toNat

/-- First counter value at which the time base reads at least `x` ns (12 R304). -/
def Time.edgeAt (t : Time) (x : Int) : Nat :=
  let need := x * 4294967296 - t.t0
  let slope := 17592186044416 + t.rate
  (t.c0 + (need * 4096 + slope - 1) / slope).toNat

/-- The counter moved on to a later value; it never goes back. -/
def Dev.goCounter (d : Dev) (c : Nat) : Dev := { d with time := { d.time with c := max d.time.c c } }

/-- The counter moved on to the first edge at which the time base reads at least `x` ns, ahead or behind as R287 compares. -/
def Dev.goTime (d : Dev) (x : Nat) : Dev := d.goCounter (d.time.edgeAt (d.raw / 4294967296 + tdiff x d.now))

/-- Length of a frame in ns (01 R26). -/
def frameNs : Nat := 125000

/-- First frame instant at least `gap` ns after now, in ns. -/
def Dev.frameAfter (d : Dev) (gap : Nat) : Nat := roundUp (d.now + gap) frameNs

/-- Superframe count of the frame that the frame number names (12 R294). -/
def Dev.superframe (d : Dev) (frame : Nat) : Nat := ((frame : Int) + d.time.sfOffset).toNat

/-! ### Domains and replies (02 R30 to R43) -/

/-- State of a domain. -/
def Dev.dom (d : Dev) (n : Nat) : Dom := d.doms.getD n {}

/-- Changes a domain's state. -/
def Dev.setDom (d : Dev) (n : Nat) (f : Dom → Dom) : Dev := { d with doms := d.doms.put n (f (d.dom n)) }

/-- Entries of each ring of a domain (02 R34). -/
def Dom.entries (m : Dom) : Nat := 2 ^ m.log2.toNat

/-- Base address of the command ring. -/
def Dom.cmdBase (m : Dom) : Nat := m.cmdBaseHi.toNat * 4294967296 + m.cmdBaseLo.toNat

/-- Base address of the reply ring. -/
def Dom.replyBase (m : Dom) : Nat := m.replyBaseHi.toNat * 4294967296 + m.replyBaseLo.toNat

/-- Commands of a domain in execution (02 R37). -/
def Dev.inExec (d : Dev) (n : Nat) : Nat := (d.execs.filter fun e => e.dom == n).length

/-- RING_STATUS IDLE: no command of the ring is in execution (02 Table 2-3). -/
def Dev.idle (d : Dev) (n : Nat) : Bool := d.inExec n == 0

/-- A posted PCIe write (02 R431). -/
def Dev.hostWrite (d : Dev) (addr : Nat) (data : Bytes) : Dev := { d with out := d.out ++ [.hostWrite addr data] }

/-- Output of another kind. -/
def Dev.emit (d : Dev) (o : Out) : Dev := { d with out := d.out ++ [o] }

/-- Phase bit of entry `k` of a ring (02 R40). -/
def phaseOf (k entries : Nat) : Nat := if k / entries % 2 = 0 then 1 else 0

/-- The 32 bytes of a reply (02 Table 2-4). -/
def replyBytes (dom : Nat) (tag : BitVec 16) (op : Nat) (st : Status) (ctime : Nat) (res : List Nat) (phase : Nat) : Bytes :=
  beBytes 2 tag.toNat ++ beBytes 2 op ++ beBytes 2 st.code ++ beBytes 1 dom ++ [0#8] ++ beBytes 4 ctime
  ++ beBytes 4 (res.getD 0 0) ++ beBytes 4 (res.getD 1 0) ++ beBytes 4 (res.getD 2 0) ++ beBytes 4 (res.getD 3 0)
  ++ [0#8, 0#8, 0#8] ++ beBytes 1 phase

/-- Writes a reply at the next slot of the domain's reply ring (02 R40). -/
def Dev.reply (d : Dev) (dom : Nat) (tag : BitVec 16) (op : Nat) (st : Status) (ctime : Nat) (res : List Nat) : Dev :=
  let m := d.dom dom
  let k := m.replyIdx.toNat
  (d.hostWrite (m.replyBase + 32 * (k % m.entries)) (replyBytes dom tag op st ctime res (phaseOf k m.entries))).setDom dom
    fun m => { m with replyIdx := m.replyIdx + 1 }

/-- A command in execution by its identity. -/
def Dev.exec? (d : Dev) (dom seq : Nat) : Option Exec := d.execs.find? fun e => e.dom == dom && e.seq == seq

/-- The command leaves execution. -/
def Dev.unpark (d : Dev) (e : Exec) : Dev := { d with execs := d.execs.filter fun x => !(x.dom == e.dom && x.seq == e.seq) }

/-- The command stays in execution, its place in fetch order kept. -/
def Dev.park (d : Dev) (e : Exec) : Dev :=
  if d.execs.any fun x => x.dom == e.dom && x.seq == e.seq then
    { d with execs := d.execs.map fun x => if x.dom == e.dom && x.seq == e.seq then e else x }
  else { d with execs := d.execs ++ [e] }

/-- The command's final reply, with CTIME as 02 R43 and R46 give it; the command leaves execution (02 R38). -/
def Dev.finish (d : Dev) (e : Exec) (st : Status) (res : List Nat) : Dev :=
  (d.unpark e).reply e.dom e.pkt.tag e.op st (e.stamp.getD d.now) res

/-- The final reply of a command in execution, by its identity; nothing when it has left execution already. -/
def Dev.finishId (d : Dev) (dom seq : Nat) (st : Status) (res : List Nat) : Dev :=
  match d.exec? dom seq with
  | some e => d.finish e st res
  | none => d

/-- `DONE` without result words. -/
def Dev.ok (d : Dev) (e : Exec) : Dev := d.finish e .done []

/-! ### Counters (16 R385 to R389) and sticky alarms (16 R394) -/

/-- Sets a sticky alarm bit on the page of a domain. -/
def Dev.stick (d : Dev) (dom b : Nat) : Dev :=
  d.setDom dom fun m => if m.sticky.contains b then m else { m with sticky := m.sticky ++ [b] }

/-- A sticky event that concerns no tenant (16 R394). -/
def Dev.alarm (d : Dev) (b : Nat) : Dev := d.stick 0 b

/-- A sticky event that concerns a domain's own terminal or flow: on the domain-0 page, and on the tenant's where the
alarm is marked for tenants. -/
def Dev.alarmOf (d : Dev) (b dom : Nat) : Dev :=
  let d := d.stick 0 b
  if dom ≠ 0 ∧ tenantAlarms.contains b then d.stick dom b else d

/-- A counter's value. -/
def Dev.counter (d : Dev) (a : Nat) : Nat := d.health.counters.getD a 0

/-- Adds to a counter; a set chain bit carries into the next counter, a clear one stops it (16 R388). The second part is
true when a counter saturated. `fuel` bounds the carries: each needs a chain bit that is set. -/
def addCounter (fuel : Nat) (chain : Tbl Bool) (t : Tbl Nat) (a n : Nat) : Tbl Nat × Bool :=
  let v := t.getD a 0 + n
  if v < 2 ^ 64 then (t.put a v, false)
  else if chain.getD a false then
    match fuel with
    | 0 => (t.put a (2 ^ 64 - 1), true)
    | fuel + 1 => addCounter fuel chain (t.put a (v % 2 ^ 64)) (a + 1) (v / 2 ^ 64)
  else (t.put a (2 ^ 64 - 1), true)

/-- Counts `n` events or bytes at a counter. -/
def Dev.countBy (d : Dev) (a n : Nat) : Dev :=
  let r := addCounter d.health.chain.length d.health.chain d.health.counters a n
  let d := { d with health := { d.health with counters := r.1 } }
  if r.2 then d.alarm alSaturated else d

/-- Counts one event. -/
def Dev.count (d : Dev) (a : Nat) : Dev := d.countBy a 1

/-! ### The running version -/

/-- Content of the running version; empty before the first commit. -/
def Dev.objs (d : Dev) : List VObj :=
  match d.vers.running with
  | some v => v.objs
  | none => []

/-- Content of the version in a slot, the running one where the slot has been freed. -/
def Dev.objsAt (d : Dev) (slot : Nat) : List VObj :=
  match d.vers.running with
  | some v => if v.slot = slot then v.objs else
    match d.vers.retiring.find? fun w => w.slot == slot with
    | some w => w.objs
    | none => v.objs
  | none => []

/-- Running version number, 0 before the first commit. -/
def Dev.runNum (d : Dev) : Nat :=
  match d.vers.running with
  | some v => v.num
  | none => 0

/-- Slot of the running version, 0 before the first commit. -/
def Dev.runSlot (d : Dev) : Nat :=
  match d.vers.running with
  | some v => v.slot
  | none => 0

/-- Live versions: the running one and those awaiting retirement (02 R65). -/
def Dev.live (d : Dev) : Nat := (if d.vers.running.isSome then 1 else 0) + d.vers.retiring.length

/-- The open version is frozen by a commit (02 R63). -/
def Dev.frozen (d : Dev) : Bool := d.vers.commit.isSome

/-- The content of a frozen version, against which 02 R55 checks per-entry writes. -/
def Dev.frozenObjs (d : Dev) : Option (List VObj) := if d.frozen then some d.vers.openObjs else none

/-! ### Objects -/

/-- State of a channel. -/
def Dev.chan (d : Dev) (g : Nat) : Chan := d.chans.getD g {}

/-- Changes a channel's state. -/
def Dev.setChan (d : Dev) (g : Nat) (f : Chan → Chan) : Dev := { d with chans := d.chans.put g (f (d.chan g)) }

/-- State of a tree. -/
def Dev.tree (d : Dev) (t : Nat) : Tree := d.trees.getD t {}

/-- Changes a tree's state. -/
def Dev.setTree (d : Dev) (t : Nat) (f : Tree → Tree) : Dev := { d with trees := d.trees.put t (f (d.tree t)) }

/-- A terminal record. -/
def Dev.term? (d : Dev) (t : Nat) : Option Term := d.terms.find? t

/-- Changes a terminal record where there is one. -/
def Dev.setTerm (d : Dev) (t : Nat) (f : Term → Term) : Dev := { d with terms := d.terms.adjust t f }

/-- A flow context. -/
def Dev.flow? (d : Dev) (f : Nat) : Option Flow := d.flows.find? f

/-- Changes a flow context where there is one. -/
def Dev.setFlow (d : Dev) (f : Nat) (g : Flow → Flow) : Dev := { d with flows := d.flows.adjust f g }

/-- A per-entry allocation. -/
def Dev.alloc? (d : Dev) (h : Nat) : Option Alloc := d.allocs.find? h

/-- Changes an allocation where there is one. -/
def Dev.setAlloc (d : Dev) (h : Nat) (f : Alloc → Alloc) : Dev := { d with allocs := d.allocs.adjust h f }

/-- State of a group by its lowest lane. -/
def Dev.port (d : Dev) (l : Nat) : Port := d.ports.getD l {}

/-- Changes a group's state. -/
def Dev.setPort (d : Dev) (l : Nat) (f : Port → Port) : Dev := { d with ports := d.ports.put l (f (d.port l)) }

/-- A key slot's content; an unlisted slot is empty. -/
def Dev.key (d : Dev) (s : Nat) : KeySlot := d.keys.getD s {}

/-- Changes a key slot. -/
def Dev.setKey (d : Dev) (s : Nat) (f : KeySlot → KeySlot) : Dev := { d with keys := d.keys.put s (f (d.key s)) }

/-- Domain of a terminal handle (02 R51). -/
def Dev.termOwner (d : Dev) (t : Nat) : Nat := d.termDom.getD t 0

/-- Domain of a flow handle. -/
def Dev.flowOwner (d : Dev) (f : Nat) : Nat := d.flowDom.getD f 0

/-- Counter values later by so many ns. The counter runs at 1 GHz nominal (12 R285). -/
def Dev.inNs (d : Dev) (ns : Nat) : Nat := d.time.c + ns

/-- A group of the running version by its lowest lane. -/
def Dev.group? (d : Dev) (l : Nat) : Option Group := Machine.group? d.objs l

/-- An Ethernet port, Brynlink or tender link of the running version, by KIND. -/
def Dev.isGroup (d : Dev) (l : Nat) (kinds : List Nat) : Bool :=
  match d.group? l with
  | some q => kinds.contains q.kind
  | none => false

/-- A drain of the object is running (02 R71). -/
def Dev.draining (d : Dev) (o : DrainObj) : Bool := d.drains.any fun x => x.obj == o

/-- MODE of a channel in the running version. -/
def Dev.mode (d : Dev) (g : Nat) : Nat := (chanCfg d.objs g).mode

/-- The channel is off, or disabled with its drain ended: its PTX lane is in electrical idle (03 R77, R78). -/
def Dev.chanIdle (d : Dev) (g : Nat) : Bool :=
  d.mode g == 0 || ((d.chan g).disabled && !d.draining (.channel g))

/-- The channel is on and not disabled. -/
def Dev.chanOn (d : Dev) (g : Nat) : Bool := d.mode g != 0 && !(d.chan g).disabled

/-- Protection is configured (14 R339). -/
def Dev.isProtected (d : Dev) : Bool := d.prot.mode != 0

/-- The claim arbitration lets this device drive its trees (14 R346, R348); an unprotected device always may. -/
def Dev.mayTransmit (d : Dev) : Bool := !d.isProtected || d.prot.transmitting

/-- TREE_TXDIS of a tree is asserted (03 R79), and stays so while the tree is trained (15 R374). -/
def Dev.treeDark (d : Dev) (t : Nat) : Bool :=
  d.sys.dark || !d.mayTransmit || (d.tree t).training || ((List.range 4).all fun c => d.chanIdle (4 * t + c))

/-- The group's lanes carry a signal (02 R68, 15 R383): lit, and not disabled with its drain ended. -/
def Dev.groupLit (d : Dev) (q : Group) : Bool :=
  !d.sys.dark && !((d.port q.lane).disabled.isSome && !d.draining (.port q.lane))

/-- The heritage lanes send AIS alone: while the outputs are dark (02 R68), and on an isolated device (14 Table 14-4). -/
def Dev.htxDark (d : Dev) : Bool := d.sys.dark || (d.isProtected && d.prot.isolated && !d.prot.transmitting)

/-! ### Pins -/

/-- Trees whose module is selected: a `MODULE_ACCESS` transaction runs for them (03 R80). -/
def Dev.selected (d : Dev) : List Nat :=
  (d.execs.filter fun e => e.op == 0x030A && e.aux == [1]).map fun e => field e.par 0 1

/-- The pins as the rules hold them: 18 Table 18-6 in reset, otherwise 02 R68, 03 R77 to R80, 12 R308 and R310, 13 R312; lanes
in training send (15 R373). -/
def Dev.pinsNow (d : Dev) : Pins :=
  if d.sys.inReset then
    { txDisDriven := false, txDis := [], ptxIdle := List.range 192, utxActive := [], htx := .idle, htxActive := [],
      teOut := [], ppsOut := false, treeSelDriven := false, treeSel := [], claim := .floating, spiCs := .high }
  else
    { txDisDriven := true
      txDis := (List.range 48).filter fun t => d.treeDark t
      ptxIdle := (List.range 192).filter fun g => d.chanIdle g
      utxActive := ((groups d.objs).filter fun q => d.groupLit q || (!d.sys.dark && (d.lanes.getD (1024 + q.lane) ({} : Lane)).training)).map Group.lane
      htx := if d.htxDark then .ais else .idle
      htxActive := if d.htxDark then [] else (List.range 32).filter fun l => (hlane d.objs l).mode != 0
      teOut := if d.sys.dark then [] else d.time.teHigh
      ppsOut := d.time.ppsHigh
      treeSelDriven := true
      treeSel := d.selected
      claim := .floating
      spiCs := .high }

/-- The device with its pins as the rules hold them. -/
def Dev.settle (d : Dev) : Dev := { d with pins := d.pinsNow }

/-! ### Steps -/

/-- One edge of the 1 GHz time-base clock: C advances by one (12 R285); in reset C stays at 0. -/
def Dev.tick (d : Dev) : Dev := if d.sys.inReset then d else { d with time := { d.time with c := d.time.c + 1 } }

/-- A command's effect on the device, in every state. -/
def act (f : Dev → Dev) (s : State) : Host.Outcome State Fault Refusal := .next { s with dev := (f s.dev).settle }

/-- An effect that the device has only out of reset (18 R425): in reset nothing happens. -/
def live (f : Dev → Dev) (s : State) : Host.Outcome State Fault Refusal :=
  act (fun d => if d.sys.inReset then d else f d) s

end Sys2Proof.Machine
end

