-- ==== Sys2Proof/Machine/Operands.lean ====
section
/-!
DEFINITION. Operand forms of a command entry: flags, effective parameters, reserved ranges (02 R41, R42, Table 2-3A).
-/
namespace Sys2Proof.Machine

/-- FLAGS bit 0 (02 R42). -/
def Packet.fence (p : Packet) : Bool := p.flags.getLsbD 0
/-- FLAGS bit 1. -/
def Packet.atBeacon (p : Packet) : Bool := p.flags.getLsbD 1
/-- FLAGS bit 2. -/
def Packet.dry (p : Packet) : Bool := p.flags.getLsbD 2
/-- FLAGS bit 3. -/
def Packet.indirect (p : Packet) : Bool := p.flags.getLsbD 3

/-- PLEN in bytes: with INDIRECT, 0 means 65,536 (02 Table 2-3A). -/
def Packet.length (p : Packet) : Nat := if Packet.indirect p ∧ p.plen = 0#16 then 65536 else p.plen.toNat

/-- The effective parameter bytes: inline from entry byte 16, or the INDIRECT buffer (02 R41, R42). -/
def Packet.bytes (p : Packet) : Bytes :=
  if Packet.indirect p then slice (p.buf.getD []) 0 (Packet.length p) else slice p.param 0 (min (Packet.length p) 48)

/-- Every byte is 0. -/
def allZero (b : Bytes) : Bool := b.all fun x => x == 0#8

/-- Every byte of the inclusive ranges is 0, byte `base` of the manual's numbering being the first of `p`. -/
def zeros (base : Nat) (p : Bytes) (ranges : List (Nat × Nat)) : Bool :=
  ranges.all fun r => allZero (slice p (r.1 - base) (r.2 + 1 - r.1))

/-- `lo` to `hi`, both included. -/
def within (v lo hi : Nat) : Bool := decide (lo ≤ v) && decide (v ≤ hi)

/-- `v` is a multiple of `m`. -/
def aligned (v m : Nat) : Bool := v % m == 0

/-- A drain limit: 0 (meaning 1,000) to 1,000,000 µs (02 R71). -/
def limitOk (v : Nat) : Bool := decide (v ≤ 1000000)

/-- A drain limit in ns. -/
def limitNs (v : Nat) : Nat := 1000 * orZero v 1000

/-- The form rules of step 5 of 02 R45 that hold for every command: reserved flags, BEACON, PLEN, reserved entry bytes,
the INDIRECT address (02 R41, R42, Table 2-3A). `buffer` marks a command whose parameters are counted from buffer byte 0,
and `inlineOk` says that these parameters may stand inline. -/
def entryForm (p : Packet) (buffer inlineOk : Bool) : Bool :=
  bits p.flags.toNat 7 4 == 0
  && (if Packet.atBeacon p then decide (p.beacon.toNat ≤ 511) else p.beacon == 0#32)
  && (if Packet.indirect p then
        aligned (field p.param 0 8) 8 && allZero (slice p.param 8 40) && (buffer || within (Packet.length p) 1 48)
      else
        decide (p.plen.toNat ≤ 48) && allZero (slice p.param p.plen.toNat (48 - p.plen.toNat)) && (!buffer || inlineOk))

end Sys2Proof.Machine
end

