-- ==== Sys2Proof/Machine/Bounds.lean ====
section
/-!
DEFINITION. What the device computes from configuration values alone: burst air lengths, the characteristic, the Assured
fit, the Lantern bounds (05 R133 to R135, R146, R151; 06 R159 to R169).
-/
namespace Sys2Proof.Machine

/-! ### Bursts -/

/-- FEC parity bytes of a codeword, 0 with FEC off (05 Table 5-7). -/
def qOf (c : ChanCfg) (p : Profile) : Nat := if p.fec then parityQ c else 0

/-- Overhead of a burst in bytes (05 Table 5-7). -/
def ovhOf (pc : PlanCfg) (p : Profile) : Nat := pc.guard / 8 + 8 * p.preRep + p.delimLen

/-- Parity bytes of a burst's content. -/
def parityOf (c : ChanCfg) (p : Profile) (content : Nat) : Nat := qOf c p * cdiv content (parityK c)

/-- Air length of a burst in bytes (05 Table 5-7). -/
def airOf (c : ChanCfg) (pc : PlanCfg) (p : Profile) (content : Nat) : Nat := ovhOf pc p + content + parityOf c p content

/-- A multiple of 4 at or below a value. -/
def floor4 (v : Nat) : Nat := roundDown v 4

/-! ### The characteristic (05 R133 to R135) -/

/-- The channel of a terminal record. -/
def Dev.termChan? (d : Dev) (t : Nat) : Option Nat := (d.term? t).map Term.chan

/-- Lantern allocations of a version on a channel, in handle order. -/
def Dev.chanLallocs (d : Dev) (objs : List VObj) (g : Nat) : List LAlloc :=
  (lallocs objs).filter fun a => d.termChan? a.term == some g

/-- A placed Lantern allocation: its offset and air length on the receive axis. -/
structure Placed where
  alloc  : LAlloc
  offset : Nat
  air    : Nat
deriving DecidableEq, Repr

/-- Two allocations meet in a characteristic frame (05 R133). -/
def LAlloc.meets (a b : LAlloc) : Bool :=
  let k := Nat.gcd a.k b.k
  k == 0 || a.phase % k == b.phase % k

/-- A burst at an offset keeps its gap from every placed burst that it meets (05 R134): `gap` bytes are 8 × WIN bits. -/
def fitsAt (gap : Nat) (placed : List Placed) (a : LAlloc) (off air : Nat) : Bool :=
  placed.all fun p => !p.alloc.meets a || decide (off + air + gap ≤ p.offset) || decide (p.offset + p.air + gap ≤ off)

/-- Candidate starts of an automatic burst: 0 and the first multiple of 4 after each placed burst and its gap. -/
def candidates (gap : Nat) (placed : List Placed) (a : LAlloc) : List Nat :=
  sortBy id (0 :: (placed.filter fun p => p.alloc.meets a).map fun p => roundUp (p.offset + p.air + gap) 4)

/-- The characteristic of a channel: the placed bursts, and the handles that overlap, break the gap or end beyond U. Set
offsets come first, then automatic ones by K and handle, each at the smallest offset that holds it (05 R134). -/
def Dev.characteristic (d : Dev) (objs : List VObj) (g : Nat) : List Placed × List Nat :=
  let c := chanCfg objs g
  let pc := planCfg objs g
  let p0 := profileOr0 objs g 0
  let u := rxFrameBytes c
  let all := d.chanLallocs objs g
  let air := fun (a : LAlloc) => airOf c pc p0 (8 + a.b)
  let fixed := all.filterMap fun a => a.offset.map fun o => (a, o)
  let st := fixed.foldl (fun (st : List Placed × List Nat) x =>
    let bad := !fitsAt c.win st.1 x.1 x.2 (air x.1) || decide (u < x.2 + air x.1)
    (st.1 ++ [⟨x.1, x.2, air x.1⟩], if bad then st.2 ++ [x.1.handle] else st.2)) ([], [])
  let auto := sortBy LAlloc.k (all.filter fun a => a.offset.isNone)
  auto.foldl (fun (st : List Placed × List Nat) a =>
    match (candidates c.win st.1 a).find? fun o => fitsAt c.win st.1 a o (air a) && decide (o + air a ≤ u) with
    | some o => (st.1 ++ [⟨a, o, air a⟩], st.2)
    | none => (st.1, st.2 ++ [a.handle])) st

/-- The characteristic of every channel of a version, as a commit keeps it: channel, handle, offset (05 R134). -/
def Dev.placesOf (d : Dev) (objs : List VObj) : List (Nat × Nat × Nat) :=
  (sortBy id (distinct ((lallocs objs).filterMap fun a => d.termChan? a.term))).flatMap fun g =>
    (d.characteristic objs g).1.map fun p => (g, p.alloc.handle, p.offset)

/-- The bursts of a channel in a kept characteristic. -/
def placedOf (objs : List VObj) (places : List (Nat × Nat × Nat)) (g : Nat) : List Placed :=
  let p0 := profileOr0 objs g 0
  (places.filter fun x => x.1 == g).filterMap fun x =>
    (lalloc? objs x.2.1).map fun a => ⟨a, x.2.2, airOf (chanCfg objs g) (planCfg objs g) p0 (8 + a.b)⟩

/-- Bursts of a characteristic frame in position order (05 R133). -/
def frameBursts (placed : List Placed) (frame : Nat) : List Placed :=
  sortBy Placed.offset (placed.filter fun p => p.alloc.k != 0 && frame % p.alloc.k == p.alloc.phase)

/-- Largest sum of Lantern air lengths, and largest number of Lantern grants, over the characteristic frames. -/
def Dev.lanternLoad (d : Dev) (objs : List VObj) (g : Nat) : Nat × Nat :=
  let placed := (d.characteristic objs g).1
  let frames := (List.range (planCfg objs g).charLen).map fun c => frameBursts placed c
  (maxBy frames fun f => sumBy f Placed.air, maxBy frames List.length)

/-! ### The Assured fit (05 R151) -/

/-- Per-entry allocations of a channel. -/
def Dev.chanAllocs (d : Dev) (g : Nat) : List (Nat × Alloc) := d.allocs.filter fun a => d.termChan? a.2.term == some g

/-- The Assured fit of a channel holds for a list of allocations: both sides times 64 × K × DPERIOD × 125,000. -/
def Dev.assuredFits (d : Dev) (objs : List VObj) (g : Nat) (allocs : List (Nat × Alloc)) : Bool :=
  let c := chanCfg objs g
  let p0 := profileOr0 objs g 0
  let q := qOf c p0
  let k := parityK c
  let u := rxFrameBytes c
  let dp := (discCfg objs g).dperiod * 125000
  let ass := allocs.filter fun a => a.2.cls == 1
  let terms := (distinct (ass.map fun a => a.2.term)).length
  let rates := sumBy ass fun a => a.2.arate * (k + q)
  let fixed := terms * (ovhOf (planCfg objs g) p0 + 12 + q) + (d.lanternLoad objs g).1
  decide (rates * dp + 64 * k * (fixed * dp + 2 * u * windowC objs g) ≤ 64 * k * dp * u)

/-! ### The Lantern bounds (06 R159 to R161) -/

/-- r_up in Mb/s (06 Table 6-2). -/
def rUpMb (c : ChanCfg) (fec : Bool) : Nat :=
  match c.upRate with
  | 1 => if fec then 10506 else 12441
  | 2 => if fec then 21012 else 24883
  | 3 => if fec then 42024 else 49766
  | _ => if fec then 8668 else 9953

/-- r_dn in Mb/s (06 Table 6-2). -/
def rDnMb (c : ChanCfg) : Nat := if c.mode = 2 then 42023 else 8667

/-- D_up, D_dn, H and C_cw (06 Tables 6-1 and 6-3). -/
def boundConsts (c : ChanCfg) : Nat × Nat × Nat × Nat := if c.mode = 2 then (6000, 2400, 4400, 347) else (5000, 3000, 2000, 199)

/-- The channel of a flow: that of the terminal its context names (06 R163). -/
def Dev.flowChan? (d : Dev) (f : Nat) : Option Nat := (d.flow? f).bind fun x => d.termChan? x.term

/-- Lantern flows of a version with a downstream path on a channel. -/
def Dev.dnLantern (d : Dev) (objs : List VObj) (g : Nat) : List LFlow :=
  (lflows objs).filter fun x => x.dnq != 0 && d.flowChan? x.flow == some g

/-- N of a flow (06 R165). -/
def Dev.lanternN (d : Dev) (objs : List VObj) (g : Nat) (x : LFlow) : Nat :=
  let sh := x.smax + 8
  cdiv ((x.dnq - 1) * sh + sumBy ((d.dnLantern objs g).filter fun y => y.flow != x.flow) fun y => y.dnq * (y.smax + 8)) sh

/-- What the device states of a Lantern flow (06 R159, R171). -/
structure LBound where
  up : Option Nat
  dn : Option Nat
  k  : Nat
  n  : Nat
  wc : Nat
deriving DecidableEq, Repr

/-- R_p of an Ethernet port of a version in Gb/s. -/
def portRate? (objs : List VObj) (lane : Nat) : Option Nat :=
  (group? objs lane).bind fun q => if q.kind = 1 ∧ 0 < q.rateGb then some q.rateGb else none

/-- The bounds of a Lantern flow, exact and then rounded up to a whole ns (06 R159). A flow without a channel that is on has
no rates and no bound. -/
def Dev.lanternBound (d : Dev) (objs : List VObj) (x : LFlow) : LBound :=
  let a := x.alloc.bind fun h => lalloc? objs h
  let k := match a with
    | some a => a.k
    | none => 0
  match d.flowChan? x.flow with
  | none => ⟨none, none, k, 0, 0⟩
  | some g =>
    let c := chanCfg objs g
    if c.mode = 0 then ⟨none, none, k, 0, 0⟩
    else
      let r := rUpMb c (profileOr0 objs g 0).fec
      let (dUp, dDn, _, ccw) := boundConsts c
      let wc := windowC objs g
      let up := match a, portRate? objs x.uport with
        | some a, some rp => some (a.k * 125000 + wc + dUp + cdiv (8 * a.b * 1000 * rp + (8 * x.smax + 1016) * r) (r * rp))
        | _, _ => none
      let n := if x.dnq = 0 then 0 else d.lanternN objs g x
      let dn := if x.dnq = 0 then none
        else some (dDn + 2 * ccw + cdiv ((8 * (x.smax + 8) * (1 + n) + 128) * 1000) (rDnMb c))
      ⟨up, dn, k, n, wc⟩

/-- Bytes of circuit positions in each PHY frame of a channel (06 R169, 13 R327). -/
def Dev.circuitBytes (d : Dev) (objs : List VObj) (g : Nat) : Nat :=
  sumBy ((circuits objs).filter fun c => d.termChan? c.term == some g) CircCfg.size

/-- G_max of a channel (06 R169). -/
def Dev.gMax (d : Dev) (objs : List VObj) (g : Nat) : Nat :=
  let c := chanCfg objs g
  if c.mode = 0 ∨ (d.dnLantern objs g).isEmpty then 512
  else min 512 (((boundConsts c).2.2.1 - 196 - d.circuitBytes objs g) / 8)

/-- Terms of the reach check (04 R113): a delay within RTD_min − 512 ns to RTD_max. -/
def inReach (objs : List VObj) (g rtd : Nat) : Bool :=
  let x := discCfg objs g
  decide (rtdMin10 x ≤ 10 * rtd + 5120) && decide (10 * rtd ≤ rtdMax10 x)

end Sys2Proof.Machine
end

