-- ==== Sys2Proof/Machine/Checks.lean ====
section
/-!
DEFINITION. The checks of a commit (02 R61, Table 2-9): every failure of a version's content against the running version
and the live per-entry objects, with the detail codes of the owning chapters.
-/
namespace Sys2Proof.Machine

/-- One failure (02 R62): class code, opcode group and handle of the object, detail code. -/
structure Failure where
  cls    : Nat
  group  : Nat
  handle : Nat
  detail : Nat
deriving DecidableEq, Repr

/-- A failure when the condition holds. -/
def failIf (c : Bool) (cls group handle detail : Nat) : List Failure := if c then [⟨cls, group, handle, detail⟩] else []

/-- Channels that a version turns on, ascending. -/
def chansOn (objs : List VObj) : List Nat :=
  sortBy id (distinct (((objsOf objs 0x0301).map fun o => ent o.params 16 2).filter fun g => (chanCfg objs g).mode != 0))

/-- Consecutive profiles have strictly decreasing preambles (03 R87). -/
def preamblesFall : List (Nat × Profile) → Bool
  | a :: b :: t => decide (b.2.preRep < a.2.preRep) && preamblesFall (b :: t)
  | _ => true

/-- 03 Table 3-7: 0x0301 to 0x0304. -/
def checks03 (d : Dev) (old new : List VObj) : List Failure :=
  let withProfiles := sortBy id (distinct ((objsOf new 0x0304).map fun o => ent o.params 16 2))
  (chansOn new).flatMap (fun g =>
    let m := (chanCfg new g).mode
    failIf (profile? new g 0).isNone 2 3 g 0x0301
    ++ failIf (!((d.tree (g / 4)).trained.getLsbD (m - 1))) 3 3 g 0x0304)
  ++ withProfiles.flatMap fun g =>
    failIf (!preamblesFall (profiles new g)) 2 3 g 0x0302
    ++ failIf ((List.range 4).any fun i => (profile? old g i).isSome && (profile? new g i).isSome && profile? old g i != profile? new g i)
        2 3 g 0x0303

/-- 04 Table 4-8: 0x0401 and 0x0402. -/
def checks04 (d : Dev) (old new : List VObj) : List Failure :=
  (chansOn new).flatMap (fun g => failIf (decide (8 * (chanCfg new g).win ≤ (discCfg new g).driftThr)) 2 4 g 0x0401)
  ++ (List.range 192).flatMap fun g =>
    failIf ((d.terms.any fun t => t.2.chan == g && within t.2.state 3 5) && (discCfg old g).dmax != (discCfg new g).dmax) 2 4 g 0x0402

/-- Alloc-IDs held on a channel: handle and Alloc-ID of Lantern and per-entry allocations. -/
def Dev.allocIds (d : Dev) (objs : List VObj) (g : Nat) : List (Nat × Nat) :=
  (d.chanLallocs objs g).map (fun a => (a.handle, a.allocId)) ++ (d.chanAllocs g).map fun a => (a.1, a.2.allocId)

/-- 05 Table 5-14. -/
def checks05 (d : Dev) (_old new : List VObj) : List Failure :=
  (lallocs new).flatMap (fun a =>
    match d.termChan? a.term with
    | none => [⟨2, 5, a.handle, 0x0501⟩]
    | some g => failIf ((planCfg new g).charLen % a.k != 0) 2 5 a.handle 0x0502)
  ++ (chansOn new).flatMap (fun g =>
    let c := d.characteristic new g
    let u := rxFrameBytes (chanCfg new g)
    c.2.map (fun h => ⟨3, 5, h, 0x0503⟩)
    ++ failIf (decide ((planCfg new g).lshare * u < 100 * (d.lanternLoad new g).1)) 4 5 g 0x0504
    ++ failIf (!d.assuredFits new g (d.chanAllocs g) && (d.chanAllocs g).any fun a => a.2.cls == 1) 3 5 g 0x0506)
  ++ (List.range 192).flatMap fun g =>
    let ids := d.allocIds new g
    ((ids.filter fun a => ids.any fun b => b.2 == a.2 && decide (b.1 < a.1)).map fun a => ⟨2, 5, a.1, 0x0505⟩)

/-- Preemption counts as active on a port only when the version sets PREEMPT with ADDFRAG 0 (15 R380). -/
def preemptOk (objs : List VObj) (lane : Nat) : Bool :=
  match Machine.group? objs lane with
  | none => false
  | some q => q.kind == 1 && q.preempt && q.addFrag == 0

/-- A gate list of a port that ever closes the Lantern class. -/
def gateCloses (objs : List VObj) (lane : Nat) : Bool :=
  match gateCfg? objs 1 lane with
  | none => false
  | some q => q.entries.any fun e => !bit e.1 0

/-- 256 bytes when PTP runs on the port (06 Table 6-6, 12 R299). -/
def Dev.ptpBytes (d : Dev) (lane : Nat) : Nat :=
  match d.time.ptp.find? lane with
  | some p => if p.profile = 0 then 0 else 256
  | none => 0

/-- B over the distinct Lantern allocations whose flows leave by a port. -/
def portLanternBytes (objs : List VObj) (lane : Nat) : Nat :=
  let hs := distinct (((lflows objs).filter fun x => x.uport == lane).filterMap LFlow.alloc)
  sumBy hs fun h => match lalloc? objs h with
    | some a => a.b
    | none => 0

/-- The detail code of a broken bound (06 R168). -/
def boundDetail (old new : List VObj) (g base : Nat) : Nat :=
  let a := chanCfg old g
  let b := chanCfg new g
  if a.mode ≠ b.mode ∨ a.upRate ≠ b.upRate then 0x0305
  else if discCfg old g ≠ discCfg new g then 0x0403
  else base

/-- A requested bound is broken. -/
def overBound (v : Option Nat) (req : Nat) : Bool :=
  match v with
  | some v => decide (req ≠ 0) && decide (req < v)
  | none => false

/-- The allocation of a Lantern flow is missing, no Lantern allocation, or another terminal's (06 Table 6-6). -/
def allocWrong (objs : List VObj) (x : LFlow) (term : Nat) : Bool :=
  match x.alloc with
  | none => false
  | some h => match lalloc? objs h with
    | some a => a.term != term
    | none => true

/-- Checks 0x0601 to 0x0603, 0x0605 and 0x0606 of a Lantern flow: each runs on what its row of Table 6-6 reads, whatever else fails. A flow
without a channel, or on one that the version turns off, has no bound to compare. -/
def checkBounds (d : Dev) (old new : List VObj) (x : LFlow) : List Failure :=
  let b := d.lanternBound new x
  let up := overBound b.up x.reqUp
  failIf (up || overBound b.dn x.reqDn) 4 5 x.flow
    (boundDetail old new ((d.flowChan? x.flow).getD 0) (if up then 0x0601 else 0x0602))
  ++ match x.alloc.bind fun h => lalloc? new h with
  | none => []
  | some a =>
    failIf (decide (a.b < x.smax + 8)) 4 5 x.flow 0x0603
    ++ failIf ((portRate? new x.uport).isNone || !preemptOk new x.uport || gateCloses new x.uport) 4 5 x.flow 0x0605
    ++ match portRate? new x.uport with
    | none => []
    | some rp => failIf (decide (1000 * rp < 8 * (portLanternBytes new x.uport + d.ptpBytes x.uport))) 4 5 x.flow 0x0606

/-- The flow, its terminal or its allocation is missing, or the allocation is another terminal's (check 0x0609). -/
def Dev.flowLost (d : Dev) (new : List VObj) (x : LFlow) : Bool :=
  match d.flow? x.flow with
  | none => true
  | some y => (d.termChan? y.term).isNone || allocWrong new x y.term

/-- The checks of one Lantern flow, with 0x0A01 of a sealed flow (11 R281). -/
def checkLanternFlow (d : Dev) (old new : List VObj) (x : LFlow) : List Failure :=
  failIf ((d.flow? x.flow).any Flow.sealedFlow) 2 0x0A x.flow 0x0A01
  ++ failIf (d.flowLost new x) 2 5 x.flow 0x0609 ++ checkBounds d old new x

/-- 06 Table 6-6. -/
def checks06 (d : Dev) (old new : List VObj) : List Failure :=
  let lf := lflows new
  let chans := sortBy id (distinct (lf.filterMap fun x => (d.flowChan? x.flow).filter fun g => (chanCfg new g).mode != 0))
  let used := distinct (lf.filterMap LFlow.alloc)
  lf.flatMap (checkLanternFlow d old new)
  ++ (lallocs new).flatMap (fun a =>
    match d.termChan? a.term with
    | none => []
    | some g =>
      let c := chanCfg new g
      let p0 := profileOr0 new g 0
      failIf (used.contains a.handle && c.mode != 0
        && decide (800 * upRate5 c < 800000 * (ovhOf (planCfg new g) p0 + 16 + qOf c p0 + c.win))) 4 5 a.handle 0x0604)
  ++ chans.flatMap fun g =>
    let tot := sumBy (d.dnLantern new g) fun x => x.dnq * (x.smax + 8)
    failIf (decide (100000 * rDnMb (chanCfg new g) < 8000 * tot)) 4 5 g 0x0607
    ++ failIf (decide (d.gMax new g < (d.lanternLoad new g).2 + 2)) 4 5 g 0x0608

/-- Lowest lanes that live objects name: flows, forwarding entries, replication lists, PTP and SyncE settings (15 Table
15-8). -/
def Dev.namedLanes (d : Dev) : List Nat :=
  (d.flows.filter fun f => f.2.udKind == 1 || f.2.udKind == 2).map (fun f => f.2.udest)
  ++ (d.fwd.slots.filter fun f => f.2.dkind == 1 || f.2.dkind == 2).map (fun f => f.2.dest)
  ++ d.sw.repl.flatMap (fun r => (r.2.filter fun e => e.1 == 1 || e.1 == 2).map Prod.snd)
  ++ d.time.ptp.map Prod.fst ++ d.time.synce.map Prod.fst

/-- A lane is the lowest lane of a port or Brynlink of a version. -/
def carriesFrames (objs : List VObj) (lane : Nat) : Bool :=
  match Machine.group? objs lane with
  | some q => q.kind == 1 || q.kind == 2
  | none => false

/-- 15 Table 15-8. -/
def checks15 (d : Dev) (old new : List VObj) : List Failure :=
  let gs := groups new
  let tenders := gs.filter fun q => q.kind == 3
  let named := sortBy id (distinct d.namedLanes)
  (tenders.flatMap fun q => failIf (d.prot.mode == 0 || q.lane != d.prot.tlane) 2 0x0E q.lane 0x0E01)
  ++ failIf (d.prot.mode != 0 && tenders.isEmpty) 2 0x0E d.prot.tlane 0x0E01
  ++ (gs.flatMap fun q => failIf (gs.any fun r => decide (r.lane < q.lane) && decide (q.lane < r.lane + r.width)) 3 0x0E q.lane 0x0E02)
  ++ named.flatMap fun l => failIf (carriesFrames old l && !carriesFrames new l) 2 0x0E l 0x0E03

/-! ### 07 Table 7-14, 16 R385 -/

/-- Field groups of an action word (07 Table 7-8). -/
def actFlow? (a : Nat) : Option Nat := if bit a 59 then some (bits a 58 43) else none
/-- See `actFlow?`. -/
def actMeter? (a : Nat) : Option Nat := if bit a 38 then some (bits a 37 22) else none
/-- See `actFlow?`. -/
def actCounter? (a : Nat) : Option Nat := if bit a 21 then some (bits a 20 0) else none

/-- An action names a flow or a meter that does not exist (detail 0x0706). -/
def Dev.actMissing (d : Dev) (a : Nat) : Bool :=
  (match actFlow? a with
    | some f => (d.flow? f).isNone
    | none => false)
  || match actMeter? a with
    | some m => (d.meters.find? m).isNone
    | none => false

/-- An action names a counter of the fixed region (detail 0x0F01). -/
def actFixed (a : Nat) : Bool :=
  match actCounter? a with
  | some c => decide (c < ctrFree)
  | none => false

/-- Tables of a version. -/
def clsTables (objs : List VObj) : List ClsTable := (List.range 16).filterMap fun t => clsTable? objs t

/-- A bank belongs to an associative table. -/
def ClsTable.hasBank (t : ClsTable) (b : Nat) : Bool := t.kind == 2 && decide (t.first ≤ b) && decide (b < t.first + t.nbanks)

/-- Map of the banks that a version's tables use (07 R188). -/
def bankMap (objs : List VObj) : Nat :=
  sumBy (List.range 32) fun b => if (clsTables objs).any fun t => t.hasBank b then 2 ^ b else 0

/-- Two tables share a bank. -/
def ClsTable.shares (a b : ClsTable) : Bool := (List.range 32).any fun i => a.hasBank i && b.hasBank i

/-- The layout of a table: every field but STEP. -/
def ClsTable.layout (t : ClsTable) : ClsTable := { t with step := false }

/-- An operator table of `new` that keeps its layout and entries from `old`. -/
def tableKept (old new : List VObj) (t : ClsTable) : Bool :=
  match clsTable? old t.table with
  | some u => u.layout == t.layout && operEntries old u == operEntries new t
  | none => false

/-- A changed operator table needs banks that another version's tables hold (07 R193). -/
def banksTaken (old new held : List VObj) : List ClsTable :=
  (clsTables new).filter fun t => t.kind == 2 && t.scope == 0 && !tableKept old new t && (clsTables held).any fun u => u.shares t

/-- Bytes of tree memory that a version needs: 64 per record, and the nodes, at most 32 per record (07 R188). -/
def treeBytes (objs : List VObj) : Nat :=
  sumBy ((clsTables objs).filter fun t => t.kind == 1) fun t =>
    let r := ruleRecords objs t.table
    64 * r.length + min (32 * r.length) (Config.treeNodeBytes (r.flatMap fun x => beBytes 4 x.1 ++ x.2))

/-- Every rule record of a version, with its table. -/
def allRecords (objs : List VObj) : List (Nat × Nat × Bytes) :=
  (List.range 16).flatMap fun t => (ruleRecords objs t).map fun r => (t, r.1, r.2)

/-- Programs of a version: number and lookups. -/
def programs (objs : List VObj) : List (Nat × List Nat) :=
  (List.range 64).filterMap fun n => (program? objs n).map fun l => (n, l)

/-- Actions of a version and of the live subscriber entries, with the object's handle (log entry 57). -/
def Dev.allActions (d : Dev) (objs : List VObj) : List (Nat × Nat) :=
  (allRecords objs).map (fun r => (r.2.1 % 16777216, field r.2.2 4 8))
  ++ (clsTables objs).flatMap (fun t => if t.kind = 2 ∧ t.scope = 0 then
      (operEntries objs t).map fun e => (t.table * 65536 + e.addr, e.action) else [])
  ++ d.cls.sub.map fun e => (e.1, e.2.action)

/-- 07 Table 7-14, with 0x0F01 of 16 R385. -/
def checks07 (d : Dev) (old new : List VObj) : List Failure :=
  let recs := allRecords new
  (recs.drop 262144).take 1 |>.map (fun r => ⟨3, 6, r.2.1 % 16777216, 0x0701⟩)
  |>.append ((clsTables new).flatMap fun t =>
    failIf ((clsTables new).any fun u => decide (u.table < t.table) && u.shares t) 3 6 t.table 0x0702)
  |>.append ((banksTaken old new old).map fun t => ⟨3, 6, t.table, 0x0702⟩)
  |>.append ((distinct (d.cls.sub.map fun e => e.1 / 65536)).flatMap fun t =>
    failIf (match clsTable? old t, clsTable? new t with
      | some a, some b => a.layout != b.layout
      | none, some b => b.scope != 1
      | _, none => true) 2 6 t 0x0703)
  |>.append ((programs new).flatMap fun p =>
    failIf (p.2.any fun t => (clsTable? new t).isNone) 2 6 p.1 0x0704
    ++ failIf (decide (2 < (p.2.filter fun t => match clsTable? new t with
        | some q => q.kind == 2
        | none => false).length)) 3 6 p.1 0x0705)
  |>.append ((objsOf new 0x0603).flatMap fun o =>
    let src := ent o.params 16 2
    let b := binding new src
    failIf ((program? new b.1).isNone || (program? new b.2).isNone) 2 6 src 0x0704)
  |>.append ((d.allActions new).flatMap fun a =>
    failIf (d.actMissing a.2) 2 6 a.1 0x0706 ++ failIf (actFixed a.2) 2 6 a.1 0x0F01)

/-! ### 09 Table 9-11, 10 Table 10-10 -/

/-- The Lantern need of 09 R226. -/
def lanternNeed (objs : List VObj) : Nat :=
  sumBy (lflows objs) (fun x => x.dnq * cdiv x.smax 2048) + sumBy (lallocs objs) fun a => 2 * cdiv a.b 72

/-- 09 Table 9-11. -/
def checks09 (d : Dev) (_old new : List VObj) : List Failure :=
  let named := d.flows.map (fun f => (f.1, f.2.qprof))
    ++ (objsOf new 0x0907).flatMap fun o => (tmPort new (ent o.params 16 1)).qprofs.map fun q => (ent o.params 16 1, q)
  failIf (decide ((carving new).2 < lanternNeed new)) 3 8 0 0x0801
  ++ named.flatMap fun x =>
    match qprof? new x.2 with
    | none => [⟨2, 9, x.1, 0x0802⟩]
    | some q => failIf (q.spill && decide (51539607552 < q.dropth)) 3 9 x.1 0x0803

/-- Committed limit of a channel in kb/s; none for a channel that is off without a PIR of its own (10 R251). -/
def committedLimit (objs : List VObj) (g : Nat) : Option Nat :=
  let pir := (tmChan objs g).pir
  if pir ≠ 0 then some pir else if (chanCfg objs g).mode = 0 then none else some (1000 * rDnMb (chanCfg objs g))

/-- The CIRs of a channel's enabled flows exceed its committed limit (10 R251). -/
def Dev.cirOver (d : Dev) (objs : List VObj) (g : Nat) : Bool :=
  match committedLimit objs g with
  | none => false
  | some lim =>
    decide (lim < sumBy (d.flows.filter fun f => !f.2.disabled && d.termChan? f.2.term == some g) fun f => (shaper objs f.2.fprof).cir)

/-- The target of a gate list is missing: a channel that is off, or no port or Brynlink (10 Table 10-10). -/
def gateLost (objs : List VObj) (kind target : Nat) : Bool :=
  if kind = 0 then (chanCfg objs target).mode == 0
  else
    match Machine.group? objs target with
    | some q => q.kind != 1 && q.kind != 2
    | none => true

/-- 10 Table 10-10. -/
def checks10 (d : Dev) (_old new : List VObj) : List Failure :=
  d.flows.flatMap (fun f => failIf (shaper? new f.2.fprof).isNone 2 9 f.1 0x0901)
  ++ d.terms.flatMap (fun t => failIf (shaper? new t.2.shaper).isNone 2 9 t.1 0x0901)
  ++ (objsOf new 0x0909).flatMap (fun o => failIf (gateLost new (field o.params 0 1) (field o.params 2 2)) 2 9 (field o.params 2 2) 0x0902)
  ++ (sortBy id (distinct (d.flows.filterMap fun f => d.termChan? f.2.term))).flatMap fun g =>
    failIf (d.cirOver new g) 3 9 g 0x0903

end Sys2Proof.Machine
end

