-- ==== Sys2Proof/Machine/Admission.lean ====
section
/-!
DEFINITION. The commit checks of the TDM gateway (13 Table 13-11) with the connection addresses that they read, and all checks of
a commit together (02 R61, R62, R55).
-/
namespace Sys2Proof.Machine

/-! ### Connection addresses (Table 13-6) -/

/-- KIND of an address. -/
def adKind (a : Nat) : Nat := bits a 31 28
/-- LANE. -/
def adLane (a : Nat) : Nat := bits a 27 23
/-- LEVEL. -/
def adLevel (a : Nat) : Nat := bits a 22 21
/-- AU. -/
def adAu (a : Nat) : Nat := bits a 20 16
/-- K. -/
def adK (a : Nat) : Nat := bits a 15 14
/-- L. -/
def adL (a : Nat) : Nat := bits a 13 11
/-- M. -/
def adM (a : Nat) : Nat := bits a 10 8
/-- CIRC. -/
def adCirc (a : Nat) : Nat := bits a 27 16
/-- The address without MON. -/
def noMon (a : Nat) : Nat := a / 2 * 2

/-- The address of a container on a heritage lane. -/
def laneAddr (lane level au k l m : Nat) : Nat :=
  1 * 2 ^ 28 + lane * 2 ^ 23 + level * 2 ^ 21 + au * 2 ^ 16 + k * 2 ^ 14 + l * 2 ^ 11 + m * 2 ^ 8

/-- The address of a circuit. -/
def circAddr (c : Nat) : Nat := 2 * 2 ^ 28 + c * 2 ^ 16

/-- N of a lane's line signal. -/
def lineN (mode : Nat) : Nat :=
  match mode with
  | 0 => 0
  | 1 => 1
  | 2 => 4
  | 3 => 16
  | 4 => 1
  | 5 => 4
  | _ => 16

/-- A lane carries the container that an address names (Tables 13-2 and 13-6). -/
def HLane.has (x : HLane) (a : Nat) : Bool :=
  let sonet := decide (4 ≤ x.mode)
  within (adAu a) 1 (lineN x.mode) &&
  match adLevel a with
  | 0 => !x.au3 && adK a == 0 && adL a == 0 && adM a == 0
  | 1 => (x.au3 || !sonet) && within (adK a) 1 3 && adL a == 0 && adM a == 0
  | 2 => (x.au3 || !sonet) && within (adK a) 1 3 && within (adL a) 1 7 && within (adM a) 1 3
  | _ => x.au3 && sonet && within (adK a) 1 3 && within (adL a) 1 7 && within (adM a) 1 4

/-! ### Pages -/

/-- Objects of one page. -/
def pageObjs (objs : List VObj) (page : Nat) : List (Nat × Nat) := connections objs page

/-- The armed swap, if any. -/
def Dev.armedSwap? (d : Dev) : Option Exec := d.execs.find? fun e => e.op == 0x0C03 && e.armed.isSome

/-! ### Commit checks (Table 13-11) -/

/-- J of a channel (R331). -/
def gatewayLag (objs : List VObj) (g : Nat) : Nat := 2 + cdiv (teqNs objs g + windowC objs g) frameNs

/-- A connection breaks the level rule, names a container that its lane lacks, or names a missing circuit. -/
def connWrong (objs : List VObj) (c : Nat × Nat) : Bool :=
  let circ := fun (a : Nat) => (circuits objs).find? fun x => x.circ == adCirc a
  let lacks := fun (a : Nat) =>
    if adKind a = 1 then !(hlane objs (adLane a)).has a else if adKind a = 2 then (circ a).isNone else false
  let level := fun (a : Nat) => if adKind a = 2 then ((circ a).map CircCfg.level).getD 0 else adLevel a
  lacks c.1 || lacks c.2 || (decide (adKind c.2 ≤ 2) && level c.1 != level c.2)

/-- A page breaks a rule of R322. -/
def pageWrong (objs : List VObj) (page : Nat) : Bool :=
  let l := pageObjs objs page
  (l.any fun c => connWrong objs c)
  || (l.any fun c => decide (1 < (l.filter fun x => noMon x.1 == noMon c.1).length))
  || l.any fun c => decide (adKind c.2 ≤ 2) && decide (4 < (l.filter fun x => x.2 == c.2).length)

/-- An upstream circuit's allocation breaks R330. -/
def circWrong (new : List VObj) (c : CircCfg) : Bool :=
  (match lalloc? new c.ualloc with
    | some a =>
      let same := (circuits new).filter fun x => x.upPort != 0xFFFF && x.ualloc == c.ualloc
      a.k != 1 || a.b != sumBy same CircCfg.size || a.term != c.term || (lflows new).any fun f => f.alloc == some c.ualloc
    | none => true)

/-- A circuit's port ID is held by a flow or by a circuit of a lower handle on its channel and direction. -/
def Dev.circClash (d : Dev) (new : List VObj) (c : CircCfg) (g : Nat) : Bool :=
  (d.flows.any fun f => d.termChan? f.2.term == some g
    && (f.2.dnPort == c.dnPort || (c.upPort != 0xFFFF && f.2.upPort == c.upPort)))
  || (circuits new).any fun x => decide (x.circ < c.circ) && d.termChan? x.term == some g
    && (x.dnPort == c.dnPort || (c.upPort != 0xFFFF && x.upPort == c.upPort))

/-- 13 Table 13-11. Pages are named by their number, circuits and channels by their handle and index. -/
def checks13 (d : Dev) (old new : List VObj) : List Failure :=
  let act := d.tdm.page
  failIf (d.vers.running.isSome && pageObjs old act != pageObjs new act) 2 0x0C act 0x0C01
  ++ failIf (d.armedSwap?.isSome && pageObjs old (1 - act) != pageObjs new (1 - act)) 2 0x0C (1 - act) 0x0C02
  ++ ([0, 1].flatMap fun page =>
    let l := pageObjs new page
    failIf (pageWrong new page) 2 0x0C page 0x0C03
    ++ failIf (decide (8192 < (l.filter fun c => bit c.1 0).length) || decide (32768 < l.length)) 3 0x0C page 0x0C04)
  ++ ((chansOn new).flatMap fun g =>
    failIf (decide ((if (chanCfg new g).mode = 2 then 2048 else 512) < d.circuitBytes new g)) 3 0x0C g 0x0C04)
  ++ ((circuits old).flatMap fun c =>
    match d.termChan? c.term with
    | some g => failIf (d.vers.running.isSome && c.upPort != 0xFFFF && gatewayLag old g != gatewayLag new g) 2 0x0C c.circ 0x0C05
    | none => [])
  ++ (circuits new).flatMap fun c =>
    match d.termChan? c.term with
    | none => [⟨2, 0x0C, c.circ, 0x0C06⟩]
    | some g => failIf (d.circClash new c g) 2 0x0C c.circ 0x0C06
      ++ failIf (c.upPort != 0xFFFF && circWrong new c) 2 0x0C c.circ 0x0C05

/-! ### All checks (02 R61, R62) -/

/-- Check order (02 R61), then group, handle and detail (log entry 23). -/
def Failure.rank (f : Failure) : Nat := ((f.cls * 256 + f.group) * 16777216 + f.handle) * 65536 + f.detail

/-- Every failure of reference integrity, resource fit and Lantern admission, in check order, each once (02 R62). -/
def Dev.failures (d : Dev) (old new : List VObj) : List Failure :=
  sortBy Failure.rank (distinct (checks03 d old new ++ checks04 d old new ++ checks05 d old new ++ checks06 d old new
    ++ checks07 d old new ++ checks09 d old new ++ checks10 d old new ++ checks13 d old new ++ checks15 d old new))

/-- A change of the device's per-entry state from `d` to `d'` makes the frozen version fail a check (02 R55), or makes a
check of 06 Table 6-6 fail for the running version (06 R170). -/
def Dev.breaks (d d' : Dev) : Bool :=
  let old := d.objs
  let grows := fun (a b : List Failure) => b.any fun f => !a.contains f
  grows (checks06 d old old) (checks06 d' old old)
  || match d.frozenObjs with
    | some new => grows (d.failures old new) (d'.failures old new)
    | none => false

end Sys2Proof.Machine
end

