-- ==== Sys2Proof/Machine/Command.lean ====
section
/-!
DEFINITION. The command engine: the checks of 02 R45 in their order, FENCE, DRY, AT_BEACON, arming, drains under 02 R71,
staging into the open version. Each command packet is one `CmdDef`.
-/
namespace Sys2Proof.Machine

/-- How a command changes state (02 R53, R54). -/
inductive CmdKind where
  | immediate
  | perEntry
  | versioned
deriving DecidableEq, Repr

/-- One command of the manual: what the checks of 02 R45 ask of it, and its effect. -/
structure CmdDef where
  op       : Nat
  kind     : Dev → Packet → Bytes → CmdKind := fun _ _ _ => .immediate
  /-- Step 4 for a tenant domain and its parameters; none for a command of domain 0 alone. -/
  tenant   : Option (Dev → Nat → Bytes → Bool) := none
  /-- Parameters are counted from buffer byte 0 (02 R42), and may they stand inline. -/
  buffer   : Bool := false
  inlineOk : Bytes → Bool := fun _ => false
  /-- Allowed to domain 0 in boot state (17 R401). -/
  boot     : Bool := false
  /-- A status or read command: no new work (02 R71), and a DRY one runs, since it changes nothing in the device. -/
  read     : Bool := false
  /-- New work under 02 R71 when it names an object that is draining; false for the disable and enable of an object. -/
  newWork  : Bool := true
  /-- Must act at a frame instant (12 R303). -/
  frameBound : Bool := false
  /-- Handles its own arming and DRY. -/
  ownFlow  : Bool := false
  /-- A write that 02 R55 and 06 R170 hold to the frozen and the running version. -/
  guarded  : Bool := false
  /-- Objects that the command names, for 02 R71. -/
  names    : Dev → Bytes → List DrainObj := fun _ _ => []
  /-- Reserved fields, ranges and alignments of step 5. -/
  form     : Bytes → Bool
  /-- Step 5 beyond the form, with result words. -/
  bad      : Dev → Exec → Option (List Nat) := fun _ _ => none
  /-- Step 6. -/
  forbid   : Dev → Exec → Option (Status × List Nat) := fun _ _ => none
  run      : Exec → Dev → Dev

/-- A beacon's state. -/
def Dev.beacon (d : Dev) (b : Nat) : Beacon := d.time.beacons.getD b {}

/-- Commands armed on a beacon, in the order in which they were armed. -/
def Dev.armedOn (d : Dev) (b : Nat) : List Exec := d.execs.filter fun e => e.armed == some b

/-- Steps 1 to 4 of 02 R45, with the boot state's `CONFLICT` before step 4 (17 R401). -/
def CmdDef.privilege (c : CmdDef) (d : Dev) (e : Exec) : Option Status :=
  let p := e.pkt
  if p.domain.toNat ≠ e.dom then some .denied
  else if d.sys.boot ≠ 3 ∧ !(if e.dom = 0 then c.boot else c.op == 0x0101 || c.op == 0x0102) then some .conflict
  else if e.dom ≠ 0 then
    match c.tenant with
    | none => some .denied
    | some f =>
      if p.tver ≠ 0#32 ∨ Packet.atBeacon p then some .denied
      else if Packet.indirect p ∧ p.buf.isNone then none
      else if f d e.dom e.par then none else some .denied
  else none

/-- Step 5 of 02 R45. -/
def CmdDef.invalid (c : CmdDef) (d : Dev) (e : Exec) : Option (List Nat) :=
  let p := e.pkt
  let b := d.beacon p.beacon.toNat
  if !entryForm p c.buffer (c.inlineOk e.par) then some []
  else if Packet.indirect p ∧ p.buf.isNone then some [1]
  else if (c.kind d p e.par = .versioned) ≠ (p.tver ≠ 0#32) then some []
  else if !c.form e.par then some []
  else
    match c.bad d e with
    | some r => some r
    | none =>
      if Packet.atBeacon p ∧ (b.state = .unset ∨ (c.frameBound ∧ (b.instant % frameNs ≠ 0 ∨ b.period ≠ 0))) then some []
      else none

/-- The drains that make the command new work (02 R71). -/
def CmdDef.drainsOf (c : CmdDef) (d : Dev) (e : Exec) : List DrainObj :=
  if (Packet.atBeacon e.pkt ∧ (c.newWork ∨ c.read)) ∨ (c.newWork ∧ !c.read ∧ c.kind d e.pkt e.par ≠ .versioned) then
    (c.names d e.par).filter fun o => d.draining o
  else []

/-- A versioned command names another version than the open one, or the open one is frozen (02 R54, R63). -/
def CmdDef.versionForbids (c : CmdDef) (d : Dev) (e : Exec) : Bool :=
  decide (c.kind d e.pkt e.par = .versioned) && (e.pkt.tver.toNat != d.vers.openNum || d.frozen)

/-- The command's own rules of step 6, then 02 R55 and 06 R170. -/
def CmdDef.stateForbids (c : CmdDef) (d : Dev) (e : Exec) : Option (Status × List Nat) :=
  match c.forbid d e with
  | some r => some r
  | none => if c.guarded ∧ d.breaks (c.run e d) then some (.conflict, []) else none

/-- Step 6 of 02 R45: drains, the open version (02 R54, R63), the command's own rules, the beacon (02 R46, 12 R303). -/
def CmdDef.forbidden (c : CmdDef) (d : Dev) (e : Exec) : Option (Status × List Nat) :=
  let p := e.pkt
  let b := d.beacon p.beacon.toNat
  if !(c.drainsOf d e).isEmpty then some (.abandoned, [])
  else if c.versionForbids d e then some (.conflict, [])
  else
    match c.stateForbids d e with
    | some r => some r
    | none =>
      if Packet.atBeacon p then
        if b.state = .fired ∨ b.state = .missed ∨ tdiff b.instant d.now ≤ 0 then some (.late, [])
        else if (d.armedOn p.beacon.toNat).length ≥ 16 then some (.noRoom, [])
        else none
      else none

/-- The checks of 02 R45 in their order: the status and result words of the first that fails. -/
def CmdDef.refuse (c : CmdDef) (d : Dev) (e : Exec) : Option (Status × List Nat) :=
  match c.privilege d e with
  | some st => some (st, [])
  | none =>
    match c.invalid d e with
    | some r => some (.badParam, r)
    | none => c.forbidden d e

/-- Counts a command that a drain ends with `ABANDONED` (02 R71). -/
def Dev.noteAbandoned (d : Dev) (objs : List DrainObj) : Dev :=
  { d with drains := d.drains.map fun x => if objs.contains x.obj then { x with abandoned := x.abandoned + 1 } else x }

/-- The beacon's state after a change of what is armed on it (12 R303). -/
def Dev.rearm (d : Dev) (b : Nat) : Dev :=
  let x := d.beacon b
  if x.state = .set ∨ x.state = .armed then
    let s := if x.pinAct ≠ 0 ∨ !(d.armedOn b).isEmpty ∨ (d.prot.restoreArmed ∧ d.prot.rbeacon = b) then BeaconState.armed else BeaconState.set
    { d with time := { d.time with beacons := d.time.beacons.put b { x with state := s } } }
  else d

/-- The command waits for its beacon; the first reply is `ARMED` (02 R38, R46). -/
def Dev.arm (d : Dev) (e : Exec) : Dev :=
  let b := e.pkt.beacon.toNat
  let d := d.reply e.dom e.pkt.tag e.op .armed d.now []
  (d.park { e with armed := some b, replied := true }).rearm b

/-- Runs a command whose fence is satisfied: checks, DRY, AT_BEACON, effect. -/
def runCmd (c : CmdDef) (e : Exec) (d : Dev) : Dev :=
  match c.refuse d e with
  | some (st, res) =>
    (if st = .abandoned ∧ !Packet.dry e.pkt then d.noteAbandoned (c.drainsOf d e) else d).finish e st res
  | none =>
    if c.ownFlow then c.run e d
    else if Packet.dry e.pkt ∧ !c.read then d.ok e
    else if Packet.dry e.pkt ∧ Packet.atBeacon e.pkt then d.ok e
    else if Packet.atBeacon e.pkt then d.arm e
    else c.run e d

/-- An earlier command of the ring has not written its first reply (02 R42). -/
def Dev.fenceBlocked (d : Dev) (e : Exec) : Bool :=
  d.execs.any fun x => x.dom == e.dom && decide (x.seq < e.seq) && !x.replied

/-- A fetched command starts, or waits for its fence (02 R37, R42). -/
def startCmd (c : CmdDef) (p : Packet) (d : Dev) : Dev :=
  let par := Packet.bytes p
  let e : Exec := { dom := p.ring, seq := (d.dom p.ring).nextSeq, op := c.op, pkt := p, par, names := c.names d par }
  let d := d.setDom p.ring fun m => { m with nextSeq := m.nextSeq + 1 }
  if Packet.fence p ∧ d.fenceBlocked e then d.park { e with started := false } else runCmd c e d

/-- The meaning of a command packet's row: the fetched command starts. In reset (18 R425) and after a fatal fault (16
Table 16-6) no command is fetched; a ring belongs to one of 16 functions (02 R30). -/
def command (c : CmdDef) (p : Packet) (s : State) : Host.Outcome State Fault Refusal :=
  live (fun d => if d.sys.fatal ∨ 15 < p.ring then d else startCmd c p d) s

/-- An armed command takes effect when its beacon fires (02 R46): its state rules are checked again, the open version of a versioned
command among them (02 R54, R63), and its final reply carries the beacon's instant. -/
def fireCmd (c : CmdDef) (e : Exec) (instant : Nat) (d : Dev) : Dev :=
  let e := { e with armed := none, stamp := some instant }
  let d := d.park e
  if c.versionForbids d e then d.finish e .conflict []
  else
    match c.stateForbids d e with
    | some (st, res) => d.finish e st res
    | none => c.run e d

/-! ### Cancelling -/

/-- What a command in execution holds outside its own record is given up when it is ended early (`ABANDONED`, `LOST`). A disable
command that a takeover or another object's drain ends loses its drain without the drain's closing effects, and its object stays
disabled (DEDUCED, log entry 157). -/
def Dev.dropWork (d : Dev) (e : Exec) : Dev :=
  let mine := fun (a b : Nat) => a == e.dom && b == e.seq
  let vers := { d.vers with
    commit := d.vers.commit.filter (fun c => !mine c.dom c.seq),
    switched := d.vers.switched.filter (fun c => !mine c.dom c.seq) }
  let time := { d.time with
    waiting := d.time.waiting.filter (fun w => !mine w.1 w.2.1),
    rebases := d.time.rebases.filter (fun r => r.remote || !mine r.dom r.seq) }
  let fwd := { d.fwd with flush := d.fwd.flush.filter (fun f => !mine f.dom f.seq) }
  let terms := d.terms.mapAll (fun _ (t : Term) => { t with omci := t.omci.filter (fun m => !mine m.1 m.2.1) })
  let drains := d.drains.filter (fun x => !mine x.dom x.seq)
  let d := { d with vers, time, fwd, terms, drains }
  match e.op with
  | 0x0A03 =>
    let s := field e.par 0 4
    if e.armed.isSome ∨ !e.started then d
    else if s < 49152 then { d with terms := d.terms.adjust (s / 2) fun (t : Term) => { t with keySwitch := none } }
    else { d with bsets := d.bsets.adjust ((s - 49152) / 2) fun (b : Nat × Option (Nat × Nat)) => (b.1, none) }
  | 0x0504 => { d with allocs := d.allocs.adjust (field e.par 0 2) fun (a : Alloc) => { a with deleting := false } }
  | 0x0E05 => { d with lanes := d.lanes.adjust (1024 + field e.par 0 1) fun (l : Lane) => { l with training := false } }
  | 0x0E06 => { d with trees := d.trees.adjust (field e.par 0 1) fun (t : Tree) => { t with training := false } }
  | 0x0E09 => { d with lanes := d.lanes.adjust (1024 * field e.par 0 1 + field e.par 1 1) fun (l : Lane) => { l with scanning := false } }
  | _ => d

/-- A command in execution ends early. -/
def Dev.endEarly (d : Dev) (e : Exec) (st : Status) : Dev :=
  let d := (d.dropWork e).finish e st []
  match e.armed with
  | some b => d.rearm b
  | none => d

/-- Every command in execution that meets a test ends early, in fetch order. -/
def Dev.endAll (d : Dev) (p : Exec → Bool) (st : Status) : Dev :=
  (d.execs.filter p).foldl (fun d e => d.endEarly e st) d

/-! ### Drains (02 R71) -/

/-- The command in execution names the object; a domain's own commands belong to the domain too (02 R52). -/
def Exec.isFor (e : Exec) (o : DrainObj) : Bool := e.names.contains o || o == .domain e.dom

/-- Ends with `ABANDONED` every command in execution for the object that meets a test, but not the disable itself. -/
def Dev.abandonFor (d : Dev) (o : DrainObj) (self : Exec) (p : Exec → Bool) : Dev :=
  let hit := fun x => p x && x.isFor o && !(x.dom == self.dom && x.seq == self.seq)
  let n := (d.execs.filter hit).length
  let d := d.endAll hit .abandoned
  { d with drains := d.drains.map fun x => if x.obj = o then { x with abandoned := x.abandoned + n } else x }

/-- A disable command starts its drain: armed commands that name the object are disarmed, and the command stays in
execution until `drainEnd` (02 R71, Table 2-11). -/
def Dev.startDrain (d : Dev) (e : Exec) (o : DrainObj) (limit : Nat) : Dev :=
  let d := { d with drains := d.drains ++ [(⟨o, e.dom, e.seq, d.inNs (limitNs limit), 0, 0, 0⟩ : Drain)] }
  (d.park e).abandonFor o e fun x => x.armed.isSome

/-- The drain's result words (02 R71). -/
def Drain.results (x : Drain) (now : Nat) : List Nat := [sat 32 x.sent, sat 32 x.discarded, sat 32 x.abandoned, now % 2 ^ 32]

/-- Notes frames sent or discarded for a draining object. -/
def Dev.drainCount (d : Dev) (o : DrainObj) (sent discarded : Nat) : Dev :=
  { d with drains := d.drains.map fun x =>
      if x.obj = o then { x with sent := x.sent + sent, discarded := x.discarded + discarded } else x }

/-! ### Staging (02 R57, R60) -/

/-- Replaces or adds an object in a version's content. -/
def putObj (objs : List VObj) (o : VObj) : List VObj :=
  if objs.any fun x => x.op == o.op && x.key == o.key then
    objs.map fun x => if x.op == o.op && x.key == o.key then o else x
  else objs ++ [o]

/-- Removes an object from a version's content. -/
def delObj (objs : List VObj) (op : Nat) (key : Bytes) : List VObj := objs.filter fun x => !(x.op == op && x.key == key)

/-- `STAGED`, with the open version's content changed (02 R54). -/
def Dev.stage (d : Dev) (e : Exec) (f : List VObj → List VObj) : Dev :=
  { d with vers := { d.vers with openObjs := f d.vers.openObjs } }.finish e .staged []

/-- A versioned command that stages one object (02 Table 2-9A), or removes it (02 R433). `keyAt` gives the key's place in
the parameters; `form` is asked only of a write, `removeForm` of a removal. -/
def versionedCmd (op : Nat) (buffer : Bool) (key : Bytes → Bytes) (removes : Bytes → Bool)
    (removeForm form : Bytes → Bool) (canon : Bytes → Bytes := id) : CmdDef where
  op := op
  kind := fun _ _ _ => .versioned
  buffer := buffer
  form := fun p => if removes p then removeForm p else form p
  run := fun e d => d.stage e fun objs =>
    if removes e.par then delObj objs op (key e.par) else putObj objs ⟨op, key e.par, canon e.par⟩

/-- Never: a versioned command without a removing form. -/
def noRemoval : Bytes → Bool := fun _ => false

end Sys2Proof.Machine
end

