-- ==== Sys2Proof/Machine/Buffers.lean ====
section
/-!
DEFINITION. Segment pools (09 R222 to R231): placement, owners and frees, the free-fault log.
-/
namespace Sys2Proof.Machine

/-- Segment size of a pool in bytes (09 Table 9-2). -/
def segSize (pool : Nat) : Nat := 128 * 2 ^ pool

/-- Sizes in bytes of the pools in force. -/
def Switch.poolBytes (w : Switch) (pool : Nat) : Nat := w.sizes.getD pool 0 * 1048576

/-- Segments of a pool by its size. -/
def Switch.poolSegs (w : Switch) (pool : Nat) : Nat := w.poolBytes pool / segSize pool

/-- First byte of a pool in packet memory: the pools lie in address order (09 R222). -/
def Switch.poolBase (w : Switch) (pool : Nat) : Nat := sumBy (List.range pool) w.poolBytes

/-- Segment index: pool in bits 23:21, segment within the pool in bits 20:0 (09 R227). -/
def segIndex (pool n : Nat) : Nat := pool * 2097152 + n

/-- The segments of a pool that a used segment covers. -/
def Switch.covered (w : Switch) (pool : Nat) (e : Nat × Seg) : List Nat :=
  let base := w.poolBase pool
  let top := base + w.poolBytes pool
  let lo := max e.1 base
  let hi := min (e.1 + e.2.size) top
  if lo < hi then
    let a := (lo - base) / segSize pool
    (List.range ((hi - 1 - base) / segSize pool + 1 - a)).map fun i => a + i
  else []

/-- Pool under which a segment was allocated. -/
def Seg.pool (s : Seg) : Nat := s.index / 2097152

/-- Segments of a pool that are not free; `old` counts only those that a segment of another pool still holds (09 R223). -/
def Switch.usedSegs (w : Switch) (pool : Nat) (old : Bool) : Nat :=
  (distinct ((w.segs.filter fun e => !old || e.2.pool != pool).flatMap fun e => w.covered pool e)).length

/-- Free segments of a pool. -/
def Switch.freeSegs (w : Switch) (pool : Nat) : Nat := w.poolSegs pool - w.usedSegs pool false

/-- The lowest free segment of a pool from `n` on. A used range blocks at most one candidate, so the number of used
segments bounds the search. The manual does not order the free list: log entry 21. -/
def Switch.lowestFree (w : Switch) (pool : Nat) : (fuel : Nat) → (n : Nat) → Nat
  | 0, n => n
  | fuel + 1, n =>
    match w.segs.find? fun e => (w.covered pool e).contains n with
    | some e => w.lowestFree pool fuel ((e.1 + e.2.size - w.poolBase pool + segSize pool - 1) / segSize pool)
    | none => n

/-- Notes the lowest free count of a pool since the last carving switch (09 R231). -/
def Switch.noteLow (w : Switch) (pool : Nat) : Switch :=
  let n := w.freeSegs pool
  { w with low := w.low.put pool (min n ((w.low.find? pool).getD (w.poolSegs pool))) }

/-- Smallest pool whose segments hold `n` bytes (09 R224). -/
def fitPool (n : Nat) : Nat := if n ≤ 128 then 0 else if n ≤ 256 then 1 else if n ≤ 512 then 2 else if n ≤ 1024 then 3 else 4

/-- The pieces of a frame: 2,048 bytes each, then the rest (09 R224). -/
def pieces (len : Nat) : List Nat :=
  List.replicate (len / 2048) 2048 ++ (if len % 2048 = 0 then [] else [len % 2048])

/-- A segment may be taken: a Lantern frame takes any free segment of pool 4; another class never one of the last LRES
free segments of pool 4 (09 R224). -/
def Switch.mayTake (w : Switch) (pool : Nat) (lantern : Bool) : Bool :=
  decide (0 < w.freeSegs pool) && (lantern || pool != 4 || decide (w.lres < w.freeSegs 4))

/-- Lantern segments taken from the reserve. -/
def Switch.lresUsed (w : Switch) : Nat := (w.segs.filter fun e => e.2.lres).length

/-- Takes one segment for a piece and answers its first byte, or answers the pool that is empty. -/
def Switch.take (w : Switch) (len : Nat) (lantern : Bool) (slot itime : Nat) (owners : List Byte) (first last : Bool) :
    Except Nat (Switch × Nat) :=
  let pool := if lantern then 4 else fitPool len
  if w.mayTake pool lantern then
    let n := w.lowestFree pool w.segs.length 0
    let at_ := w.poolBase pool + n * segSize pool
    let s : Seg := { index := segIndex pool n, size := segSize pool, len, first, last
                     lres := lantern && decide (w.lresUsed < w.lres), slot, itime, owners }
    .ok ({ w with segs := w.segs ++ [(at_, s)], freed := w.freed.del s.index }.noteLow pool, at_)
  else .error pool

/-- A rejected free: counted, recorded and alarmed (09 R229, R230). -/
def Dev.rejectFree (d : Dev) (owner : Byte) (index kind : Nat) : Dev :=
  let log := d.sw.freeLog ++ [⟨index, owner, kind, d.now⟩]
  ({ d with sw := { d.sw with freeLog := log.drop (log.length - 64), freeFaults := d.sw.freeFaults + 1 } }.count (ctrDev 1)).alarm alFree

/-- A free of the segment at a place by an owner (09 R228, R229): the last named owner's free returns the segment; a free by an owner
that is not named is rejected, as a second free where that owner has freed the segment before. -/
def Dev.freeSeg (d : Dev) (owner : Byte) (at_ : Nat) : Dev :=
  match d.sw.segs.find? fun e => e.1 == at_ with
  | none => d
  | some (_, s) =>
    if s.owners.contains owner then
      let s := { s with owners := s.owners.erase owner, past := s.past ++ [owner] }
      if s.owners.isEmpty then
        { d with sw := { d.sw with segs := d.sw.segs.filter fun e => e.1 != at_, freed := d.sw.freed.put s.index s.past } }
      else { d with sw := { d.sw with segs := d.sw.segs.map fun e => if e.1 = at_ then (at_, s) else e } }
    else d.rejectFree owner s.index (if s.past.contains owner then 1 else 2)

/-- A free of the segment that an index names: one in use, the latest allocated where a change of carving has left two (DESIGN CHOICE,
log entry 163); otherwise a free segment, which names no owner. -/
def Dev.freeIndex (d : Dev) (owner : Byte) (index : Nat) : Dev :=
  match (d.sw.segs.filter fun e => e.2.index == index).getLast? with
  | some e => d.freeSeg owner e.1
  | none => d.rejectFree owner index (if (d.sw.freed.getD index []).contains owner then 1 else 2)

/-- Names owners on segments (09 R228). -/
def Dev.nameOwners (d : Dev) (segs : List Nat) (os : List Byte) : Dev :=
  { d with sw := { d.sw with segs := d.sw.segs.map fun e => if segs.contains e.1 then (e.1, { e.2 with owners := e.2.owners ++ os }) else e } }

/-- Frees every segment of a frame's copy. -/
def Dev.freeFrame (d : Dev) (f : Frame) : Dev :=
  f.segs.foldl (fun d i => d.freeSeg (BitVec.ofNat 8 f.owner) i) d

/-- Frees the segments of many frames. -/
def Dev.freeFrames (d : Dev) (fs : List Frame) : Dev := fs.foldl Dev.freeFrame d

/-- A frame's copy has been copied to the deep buffer: its writer 0x02 is named on the segments while it copies them (09 R235). -/
def Dev.spillFree (d : Dev) (f : Frame) : Dev := ((d.nameOwners f.segs [0x02#8]).freeFrame f).freeFrame { f with owner := 2 }

/-- Links the pieces of a frame: NEXT of each segment names the next one (09 Table 9-4). -/
def linkSegs (segs : List (Nat × Seg)) : List Nat → List (Nat × Seg)
  | a :: b :: t =>
    let next := ((segs.find? fun e => e.1 == b).map fun e => e.2.index).getD 0xFFFFFFFF
    linkSegs (segs.map fun e => if e.1 = a then (a, { e.2 with next }) else e) (b :: t)
  | _ => segs

/-- Places a frame's pieces for the owners named, or answers the empty pool with every segment freed again (09 R224,
R225). -/
def Dev.place (d : Dev) (len : Nat) (lantern : Bool) (slot itime : Nat) (owners : List Byte) : Except (Nat × Dev) (Dev × List Nat) :=
  let ps := pieces len
  let r := (List.range ps.length).foldl (fun (st : Except Nat (Switch × List Nat)) i =>
    match st with
    | .error p => .error p
    | .ok (w, l) =>
      match w.take (ps.getD i 0) lantern slot itime owners (i == 0) (i + 1 == ps.length) with
      | .ok (w, n) => .ok (w, l ++ [n])
      | .error p => .error p) (.ok (d.sw, []))
  match r with
  | .ok (w, l) => .ok ({ d with sw := { w with segs := linkSegs w.segs l } }, l)
  | .error p => .error (p, d.count (ctrPool p 0))

/-- Total bytes of frames. -/
def bytesOf (fs : List Frame) : Nat := sumBy fs fun f => f.data.length

/-- On-die bytes of a queue. -/
def Queue.onDie (q : Queue) : Nat := bytesOf q.frames

/-- Bytes of a queue in on-die memory and in the deep buffer together (09 R233). -/
def Queue.depth (q : Queue) : Nat := q.onDie + bytesOf q.deep + bytesOf (q.returns.map Prod.fst)

/-- Frames that a queue holds anywhere. -/
def Queue.all (q : Queue) : List Frame := q.frames ++ q.returns.map Prod.fst ++ q.deep

/-- An emptied queue: its counters and samples stay. -/
def Queue.empty (q : Queue) : Queue := { q with frames := [], deep := [], returns := [], spill := false, pages := 0 }

/-! ### POOL_STATUS, SEGMENT_LOG_READ, SEGMENT_FREE -/

/-- `POOL_STATUS` (09 R231). -/
def cmdPoolStatus : CmdDef where
  op := 0x0802
  read := true
  form := fun p => decide (ent p 16 1 ≤ 4) && zeros 16 p [(17, 63)]
  run := fun e d =>
    let k := ent e.par 16 1
    d.finish e .done [d.sw.poolSegs k, d.sw.freeSegs k, (d.sw.low.find? k).getD (d.sw.poolSegs k), d.sw.usedSegs k true]

/-- The command `POOL_STATUS`. -/
def execPoolStatus (p : Packet) (s : State) : Host.Outcome State Fault Refusal := command cmdPoolStatus p s

/-- A record of the free-fault log (09 R230). -/
def FreeFault.bytes (r : FreeFault) : Bytes :=
  beBytes 4 r.segment ++ [r.owner] ++ beBytes 1 r.kind ++ [0#8, 0#8] ++ beBytes 8 r.time

/-- `SEGMENT_LOG_READ` (09 R230). -/
def cmdSegmentLogRead : CmdDef where
  op := 0x0809
  read := true
  form := fun p => aligned (ent p 16 8) 8 && zeros 16 p [(24, 63)]
  run := fun e d =>
    let d := d.hostWrite (ent e.par 16 8) (d.sw.freeLog.flatMap FreeFault.bytes ++ List.replicate 16 0#8)
    d.finish e .done [d.sw.freeLog.length, sat 32 d.sw.freeFaults]

/-- The command `SEGMENT_LOG_READ`. -/
def execSegmentLogRead (p : Packet) (s : State) : Host.Outcome State Fault Refusal := command cmdSegmentLogRead p s

/-- The event SEGMENT_FREE: an owner frees a segment (09 R229). -/
def execSegmentFree (segment : Nat) (owner : Byte) (s : State) : Host.Outcome State Fault Refusal :=
  live (fun d => d.freeIndex owner segment) s

end Sys2Proof.Machine
end

