-- ==== Sys2Proof/Machine/Lanes.lean ====
section
/-!
DEFINITION. Lanes, groups, training, patterns and eye scans: the commands of group 0x0E (15).
-/
namespace Sys2Proof.Machine

/-! ### Lanes -/

/-- Lanes of a kind of Table 15-6: uplink, PON transmit, PON receive, heritage. -/
def laneCount : Nat → Nat
  | 1 => 96
  | 2 => 192
  | 3 => 192
  | 4 => 32
  | _ => 0

/-- State of a lane. -/
def Dev.lane (d : Dev) (kind l : Nat) : Lane := d.lanes.getD (kind * 1024 + l) {}

/-- Changes a lane's state. -/
def Dev.setLane (d : Dev) (kind l : Nat) (f : Lane → Lane) : Dev :=
  { d with lanes := d.lanes.put (kind * 1024 + l) (f (d.lane kind l)) }

/-- The group of the running version that holds an uplink lane. -/
def Dev.groupOfLane? (d : Dev) (l : Nat) : Option Group :=
  (groups d.objs).find? fun q => decide (q.lane ≤ l) && decide (l < q.lane + q.width)

/-- The group is disabled, its drain ended (15 R383). -/
def Dev.portOff (d : Dev) (l : Nat) : Bool := (d.port l).disabled.isSome && !d.draining (.port l)

/-- The lane is free for a test: dormant, in a disabled group, or of a channel or heritage lane that is off or disabled
(15 R375). -/
def Dev.laneFree (d : Dev) (kind l : Nat) : Bool :=
  match kind with
  | 1 => match d.groupOfLane? l with
    | some q => d.portOff q.lane
    | none => true
  | 4 => (hlane d.objs l).mode == 0
  | _ => d.chanIdle l

/-- The lane is dormant (15 R382): no use in the running version. -/
def Dev.laneDormant (d : Dev) (kind l : Nat) : Bool :=
  match kind with
  | 1 => (d.groupOfLane? l).isNone
  | 4 => (hlane d.objs l).mode == 0
  | _ => d.mode l == 0

/-- The lane carries NRZ in the running version; PON and heritage lanes always do (15 Table 15-1). -/
def Dev.laneNrz (d : Dev) (kind l : Nat) : Bool :=
  if kind = 1 then
    match d.groupOfLane? l with
    | some q => q.rate == 3 || q.rate == 4
    | none => false
  else true

/-! ### Line coding (15 R369) -/

/-- Bit pairs, the first bit the more significant. -/
def bitPairs : List Bool → List Nat
  | a :: b :: t => (2 * b2n a + b2n b) :: bitPairs t
  | _ => []

/-- Gray code of a bit pair as a symbol 0 to 3, and back: it is its own inverse. -/
def gray (p : Nat) : Nat :=
  match p with
  | 2 => 3
  | 3 => 2
  | p => p

/-- Precoding by 1/(1+D) mod 4, from the symbol sent before. -/
def precodeOn : (prev : Nat) → List Nat → List Nat
  | _, [] => []
  | prev, s :: t => (s + (4 - prev)) % 4 :: precodeOn ((s + (4 - prev)) % 4) t

/-- The receiver's inverse: 1 + D mod 4. -/
def precodeOff : (prev : Nat) → List Nat → List Nat
  | _, [] => []
  | prev, s :: t => (s + prev) % 4 :: precodeOff s t

/-- Level of a PAM4 symbol. -/
def pam4Level (s : Nat) : Int := 2 * s - 3

/-- The levels that a PAM4 transmitter sends for bits. Precoding starts from symbol 0 (DESIGN CHOICE, log entry 169). -/
def pam4Levels (precoded : Bool) (bs : List Bool) : List Int :=
  let s := (bitPairs bs).map gray
  (if precoded then precodeOn 0 s else s).map pam4Level

/-- The bit pairs that a PAM4 receiver reads from symbols. -/
def pam4Pairs (precoded : Bool) (s : List Nat) : List Nat := (if precoded then precodeOff 0 s else s).map gray

/-- A generator's first symbol with one error: an NRZ bit inverted, a PAM4 symbol moved by one level (15 R375). -/
def withError (nrz : Bool) : List Int → List Int
  | [] => []
  | v :: t => (if nrz then -v else if v = 3 then 1 else v + 2) :: t

/-- The levels of a 64-bit pattern, sent from bit 63, on a lane: PAM4 as above, NRZ by sign. -/
def Dev.patternLevels (d : Dev) (kind l : Nat) (pat : Nat) (inject : Bool) : List Int :=
  let bs := (List.range 64).map fun i => bit pat (63 - i)
  let nrz := d.laneNrz kind l
  let v := if nrz then bs.map fun b => if b then 1 else -1 else pam4Levels ((d.lane kind l).precode % 4 == 2) bs
  if inject then withError nrz v else v

/-! ### Lanes that start (15 R371) -/

/-- The group's lanes start from their board table entries; precoding with PRECODE 0 is settled by the training. -/
def Dev.seedLanes (d : Dev) (q : Group) : Dev :=
  (List.range q.width).foldl (fun d i =>
    d.setLane 1 (q.lane + i) fun x =>
      { x with taps := d.eqTable.getD (16384 + q.rate * 1024 + q.lane + i) {}, precode := q.precode, blockLock := false, fecAlign := false }) d

/-- The group starts. -/
def Dev.startLanes (d : Dev) (q : Group) : Dev :=
  (d.seedLanes q).setPort q.lane fun p => { p with link := 5, changed := d.now, retryAt := some (d.inNs (q.recov * 1000000)) }

/-- The lanes of a channel that a switch brings into use, or into another mode, start: transmit taps as `TREE_TRAIN` set them for the
mode, otherwise the table entry's, and the receive entry (15 R371, R374; log entry 170). -/
def Dev.startPon (d : Dev) (g : Nat) : Dev :=
  let mode := d.mode g
  let entry : EqEntry := d.eqTable.getD (2 * 16384 + mode * 1024 + g) {}
  let taps := match (d.tree (g / 4)).taps.lookup (4 * (g % 4) + mode) with
    | some w => { entry with cm1 := BitVec.ofNat 8 (w / 65536), c0 := BitVec.ofNat 8 (w / 256), cp1 := BitVec.ofNat 8 w }
    | none => entry
  (d.setLane 2 g fun x => { x with taps }).setLane 3 g fun x =>
    { x with taps := d.eqTable.getD (3 * 16384 + (chanCfg d.objs g).upRate * 1024 + g) {} }

/-- A heritage lane that a switch brings into use starts: the transmit entry's taps and the receive entry's peaking. -/
def Dev.startHeritage (d : Dev) (l : Nat) : Dev :=
  let mode := (hlane d.objs l).mode
  let tx : EqEntry := d.eqTable.getD (4 * 16384 + mode * 1024 + l) {}
  let rx : EqEntry := d.eqTable.getD (5 * 16384 + mode * 1024 + l) {}
  d.setLane 4 l fun x => { x with taps := { tx with ctle := rx.ctle } }

/-- An update request of the partner: c(-1), c(0) and c(1) move within the ranges of Table 15-5; no other tap is supported. -/
def EqEntry.ask (x : EqEntry) (tap step : Int) : EqEntry × TapAnswer :=
  let a := x.cm1.toInt + (if tap = -1 then step else 0)
  let b := (x.c0.toNat : Int) + (if tap = 0 then step else 0)
  let c := x.cp1.toInt + (if tap = 1 then step else 0)
  if tap ≠ -1 ∧ tap ≠ 0 ∧ tap ≠ 1 then (x, .notSupported)
  else if -32 ≤ a ∧ a ≤ 0 ∧ 48 ≤ b ∧ b ≤ 128 ∧ -48 ≤ c ∧ c ≤ 0 ∧ b - a - c ≤ 128 then
    ({ x with cm1 := BitVec.ofInt 8 a, c0 := BitVec.ofInt 8 b, cp1 := BitVec.ofInt 8 c }, .updated)
  else (x, .limit)

/-- A lane answers the partner's requests. -/
def Dev.answerTaps (d : Dev) (l : Nat) (requests : List (Int × Int)) : Dev :=
  requests.foldl (fun d r =>
    let (taps, a) := (d.lane 1 l).taps.ask r.1 r.2
    (d.setLane 1 l fun x => { x with taps }).emit (.tapAnswer l r.1 a)) d

/-- Precoding of a group's lane after training, in the layout of PRECODE: with 0, the partner's request holds for the transmitter and
the device's own for the receiver, which asks at 106.25 Gb/s; without training nothing is agreed (15 R369). -/
def Group.precodeAfter (q : Group) (on asked : Bool) : Nat :=
  if 2 < q.rate then 0
  else
    let tx := if q.precode % 4 ≠ 0 then q.precode % 4 else if on && asked then 2 else 1
    let rx := if q.precode / 4 % 4 ≠ 0 then q.precode / 4 % 4 else if on && q.rate == 1 then 2 else 1
    4 * rx + tx

/-- The group's lanes after their start-up training, when it ran (`on`): taps as the requests left them, and precoding settled. -/
def Dev.trainLanes (d : Dev) (q : Group) (on : Bool) (training : List LaneTraining) : Dev :=
  let training := if on then training else []
  let d := training.foldl (fun d t => if t.lane < q.width then d.answerTaps (q.lane + t.lane) t.requests else d) d
  (List.range q.width).foldl (fun d i =>
    d.setLane 1 (q.lane + i) fun x => { x with precode := q.precodeAfter on (training.any fun t => t.lane == i && t.precode) }) d

/-! ### PORT_SET (15 R367) -/

/-- Fields of Table 15-4 that every write must hold. -/
def portForm (p : Bytes) : Bool :=
  let kind := ent p 17 1
  let width := ent p 18 1
  let rate := ent p 19 1
  let pre := ent p 21 1
  let mf := ent p 22 2
  decide (ent p 16 1 + width ≤ 96) && groupFits kind width rate (ent p 20 1) && aligned (ent p 16 1) (max width 1)
  && decide (bits pre 1 0 ≤ 2) && decide (bits pre 3 2 ≤ 2) && bits pre 7 4 == 0 && (decide (rate ≤ 2) || pre == 0)
  && (mf == 0 || (kind == 1 && within mf 64 16000))
  && !bit (ent p 24 1) 7 && bits (ent p 26 1) 7 4 == 0 && decide (ent p 27 1 ≤ 3) && decide (ent p 28 1 ≤ 128)
  && (ent p 29 2 == 0 || within (ent p 29 2) 10 10000) && zeros 16 p [(31, 63)]

/-- `PORT_SET`; KIND 0 removes the group. -/
def cmdPortSet : CmdDef :=
  versionedCmd 0x0E01 false (fun p => slice p 0 1) (fun p => ent p 17 1 == 0)
    (fun p => decide (ent p 16 1 ≤ 95) && bits (ent p 21 1) 7 4 == 0 && !bit (ent p 24 1) 7 && bits (ent p 26 1) 7 4 == 0
      && zeros 16 p [(31, 63)]) portForm

/-- The command `PORT_SET`. -/
def execPortSet (p : Packet) (s : State) : Host.Outcome State Fault Refusal := command cmdPortSet p s

/-! ### PORT_DISABLE, PORT_ENABLE (15 R383) -/

/-- `PORT_DISABLE`; a running hold ends (10 R266). -/
def cmdPortDisable : CmdDef where
  op := 0x0E02
  newWork := false
  names := fun _ p => [.port (ent p 16 1)]
  form := fun p => decide (ent p 16 1 ≤ 95) && limitOk (ent p 20 4) && zeros 16 p [(17, 19), (24, 63)]
  forbid := fun d e =>
    let l := ent e.par 16 1
    if !d.isGroup l [1, 2] ∨ (d.port l).disabled.isSome then some (.conflict, []) else none
  run := fun e d =>
    let l := ent e.par 16 1
    match d.group? l with
    | some q => (d.setPort l fun p => { p with disabled := some (q.kind, q.width), hold := none }).startDrain e (.port l) (ent e.par 20 4)
    | none => d.finish e .conflict []

/-- The command `PORT_DISABLE`. -/
def execPortDisable (p : Packet) (s : State) : Host.Outcome State Fault Refusal := command cmdPortDisable p s

/-- `PORT_ENABLE`. -/
def cmdPortEnable : CmdDef where
  op := 0x0E03
  newWork := false
  names := fun _ p => [.port (ent p 16 1)]
  form := fun p => decide (ent p 16 1 ≤ 95) && zeros 16 p [(17, 63)]
  forbid := fun d e =>
    let l := ent e.par 16 1
    if !d.isGroup l [1, 2, 3] ∨ !d.portOff l then some (.conflict, []) else none
  run := fun e d =>
    let l := ent e.par 16 1
    match d.group? l with
    | some q => ((d.setPort l fun p => { p with disabled := none }).startLanes q).ok e
    | none => d.finish e .conflict []

/-- The command `PORT_ENABLE`. -/
def execPortEnable (p : Packet) (s : State) : Host.Outcome State Fault Refusal := command cmdPortEnable p s

/-! ### EQ_TABLE_WRITE (15 R370) -/

/-- Magnitude of a signed byte. -/
def mag8 (v : Nat) : Nat := (signed 8 v).natAbs

/-- Fields of Table 15-5. -/
def eqForm (p : Bytes) : Bool :=
  let kind := ent p 16 1
  let rate := ent p 17 1
  let lane := ent p 18 2
  let cm1 := ent p 20 1
  let c0 := ent p 21 1
  let cp1 := ent p 22 1
  let ctle := ent p 23 1
  let gain := ent p 24 1
  let tx := kind == 1 || kind == 2 || kind == 4
  let rx := kind == 1 || kind == 3 || kind == 5
  (match kind with
    | 1 => within rate 1 4 && decide (lane < 96)
    | 2 => within rate 1 2 && decide (lane < 192)
    | 3 => decide (rate ≤ 3) && decide (lane < 192)
    | 4 => within rate 1 3 && decide (lane < 32)
    | 5 => within rate 1 3 && decide (lane < 32)
    | _ => false)
  && (cm1 == 0 || ((kind == 1 || kind == 2) && decide (-32 ≤ signed 8 cm1) && decide (signed 8 cm1 ≤ 0)))
  && (if tx then within c0 48 128 else c0 == 0)
  && (cp1 == 0 || (tx && decide (-48 ≤ signed 8 cp1) && decide (signed 8 cp1 ≤ 0)))
  && (!tx || decide (mag8 cm1 + c0 + mag8 cp1 ≤ 128))
  && (if rx then decide (ctle ≤ 31) else ctle == 0) && (kind == 3 || gain == 0) && zeros 16 p [(25, 63)]

/-- A lane is in service: not free for a test; kinds 4 and 5 are the heritage lanes' two directions. -/
def Dev.laneInService (d : Dev) (kind l : Nat) : Bool := !d.laneFree (min kind 4) l

/-- `EQ_TABLE_WRITE`. -/
def cmdEqTableWrite : CmdDef where
  op := 0x0E04
  kind := fun _ _ _ => .perEntry
  form := eqForm
  run := fun e d =>
    let p := e.par
    let f := fun (b : Nat) => BitVec.ofNat 8 (ent p b 1)
    let entry : EqEntry := { cm1 := f 20, c0 := f 21, cp1 := f 22, ctle := f 23, gain := f 24 }
    let later := d.laneInService (ent p 16 1) (ent p 18 2)
    { d with eqTable := d.eqTable.put (ent p 16 1 * 16384 + ent p 17 1 * 1024 + ent p 18 2) entry }.finish e .done [b2n later]

/-- The command `EQ_TABLE_WRITE`. -/
def execEqTableWrite (p : Packet) (s : State) : Host.Outcome State Fault Refusal := command cmdEqTableWrite p s

/-! ### LANE_TRAIN, TREE_TRAIN (15 R373, R374) -/

/-- `LANE_TRAIN`. A second one of the group while one runs is busy (log entry 52). -/
def cmdLaneTrain : CmdDef where
  op := 0x0E05
  names := fun _ p => [.port (ent p 16 1)]
  form := fun p => decide (ent p 16 1 ≤ 95) && zeros 16 p [(17, 63)]
  forbid := fun d e =>
    let l := ent e.par 16 1
    if !d.isGroup l [1, 2, 3] ∨ !d.portOff l then some (.conflict, [])
    else if (d.lane 1 l).training then some (.busy, []) else none
  run := fun e d =>
    let l := ent e.par 16 1
    match d.group? l with
    | some q => ((d.seedLanes q).setLane 1 l fun x => { x with training := true }).park e
    | none => d.finish e .conflict []

/-- The command `LANE_TRAIN`. -/
def execLaneTrain (p : Packet) (s : State) : Host.Outcome State Fault Refusal := command cmdLaneTrain p s

/-- A started command of an opcode whose one-byte operand at entry byte 16 is `v`. -/
def Dev.running? (d : Dev) (op v : Nat) : Option Exec :=
  d.execs.find? fun e => e.op == op && e.started && e.armed.isNone && ent e.par 16 1 == v

/-- The taps in force of a lane, in the layout of 15 R373. -/
def EqEntry.word (x : EqEntry) : Nat := x.cm1.toNat * 65536 + x.c0.toNat * 256 + x.cp1.toNat

/-- The event LANE_TRAIN_COMPLETE: the training ends with the taps that the partner's requests left; the lanes return to electrical
idle. -/
def laneTrainComplete (lane : Nat) (training : List LaneTraining) (partner : Word) (us outcome : Nat) (d : Dev) : Dev :=
  match d.running? 0x0E05 lane with
  | some e =>
    let d := match d.group? lane with
      | some q => d.trainLanes q true training
      | none => d
    let own := (d.lane 1 lane).taps.word
    (d.setLane 1 lane fun x => { x with training := false }).finish e .done [own, partner.toNat % 2 ^ 24, us % 2 ^ 32, min outcome 2]
  | none => d

/-- See `laneTrainComplete`. -/
def execLaneTrainComplete (lane : Nat) (training : List LaneTraining) (partner : Word) (us outcome : Nat) (s : State) :
    Host.Outcome State Fault Refusal := live (laneTrainComplete lane training partner us outcome) s

/-- `TREE_TRAIN`. -/
def cmdTreeTrain : CmdDef where
  op := 0x0E06
  form := fun p => decide (ent p 16 1 ≤ 47) && decide (ent p 17 1 ≤ 3) && zeros 16 p [(18, 63)]
  names := fun _ p => (List.range 4).map fun c => .channel (4 * ent p 16 1 + c)
  forbid := fun d e =>
    let t := ent e.par 16 1
    if !((List.range 4).all fun c => d.chanIdle (4 * t + c)) then some (.conflict, [])
    else if (d.tree t).training then some (.busy, []) else none
  run := fun e d => (d.setTree (ent e.par 16 1) fun x => { x with training := true }).park e

/-- The command `TREE_TRAIN`. -/
def execTreeTrain (p : Packet) (s : State) : Host.Outcome State Fault Refusal := command cmdTreeTrain p s

/-- The trained-mode map after a training: a named mode becomes trained when no channel failed it, untrained otherwise;
another mode keeps its bit (15 R374). -/
def trainedMap (old : BitVec 2) (modes : Nat) (failed : List (Nat × BitVec 4)) : BitVec 2 :=
  let pass := fun (m : Nat) => failed.all fun f => f.1 != m || f.2 == 0#4
  BitVec.ofNat 2 (b2n (if bit modes 0 then pass 1 else old.getLsbD 0) + 2 * b2n (if bit modes 1 then pass 2 else old.getLsbD 1))

/-- The event TREE_TRAIN_COMPLETE: `failed` gives per mode (1 10G, 2 50G) the channels whose lanes failed, `presets` the
cold presets by channel × 4 + UPRATE, `taps` the transmit taps by channel × 4 + MODE. -/
def treeTrainComplete (tree : Nat) (failed : List (Nat × BitVec 4)) (presets taps : List (Nat × Nat)) (d : Dev) : Dev :=
  match d.running? 0x0E06 tree with
  | some e =>
    let modes := ent e.par 17 1
    let hit := failed.filter fun f => bit modes (f.1 - 1) && f.1 != 0
    let chans := hit.foldl (fun a f => a ||| f.2) 0#4
    let d := d.setTree tree fun x =>
      { x with training := false, trained := trainedMap x.trained modes failed
               presets := presets.foldl (fun t p => Tbl.put t p.1 p.2) x.presets
               taps := (taps.filter fun p => bit modes (p.1 % 4 - 1)).foldl (fun t p => Tbl.put t p.1 p.2) x.taps }
    d.finish e .done [(d.tree tree).trained.toNat, chans.toNat]
  | none => d

/-- See `treeTrainComplete`. -/
def execTreeTrainComplete (tree : Nat) (failed : List (Nat × BitVec 4)) (presets taps : List (Nat × Nat)) (s : State) :
    Host.Outcome State Fault Refusal := live (treeTrainComplete tree failed presets taps) s

/-! ### PATTERN_SET, PATTERN_READ (15 R375, R376) -/

/-- Fields of Table 15-6. -/
def patternForm (p : Bytes) : Bool :=
  let kind := ent p 16 1
  within kind 1 4 && bits (ent p 17 1) 7 2 == 0 && decide (ent p 18 2 < laneCount kind) && decide (ent p 20 1 ≤ 11)
  && decide (ent p 21 1 ≤ 2) && (if ent p 21 1 = 2 then within (ent p 22 1) 10 40 else ent p 22 1 == 0) && zeros 16 p [(23, 23), (32, 63)]

/-- `PATTERN_SET`. The levels of a USER pattern leave by its bytes alone; the other patterns are the named sequences. -/
def cmdPatternSet : CmdDef where
  op := 0x0E07
  form := patternForm
  bad := fun d e =>
    let kind := ent e.par 16 1
    let l := ent e.par 18 2
    if (within (ent e.par 20 1) 7 9 ∧ d.laneNrz kind l) ∨ (kind = 2 ∧ bit (ent e.par 17 1) 1) ∨ (kind = 3 ∧ bit (ent e.par 17 1) 0)
    then some [] else none
  forbid := fun d e => if d.laneFree (ent e.par 16 1) (ent e.par 18 2) then none else some (.conflict, [])
  run := fun e d =>
    let p := e.par
    let dir := ent p 17 1
    let d := d.setLane (ent p 16 1) (ent p 18 2) fun x =>
      let x := if bit dir 0 then
        { x with generator := ent p 20 1, userPat := ent p 24 8, inject := ent p 21 1, interval := ent p 22 1 } else x
      if bit dir 1 then { x with checker := ent p 20 1, userPat := ent p 24 8 } else x
    let d := if bit dir 0 ∧ ent p 20 1 = 11 then
        d.emit (.pattern (ent p 16 1) (ent p 18 2) (d.patternLevels (ent p 16 1) (ent p 18 2) (ent p 24 8) (ent p 21 1 == 1)))
      else d
    d.ok e

/-- The command `PATTERN_SET`. -/
def execPatternSet (p : Packet) (s : State) : Host.Outcome State Fault Refusal := command cmdPatternSet p s

/-- `PATTERN_READ`. What a running checker has met at the pins is no operand of any row, so its words are free values
(log entry 50). -/
def cmdPatternRead : CmdDef where
  op := 0x0E08
  read := true
  form := fun p => within (ent p 16 1) 1 4 && decide (ent p 18 2 < laneCount (ent p 16 1)) && zeros 16 p [(17, 17), (20, 63)]
  run := fun e d =>
    if (d.lane (ent e.par 16 1) (ent e.par 18 2)).checker = 0 then d.finish e .done [0, 0, 0, 0]
    else
      let v := fun (i : Nat) => Config.freeValue (d.freeCount + i) % 2 ^ 32
      { d with freeCount := d.freeCount + 4 }.finish e .done [v 0, v 1, v 2, v 3]

/-- The command `PATTERN_READ`. -/
def execPatternRead (p : Packet) (s : State) : Host.Outcome State Fault Refusal := command cmdPatternRead p s

/-! ### EYE_SCAN (15 R377) -/

/-- Parameters of an eye scan. -/
def eyeForm (p : Bytes) : Bool :=
  let kind := ent p 16 1
  (kind == 1 || kind == 4) && decide (ent p 17 1 ≤ 2) && decide (ent p 18 2 < laneCount kind) && within (ent p 20 1) 1 16
  && within (ent p 21 1) 1 16 && within (ent p 22 1) 20 40 && aligned (ent p 24 8) 8 && zeros 16 p [(23, 23), (32, 63)]

/-- The lane is in training. -/
def Dev.laneTraining (d : Dev) (kind l : Nat) : Bool :=
  if kind = 1 then
    match d.groupOfLane? l with
    | some q => (d.lane 1 q.lane).training || (q.train && (d.port q.lane).link == 5)
    | none => false
  else false

/-- `EYE_SCAN`. -/
def cmdEyeScan : CmdDef where
  op := 0x0E09
  form := eyeForm
  bad := fun d e => if d.laneNrz (ent e.par 16 1) (ent e.par 18 2) ∧ ent e.par 17 1 ≠ 0 then some [] else none
  forbid := fun d e =>
    let kind := ent e.par 16 1
    let l := ent e.par 18 2
    if d.laneDormant kind l ∨ d.laneTraining kind l then some (.conflict, [])
    else if (d.lane kind l).scanning then some (.busy, []) else none
  run := fun e d => (d.setLane (ent e.par 16 1) (ent e.par 18 2) fun x => { x with scanning := true }).park e

/-- The command `EYE_SCAN`. -/
def execEyeScan (p : Packet) (s : State) : Host.Outcome State Fault Refusal := command cmdEyeScan p s

/-- The values that a scan visits from `-lo` in steps, up to `hi`. -/
def scanAxis (lo hi step : Nat) : List Int := (List.range ((lo + hi) / step + 1)).map fun i => (i * step : Nat) - (lo : Int)

/-- Points of a scan, phase by phase (log entry 51), with the errors met. -/
def scanPoints (pstep vstep : Nat) (errors : List Nat) : List ((Int × Int) × Nat) :=
  ((scanAxis 32 31 pstep).flatMap fun p => (scanAxis 127 127 vstep).map fun v => (p, v)).zip errors

/-- Widest span between the ends of a run of points without error. -/
def widest : List (Int × Nat) → Option Int → Nat → Nat
  | [], _, best => best
  | (x, n) :: t, start, best =>
    if n = 0 then widest t (some (start.getD x)) (max best (x - start.getD x).toNat) else widest t none best

/-- The bytes of a point. -/
def pointBytes (x : (Int × Int) × Nat) : Bytes :=
  beBytes 1 (wrap 8 x.1.1) ++ beBytes 1 (wrap 8 x.1.2) ++ [0#8, 0#8] ++ beBytes 4 (sat 32 x.2)

/-- The event EYE_SCAN_COMPLETE: the scan ends with the errors met at its points. A span on an axis that the steps do not
visit is a free value (log entry 51). -/
def eyeScanComplete (kind lane : Nat) (errors : List Nat) (interrupted : Bool) (d : Dev) : Dev :=
  match d.execs.find? fun e => e.op == 0x0E09 && e.started && e.armed.isNone && ent e.par 16 1 == kind && ent e.par 18 2 == lane with
  | some e =>
    let ps := ent e.par 20 1
    let vs := ent e.par 21 1
    let pts := scanPoints ps vs errors
    let row := (pts.filter fun x => x.1.2 == 0).map fun x => (x.1.1, x.2)
    let col := (pts.filter fun x => x.1.1 == 0).map fun x => (x.1.2, x.2)
    let r1 := if 127 % vs = 0 then widest row none 0 else Config.freeValue d.freeCount % 2 ^ 32
    let r2 := if 32 % ps = 0 then widest col none 0 else Config.freeValue (d.freeCount + 1) % 2 ^ 32
    let d := { d with freeCount := d.freeCount + 2 }
    let d := d.hostWrite (ent e.par 24 8) (pts.flatMap pointBytes ++ List.replicate 8 0#8)
    (d.setLane kind lane fun x => { x with scanning := false }).finish e .done [pts.length, r1, r2, b2n interrupted]
  | none => d

/-- See `eyeScanComplete`. -/
def execEyeScanComplete (kind lane : Nat) (errors : List Nat) (interrupted : Bool) (s : State) : Host.Outcome State Fault Refusal :=
  live (eyeScanComplete kind lane errors interrupted) s

/-! ### LANE_STATUS, PORT_STATUS (15 R384) -/

/-- State code of a lane. -/
def Dev.laneState (d : Dev) (kind l : Nat) : Nat :=
  let x := d.lane kind l
  if x.generator ≠ 0 ∨ x.checker ≠ 0 then 5
  else if d.laneDormant kind l then 0
  else
    match kind with
    | 1 => match d.groupOfLane? l with
      | some q =>
        if d.laneTraining 1 l then 2
        else if (d.port q.lane).disabled.isSome then 4
        else match (d.port q.lane).link with
          | 2 => 3
          | 5 => 1
          | _ => 4
      | none => 0
    | 4 => if (d.tdm.lanes.getD l {}).inFrame then 3 else 4
    | _ => if (d.tree (l / 4)).training then 2 else if d.chanIdle l then 4 else 3

/-- The lane runs under an FEC whose corrections it counts. -/
def Dev.laneFec (d : Dev) (kind l : Nat) : Bool :=
  if kind = 1 then
    match d.groupOfLane? l with
    | some q => q.fec == 0 && q.rate != 4
    | none => false
  else false

/-- `LANE_STATUS`. Wake energy and corrected codewords come from the pins alone, so they are free values where the lane has
them (log entry 50). -/
def cmdLaneStatus : CmdDef where
  op := 0x0E0A
  read := true
  form := fun p => within (ent p 16 1) 1 4 && decide (ent p 18 2 < laneCount (ent p 16 1)) && zeros 16 p [(17, 17), (20, 63)]
  run := fun e d =>
    let kind := ent e.par 16 1
    let l := ent e.par 18 2
    let x := d.lane kind l
    let wake := if d.laneDormant kind l then Config.freeValue d.freeCount % 2 else 0
    let fixes := if d.laneFec kind l then Config.freeValue (d.freeCount + 1) % 2 ^ 32 else 0
    { d with freeCount := d.freeCount + 2 }.finish e .done
      [d.laneState kind l * 2 ^ 24 + 4 * wake + 2 * b2n x.blockLock + b2n x.fecAlign,
       x.taps.word, (x.taps.ctle.toNat % 32) * 256 + x.precode % 16, fixes]

/-- The command `LANE_STATUS`. -/
def execLaneStatus (p : Packet) (s : State) : Host.Outcome State Fault Refusal := command cmdLaneStatus p s

/-- State code of a port. -/
def Dev.portState (d : Dev) (l : Nat) : Nat :=
  if d.draining (.port l) then 3 else if (d.port l).disabled.isSome then 4 else (d.port l).link

/-- `PORT_STATUS`. Uncorrectable codewords are a free value where the group has FEC (log entry 50). -/
def cmdPortStatus : CmdDef where
  op := 0x0E0B
  read := true
  form := fun p => decide (ent p 16 1 ≤ 95) && zeros 16 p [(17, 63)]
  forbid := fun d e => if d.isGroup (ent e.par 16 1) [1, 2, 3] then none else some (.conflict, [])
  run := fun e d =>
    let l := ent e.par 16 1
    let x := d.port l
    let lost := if d.laneFec 1 l then Config.freeValue d.freeCount % 2 ^ 32 else 0
    { d with freeCount := d.freeCount + 1 }.finish e .done
      [d.portState l * 2 ^ 24 + x.preempt, sat 32 x.downs, x.changed % 2 ^ 32, lost]

/-- The command `PORT_STATUS`. -/
def execPortStatus (p : Packet) (s : State) : Host.Outcome State Fault Refusal := command cmdPortStatus p s

end Sys2Proof.Machine
end

