-- ==== Sys2Proof/Machine/Terminals.lean ====
section
/-!
DEFINITION. Terminal records, discovery, activation, ranging, drift and profile choice (04), and the bearings (03 R89 to
R92).
-/
namespace Sys2Proof.Machine

/-! ### PLOAM (03 R100) -/

/-- Kinds of downstream PLOAM message. -/
def plAssign : Nat := 1
/-- Ranging_Time. -/
def plRanging : Nat := 2
/-- Deactivate_ONU-ID. -/
def plDeactivate : Nat := 3
/-- Disable_Serial_Number; the second field is 1 for the enable option. -/
def plDisable : Nat := 4
/-- Burst_Profile. -/
def plProfile : Nat := 5
/-- Key_Control. -/
def plKey : Nat := 6
/-- Broadcast ONU-ID of a message to every terminal. -/
def plAll : Nat := 0x3FF

/-- A standby of a protection pair: protected, and not transmitting (14 R340). -/
def Dev.standby (d : Dev) : Bool := d.isProtected && !d.prot.transmitting

/-- The ONU-ID in force: the record's own, otherwise the assigned one (04 R105). -/
def Term.onu (t : Term) : Nat := if t.onuId ≠ 0xFFFF then t.onuId else t.assigned

/-- PLOAM messages that a terminal answers by the standard: Ranging_Time and Key_Control (PRESUMED, log entry 87). -/
def plAnswered (kind : Nat) : Bool := kind == plRanging || kind == plKey

/-- The Keepers queue a PLOAM message; on a standby they send none (04 R124). A message that finds the queue of 64 full waits in
the Keepers and is never dropped (03 R100). A message that needs an answer asks for a grant with the PLOAMu flag (05 R131). -/
def Dev.ploam (d : Dev) (g kind onu : Nat) (fields : List Nat) : Dev :=
  if d.standby then d
  else
    let d := d.setChan g fun c => { c with ploam := c.ploam ++ [(kind, onu, fields)] }
    if plAnswered kind then
      { d with terms := d.terms.mapAll fun _ (t : Term) => if t.chan = g ∧ t.onu = onu then { t with needPloamu := true } else t }
    else d

/-! ### Management rings (03 R102, R103) -/

/-- Every entry of the ring is unread, as far as the device knows. -/
def MgmtRing.full (r : MgmtRing) : Bool := decide (2 ^ r.log2 ≤ (r.count + 65536 - r.consumer) % 65536)

/-- The 2,048 bytes of an entry (03 Table 3-6). -/
def mgmtEntry (r : MgmtRing) (kind term chan time : Nat) (msg : Bytes) : Bytes :=
  slice (beBytes 1 (phaseOf r.count (2 ^ r.log2)) ++ beBytes 1 kind ++ beBytes 2 msg.length ++ beBytes 2 term
    ++ beBytes 1 chan ++ [0#8] ++ beBytes 8 time ++ List.replicate 16 0#8 ++ msg) 0 2048

/-- Writes a message to a domain's ring. The consumer word is read only when the ring looks full; a ring that stays full
loses the message, counted in the domain's management-overflow counter. TIME is the
time base at the delimiter of the burst that carried the message. -/
def Dev.toMgmt (d : Dev) (dom : Nat) (r : MgmtRing) (kind term chan time : Nat) (msg : Bytes) (consumer : Nat) : Dev :=
  let r := if r.full then { r with consumer := consumer % 65536 } else r
  if r.full then (d.setDom dom fun m => { m with mgmt := some r }).count (ctrDev (16 + dom))
  else
    (d.hostWrite (r.base + 2048 * (r.count % 2 ^ r.log2)) (mgmtEntry r kind term chan time msg)).setDom dom
      fun m => { m with mgmt := some { r with count := r.count + 1 } }

/-! ### Upstream PLOAM (03 R100) -/

/-- The session key in force: the one set, otherwise the default of the standard of the channel's mode (11 R276). -/
def Dev.sessionKey (d : Dev) (t : Term) : Bytes := t.session.getD (Config.defaultSession (d.mode t.chan))

/-- An upstream PLOAM message passes its check (03 R100). -/
def Dev.ploamPasses (d : Dev) (t : Term) (msg : Bytes) : Bool :=
  Config.ploamMicOk (Config.derivePloamIk (d.mode t.chan) (d.sessionKey t)) msg

/-- The copy of a passing message, where the channel's FLAGS bit 1 asks for it. While domain 0 has no management ring no copy is
written, and nothing counts it (DESIGN CHOICE, log entry 158). -/
def Dev.copyPloam (d : Dev) (g h time : Nat) (msg : Bytes) (consumer : Nat) : Dev :=
  if (chanCfg d.objs g).ploamCopy then
    match (d.dom 0).mgmt with
    | some r => d.toMgmt 0 r 2 h g time msg consumer
    | none => d
  else d

/-! ### Delimiter search (03 R93) -/

/-- The delimiter's bits, first bit first. -/
def Profile.delimiter (p : Profile) : List Bool := (List.range (8 * p.delimLen)).map fun i => bit p.delimPat (63 - i)

/-- Hamming distance of a pattern from the bits that start a string. -/
def hamming (pat bs : List Bool) : Nat := ((pat.zip bs).filter fun x => x.1 != x.2).length

/-- First position at which the pattern is met within the tolerance. -/
def searchDelim (pat : List Bool) (tol : Nat) : (pos : Nat) → List Bool → Option Nat
  | _, [] => none
  | p, b :: t => if pat.length ≤ t.length + 1 ∧ hamming pat (b :: t) ≤ tol then some p else searchDelim pat tol (p + 1) t

/-! ### Bearings and states: on a standby the records follow the mirror alone (04 R124) -/

/-- The bearing's VALID bit (04 R115): RANGED, OPERATING or LOST. -/
def Term.valid (t : Term) : Bool := within t.state 3 5

/-- LOCKED and COUNT cleared (03 R92). LOCK_max then counts good bursts from the clear on (DESIGN CHOICE, log entry 158: 04 R120 does
not say whether those before it still count). -/
def Term.clearBearing (t : Term) : Term := { t with locked := false, count := 0, locks := [], runs := [], profile := 0 }

/-- A state entered: WAITING and DISABLED clear the bearing and release an assigned ONU-ID (04 R105, R115). -/
def Term.enter (t : Term) (st now : Nat) : Term :=
  let t := { t with state := st, since := now, missing := 0 }
  if st = 1 ∨ st = 6 then
    { t.clearBearing with assigned := 0xFFFF, eqd := 0, noDelim := 0, lossOfBurst := false, drift := [], guardBits := 0
                          guardFrames := 0, eqdWait := 0, heldEqd := none, attempts := 0, needPloamu := false, mgmtBacklog := 0, keySwitch := none }
  else t

/-- The bearing of 03 Table 3-5 as 128 bits. -/
def Term.bearing (t : Term) : BitVec 128 :=
  let v := (b2n t.valid, b2n t.locked)
  BitVec.ofNat 128 (v.1 * 2 ^ 127 + v.2 * 2 ^ 126 + (min t.count 63) * 2 ^ 120 + t.final.gain.toNat * 2 ^ 112
    + t.final.thresh.toNat * 2 ^ 102 + t.final.phase.toNat * 2 ^ 94 + t.final.freq.toNat * 2 ^ 78
    + t.final.eq.toNat * 2 ^ 22 + t.final.lock.toNat * 2 ^ 10)

/-! ### Discards (04 R122, 03 R77) -/

/-- Frames of a flow in its channel's Lantern queue. -/
def Chan.lanternOf (c : Chan) (p : Nat → Bool) : List Frame := c.lantern.filter fun f => p f.flow

/-- Discards the queued downstream frames of the flows that meet a test, Lantern frames included, and says how many. The
frame in the tree unit's current PHY frame stays (04 R122). -/
def Dev.discardFlows (d : Dev) (p : Nat → Bool) : Dev × Nat :=
  let hit := d.flows.filter fun f => p f.1
  let queued := hit.flatMap fun f => f.2.queue.all
  let lantern := d.chans.flatMap fun c => c.2.lanternOf p
  let d := d.freeFrames (queued ++ lantern)
  ({ d with
      flows := d.flows.mapAll (fun i (f : Flow) => if p i then { f with queue := f.queue.empty } else f),
      chans := d.chans.mapAll (fun _ (c : Chan) => { c with lantern := c.lantern.filter fun f => !p f.flow }) },
    (queued ++ lantern).length)

/-- The flow belongs to the terminal. -/
def Dev.flowOfTerm (d : Dev) (t : Nat) (f : Nat) : Bool :=
  match d.flow? f with
  | some x => x.term == t
  | none => false

/-! ### Deactivation (04 R122) -/

/-- A terminal is deactivated: Deactivate_ONU-ID unless `msg` is false, its queued frames are discarded, commands in
execution that name it end with `ABANDONED` apart from its `TERMINAL_DISABLE`, and bursts granted in maps already sent are
not counted as missing. Answers the number of frames discarded. `self` is the command that causes it. -/
def Dev.deactivate (d : Dev) (t : Nat) (msg : Bool) (self : Option (Nat × Nat)) : Dev × Nat :=
  match d.term? t with
  | none => (d, 0)
  | some x =>
    let d := if msg then d.ploam x.chan plDeactivate x.onu [] else d
    let (d, n) := d.discardFlows (d.flowOfTerm t)
    let d := d.endAll (fun e => e.names.contains (.terminal t) && e.op != 0x0403 && self != some (e.dom, e.seq)) .abandoned
    let d := d.setChan x.chan fun c => { c with ranging := c.ranging.filter fun r => r.1 != t }
    (d.setTerm t fun y => { y.enter 1 d.now with graceTo := d.time.frame }, n)

/-- Every record of a channel that is activated or being activated is deactivated (03 R77, R78). -/
def Dev.deactivateChan (d : Dev) (g : Nat) (msg : Bool) (self : Option (Nat × Nat)) : Dev :=
  (d.terms.filter fun t => t.2.chan == g && t.2.state != 1 && t.2.state != 6).foldl (fun d t => (d.deactivate t.1 msg self).1) d

/-! ### Discovery list (04 R114) -/

/-- A sighting of a serial number: its entry is updated, or added while the list has room. -/
def Dev.sight (d : Dev) (g serial reason rtd : Nat) : Dev :=
  let now := d.now
  let c := d.chan g
  if c.disc.any fun x => x.serial == serial then
    d.setChan g fun c => { c with disc := c.disc.map fun x =>
      if x.serial = serial then { x with reason, seen := sat 16 (x.seen + 1), rtd := if rtd = 0 then x.rtd else rtd, last := now } else x }
  else if c.disc.length < 16 then
    d.setChan g fun c => { c with disc := c.disc ++ [⟨serial, reason, 1, rtd, now, now⟩] }
  else d.count (ctrChan g 6)

/-- The bytes of an entry (04 Table 4-4). -/
def DiscEntry.bytes (x : DiscEntry) : Bytes :=
  beBytes 8 x.serial ++ beBytes 1 x.reason ++ [0#8] ++ beBytes 2 x.seen ++ beBytes 4 x.rtd ++ beBytes 8 x.first ++ beBytes 8 x.last

/-! ### ONU-IDs (04 R105) -/

/-- ONU-IDs that other records of a channel hold. -/
def Dev.heldIds (d : Dev) (g self : Nat) : List Nat :=
  (d.terms.filter fun t => t.2.chan == g && t.1 != self).filterMap fun t =>
    if t.2.onuId ≠ 0xFFFF then some t.2.onuId else if within t.2.state 2 5 then some t.2.assigned else none

/-- The lowest ONU-ID that no other record of the channel holds. -/
def Dev.freeId (d : Dev) (g self : Nat) : Nat :=
  let held := d.heldIds g self
  ((List.range 1021).find? fun i => !held.contains i).getD 0

/-! ### Profiles (04 R120, R121; 03 R88) -/

/-- Profiles of a plan's version that it may not assign yet: they have joined the channel, and a plan built now is for one of the first 8
frames of their announcement (03 R88). -/
def Dev.lateProfiles (d : Dev) (objs : List VObj) (g : Nat) : List Nat :=
  ((profiles objs g).map Prod.fst).filter fun i =>
    i != 0 && ((profile? d.objs g i).isNone || (d.chan g).announce.any fun a => a.1 == i && decide (1 < a.2))

/-- The profile that a good burst allows (04 R120): the highest existing index whose preamble is at least PROFMARGIN / 8 × LOCK_max,
none while COUNT is below 8; LOCK counts 4 UI per step. -/
def Dev.allowedProfile (d : Dev) (t : Term) : Option Nat :=
  if t.locked ∧ 8 ≤ t.count then
    let m := (discCfg d.objs t.chan).profMargin
    let lmax := 4 * maxBy t.locks id
    (((profiles d.objs t.chan).filter fun p => decide (m * lmax ≤ 8 * p.2.preBits)).getLast?).map Prod.fst
  else none

/-- A good burst's effect on the choice (04 R120): at once to a longer profile when the current one is no longer allowed,
to a shorter one after 16 consecutive good bursts that each allow it. A pinned terminal has no choice, and no run. On a standby the
profile follows the mirror alone (04 R124). -/
def Dev.chooseProfile (d : Dev) (t : Term) : Term :=
  if d.standby then t
  else if t.profPin ≠ 0xFF then { t with runs := [] }
  else
    match d.allowedProfile t with
    | none => { t with runs := [], profile := 0 }
    | some a =>
      if a < t.profile then { t with profile := a, runs := [] }
      else if a = t.profile then { t with runs := [] }
      else
        let runs := (a :: t.runs).take 16
        if runs.length = 16 then { t with profile := runs.foldl min a, runs } else { t with runs }

/-- The profile that a plan under a version names for the terminal's next burst; `late` lists those that it may not assign yet. A pin
holds whether or not the bearing is LOCKED, as 04 R121 says without an exception (DESIGN CHOICE, log entry 159: 03 R88 names profile 0
for every terminal that is not LOCKED). A pinned profile that is missing or late gives profile 0. A chosen profile that the version
lacks gives the longest, which is profile 0 (03 R87, R88); one that is late, the next longer one that may be assigned (DESIGN CHOICE,
log entry 159). -/
def termProfile (objs : List VObj) (late : List Nat) (t : Term) : Nat :=
  let has := fun i => (profile? objs t.chan i).isSome
  let free := fun i => has i && !late.contains i
  if t.profPin ≠ 0xFF then if free t.profPin then t.profPin else 0
  else if !t.locked ∨ !has t.profile then 0
  else (((List.range (t.profile + 1)).filter free).getLast?).getD 0

/-- The profile in force under the running version. -/
def Dev.profileOf (d : Dev) (t : Term) : Nat := termProfile d.objs (d.lateProfiles d.objs t.chan) t

/-- A terminal whose profile a version removes: its choice starts again from the longest remaining profile (03 R88). -/
def Term.reprofile (t : Term) (objs : List VObj) : Term :=
  if (profile? objs t.chan t.profile).isSome then t else { t with profile := 0, runs := [] }

/-! ### Drift (04 R118) -/

/-- A quotient rounded to the nearest whole number, halves away from 0 (log entry 31). -/
def roundDiv (a : Int) (b : Nat) : Int := if 0 ≤ a then (2 * a + b) / (2 * b) else -((2 * -a + b) / (2 * b))

/-- The drift mean in whole bits, once 16 offsets are held. -/
def Term.mean? (t : Term) : Option Int := if t.drift.length = 16 then some (roundDiv (t.drift.foldl (· + ·) 0) 16) else none

/-- The mean has reached DRIFTTHR bits: |sum| is at least 16 × DRIFTTHR. -/
def Term.drifted (t : Term) (thr : Nat) : Bool :=
  t.drift.length == 16 && decide (16 * thr ≤ (t.drift.foldl (· + ·) 0).natAbs)

/-- A correction that has fallen due: a new Ranging_Time, or a deactivation with reason 3 when EqD would leave 0 to the bit
count of T_eq. -/
def Dev.correctDrift (d : Dev) (h : Nat) : Dev :=
  match d.term? h with
  | none => d
  | some t =>
    if !d.standby ∧ t.state = 4 ∧ t.eqdWait = 0 ∧ t.drifted (discCfg d.objs t.chan).driftThr then
      let m := (t.mean?).getD 0
      let e := (t.eqd : Int) - m
      if e < 0 ∨ (teqBits d.objs t.chan : Int) < e then ((d.deactivate h true none).1).sight t.chan t.serial 3 0
      else
        (d.setTerm h fun t => { t with eqd := e.toNat, drift := [], guardBits := m.natAbs, guardFrames := 8, eqdWait := 8 }).ploam
          t.chan plRanging t.onu [e.toNat]
    else d

/-- A good burst ends a channel's upstream LOS, unless TREE_LOS holds it (03 R98). -/
def Dev.goodLight (d : Dev) (g : Nat) : Dev := if (d.tree (g / 4)).losPin then d else d.setChan g fun c => { c with los := false }

/-! ### Ranging (04 R116) -/

/-- A `RERANGE` of the terminal that is directing windows. -/
def Dev.rerange? (d : Dev) (t : Nat) : Option Exec :=
  d.execs.find? fun e => e.op == 0x0409 && e.started && e.armed.isNone && ent e.par 16 2 == t

/-- EqD in bits for a measured round-trip delay: T_eq − RTD at r_up, rounded to the nearest bit. -/
def eqdOf (objs : List VObj) (g rtd : Nat) : Int :=
  roundDiv ((teqBits objs g * 100000 : Nat) - (rtd * upRate5 (chanCfg objs g) : Nat) : Int) 100000

/-- A delay in reach of ranging: not above T_eq, and not below RTD_min − 512 ns. -/
def rangeReach (objs : List VObj) (g rtd : Nat) : Bool :=
  decide (rtd * upRate5 (chanCfg objs g) ≤ teqBits objs g * 100000) && decide (rtdMin10 (discCfg objs g) ≤ 10 * rtd + 5120)

/-- An all-zero value never matches a registration ID (04 R107). -/
def regMatches (stored got : Bytes) : Bool := !allZero stored && stored == slice got 0 36

/-- Correction of a burst timestamp in ns (12 Table 12-3). -/
def burstCorrection (c : ChanCfg) : Int :=
  match c.mode, c.upRate with
  | 1, _ => -240
  | _, 1 => -266
  | _, 2 => -214
  | _, _ => -188

/-- The sent window of a kind and terminal whose burst is still to come, the oldest first. -/
def Chan.windowOf? (c : Chan) (kind term : Nat) : Option Window :=
  c.windows.find? fun w => w.kind == kind && w.term == term && w.sent && !w.used

/-- The window has passed. -/
def Chan.useWindow (c : Chan) (w : Window) : Chan :=
  { c with windows := c.windows.map fun x => if x = w then { x with used := true } else x }

/-- Round-trip delay in ns of a ranging burst (04 R116): the corrected instant of its delimiter, less the instant at which the grant's
burst start was due, less the preamble of profile 0. -/
def rtdOf (objs : List VObj) (g : Nat) (w : Window) (delim : Nat) : Int :=
  let c := chanCfg objs g
  let due : Int := (w.grantFrame * frameNs : Nat)
    + roundDiv (((8 * w.grantStart + (profileOr0 objs g 0).preBits) * 100000 : Nat) : Int) (upRate5 c)
  sdiff 64 (wrap 64 ((delim : Int) + burstCorrection c)) (wrap 64 due)

/-- A good burst with its final settings teaches the bearing (03 R91). -/
def Term.learn (t : Term) (x : RxFinal) : Term :=
  { t with final := x, locks := (x.lock.toNat :: t.locks).take 16, locked := true, count := min (t.count + 1) 63 }

/-- RANGED and LOST become OPERATING on a good burst (04 Table 4-6); a standby's records follow the mirror. -/
def Dev.goodState (d : Dev) (t : Term) : Term :=
  if !d.standby ∧ (t.state = 3 ∨ t.state = 5) then { t.enter 4 d.now with lossOfBurst := false } else t

/-- A ranging window has passed without a good burst: the next window is requested, up to RANGEATT (04 R116); with discovery turned off a
`RERANGE` gets no further one (04 R119). It is no missing burst of 03 R95 (DESIGN CHOICE, log entry 160). -/
def Dev.missRanging (d : Dev) (h : Nat) (t : Term) : Dev :=
  let d := d.setTerm h fun x => { x with attempts := x.attempts + 1 }
  if (discCfg d.objs t.chan).rangeAtt ≤ t.attempts + 1 then d
  else if !(discCfg d.objs t.chan).on then
    match d.rerange? h with
    | some e => (d.setTerm h fun x => { x with attempts := 0 }).finish e .done [0xFFFFFFFF, 3]
    | none => d
  else
    let rtd := if t.state = 2 then t.rtdCoarse else teqNs d.objs t.chan
    d.setChan t.chan fun c => { c with ranging := c.ranging ++ [(h, rtd)] }

/-- A new EqD goes out in Ranging_Time; the next one waits 8 frames (04 R118). The drift record starts again (after a `RERANGE` a DESIGN
CHOICE, log entry 160: only R118 speaks of clearing it, at a correction). -/
def Dev.sendEqd (d : Dev) (h : Nat) (t : Term) (eqd : Nat) : Dev :=
  (d.setTerm h fun x => { x with eqd, drift := [], eqdWait := 8, heldEqd := none, attempts := 0 }).ploam t.chan plRanging t.onu [eqd]

/-- The success of a `RERANGE`: Ranging_Time, and its reply. -/
def Dev.rerangeDone (d : Dev) (h : Nat) (t : Term) (e : Exec) (eqd : Nat) : Dev :=
  (d.sendEqd h t eqd).finish e .done [eqd, wrap 32 ((eqd : Int) - t.eqd)]

/-- A frame of the 8 between two EqDs of each terminal has passed (04 R118): an EqD that waited for it goes out. -/
def Dev.eqdFrame (d : Dev) : Dev :=
  let d := { d with terms := d.terms.mapAll fun _ (t : Term) => { t with eqdWait := t.eqdWait - 1 } }
  (d.terms.filter fun t => t.2.eqdWait == 0 && t.2.heldEqd.isSome).foldl (fun d t =>
    match d.rerange? t.1, t.2.heldEqd with
    | some e, some eqd => d.rerangeDone t.1 t.2 e eqd
    | _, _ => d.setTerm t.1 fun x => { x with heldEqd := none }) d

/-- A good burst of a `RERANGE` (04 R119): it teaches the bearing, and a LOST terminal has returned (Table 4-6). The terminal answers with
its EqD in force, which is taken out of the measured delay (log entry 30). An EqD within 8 frames of the last one waits
(DESIGN CHOICE, log entry 160). -/
def Dev.rerangeGood (d : Dev) (rx : RangingRx) (t : Term) (e : Exec) (rtd : Int) : Dev :=
  let g := t.chan
  let r5 := upRate5 (chanCfg d.objs g)
  let d := d.setTerm rx.term fun x => d.chooseProfile (d.goodState { x.learn rx.final with missing := 0, noDelim := 0 })
  let off := roundDiv (rtd * r5 - (teqBits d.objs g * 100000 : Nat)) 100000
  let eqd := (t.eqd : Int) - off
  let own := rtd - roundDiv ((t.eqd : Int) * 100000) r5
  if eqd < 0 ∨ own < 0 ∨ !rangeReach d.objs g own.toNat then
    (d.setTerm rx.term fun x => { x with attempts := 0 }).finish e .done [0xFFFFFFFF, 2]
  else if t.eqdWait ≠ 0 then d.setTerm rx.term fun x => { x with heldEqd := some eqd.toNat, attempts := 0 }
  else d.rerangeDone rx.term t e eqd.toNat

/-- The PLOAM message of a good ranging burst: one that fails its check is discarded and counted, another is copied (03 R100). -/
def Dev.registration (d : Dev) (rx : RangingRx) (t : Term) (delim : Nat) : Dev :=
  let at_ := wrap 64 ((delim : Int) + burstCorrection (chanCfg d.objs t.chan))
  let d := d.setTerm rx.term fun x => { x with burstTime := at_ }
  if d.ploamPasses t rx.msg then d.copyPloam t.chan rx.term at_ rx.msg rx.consumer else d.count (ctrTerm rx.term 1)

/-- A good burst of an ASSIGNED terminal (04 Table 4-6). A Registration message that fails its check matches no registration ID. A terminal
whose ID differs and whose delay is out of reach is listed with reason 4 (both DESIGN CHOICE, log entry 160). -/
def Dev.rangingGood (d : Dev) (rx : RangingRx) (t : Term) (w : Window) (rtd : Int) : Dev :=
  let g := t.chan
  if w.regChk ∧ !(d.ploamPasses t rx.msg && regMatches t.regId rx.regId) then ((d.deactivate rx.term true none).1).sight g t.serial 4 rtd.toNat
  else if rtd < 0 ∨ !rangeReach d.objs g rtd.toNat then ((d.deactivate rx.term true none).1).sight g t.serial 3 rtd.toNat
  else (d.setTerm rx.term fun x => x.enter 3 d.now).sendEqd rx.term t (eqdOf d.objs g rtd.toNat).toNat

/-- The event RANGING_BURST (04 R116, R119): a ranging window that a sent plan has opened for the terminal has passed, with its burst or
without one. -/
def rangingBurst (rx : RangingRx) (d : Dev) : Dev :=
  match d.term? rx.term with
  | none => d
  | some t =>
    let re := d.rerange? rx.term
    if d.standby ∨ t.chan ≠ rx.chan ∨ !(t.state == 2 || re.isSome) then d
    else
      match (d.chan rx.chan).windowOf? 6 rx.term with
      | none => d
      | some w =>
        let d := d.setChan rx.chan fun c => c.useWindow w
        match rx.delim, rx.good with
        | some at_, true =>
          let rtd := rtdOf d.objs rx.chan w at_
          let d := (d.goodLight rx.chan).registration rx t at_
          match re with
          | some e => d.rerangeGood rx t e rtd
          | none => d.rangingGood rx t w rtd
        | _, _ => d.missRanging rx.term t

/-- See `rangingBurst`. -/
def execRangingBurst (rx : RangingRx) (s : State) : Host.Outcome State Fault Refusal := live (rangingBurst rx) s

/-- The event RANGING_ATTEMPTS_EXHAUSTED: RANGEATT windows have passed without a good burst (04 Table 4-6, R119). -/
def rangingExhausted (h : Nat) (d : Dev) : Dev :=
  match d.term? h with
  | none => d
  | some t =>
    if d.standby ∨ t.attempts < (discCfg d.objs t.chan).rangeAtt then d
    else
      match d.rerange? h with
      | some e => (d.setTerm h fun x => { x with attempts := 0 }).finish e .done [0xFFFFFFFF, 1]
      | none => if t.state = 2 then ((d.deactivate h true none).1).count (ctrTerm h 8) else d

/-- See `rangingExhausted`. -/
def execRangingAttemptsExhausted (term : Nat) (s : State) : Host.Outcome State Fault Refusal := live (rangingExhausted term) s

/-! ### Discovery (04 R113) -/

/-- Assign_ONU-ID, and the record moves to ASSIGNED with a ranging window pending. -/
def Dev.assign (d : Dev) (h rtd : Nat) (again : Bool) : Dev :=
  match d.term? h with
  | none => d
  | some t =>
    let id := if again then t.onu else if t.onuId ≠ 0xFFFF then t.onuId else d.freeId t.chan h
    let d := d.setTerm h fun x =>
      { x.enter 2 d.now with assigned := if x.onuId ≠ 0xFFFF then 0xFFFF else id, rtdCoarse := rtd, attempts := 0
                             activations := sat 8 (x.activations + 1) }
    (d.ploam t.chan plAssign id [t.serial]).setChan t.chan fun c => { c with ranging := c.ranging ++ [(h, rtd)] }

/-- The `TERMINAL_DISABLE` drain of a record is running, or the record is DISABLED (04 R123). -/
def Dev.termStopped (d : Dev) (h : Nat) (t : Term) : Bool := t.state == 6 || d.draining (.terminal h)

/-- What the Keepers do with a decoded serial number. -/
def Dev.onSerial (d : Dev) (g serial rtd : Nat) : Dev :=
  match List.find? (fun t : Nat × Term => t.2.serial == serial && t.2.chan / 4 == g / 4) d.terms with
  | none => d.sight g serial 1 rtd
  | some (h, t) =>
    if d.termStopped h t then d.sight g serial 5 rtd
    else if t.chan ≠ g then d.sight g serial 2 rtd
    else if !inReach d.objs g rtd then d.sight g serial 3 rtd
    else if t.state = 1 then d.assign h rtd false
    else
      let id := t.onu
      let d := ((d.deactivate h false none).1).count (ctrTerm h 10)
      (d.setTerm h fun x => { x with assigned := if x.onuId ≠ 0xFFFF then 0xFFFF else id }).assign h rtd true

/-- Length of a serial-number burst in bits (04 R110). -/
def serialBits (c : ChanCfg) (p : Profile) : Nat := p.preBits + 8 * p.delimLen + 8 * (60 + if p.fec then parityQ c else 0)

/-- What the search of a whole discovery window finds (03 R94): the first accepted position, and whether a second one lies within the
length of a serial-number burst after it. -/
def searchWindow (c : ChanCfg) (p : Profile) (bits : List Bool) : Option (Nat × Bool) :=
  (searchDelim p.delimiter p.tol 0 bits).map fun i =>
    (i, (searchDelim p.delimiter p.tol 0 ((bits.drop (i + 1)).take (serialBits c p + 8 * p.delimLen - 1))).isSome)

/-- Coarse round-trip delay in ns (04 R113): the arrival of the burst whose delimiter begins at a position of the window, in bits, less the
instant at which the grant's burst start was due, less the random delay. The receive axis lies T_eq behind (05 R126). -/
def coarseRtd (objs : List VObj) (g : Nat) (w : Window) (pos randDelay : Nat) : Int :=
  let c := chanCfg objs g
  let bits : Int := (8 * w.first + pos + teqBits objs g : Nat) - (8 * (w.grantFrame * rxFrameBytes c + w.grantStart) : Nat)
    - (profileOr0 objs g 0).preBits
  roundDiv (bits * 100000) (upRate5 c) - randDelay

/-- What the Keepers do with an accepted burst of a discovery window (03 R94, 04 R113): a collision activates nothing. -/
def Dev.discovered (d : Dev) (rx : DiscoveryRx) (second : Bool) (rtd : Int) : Dev :=
  if second ∨ rx.badWithEnergy then d.count (ctrChan rx.chan 1)
  else if rx.unsupported then ((d.goodLight rx.chan).count (ctrChan rx.chan 0)).sight rx.chan rx.serial 6 rtd.toNat
  else if rx.decoded then (d.goodLight rx.chan).onSerial rx.chan rx.serial rtd.toNat
  else d

/-- The event DISCOVERY_BURST: a discovery window that a sent plan has opened has passed; it is searched once (03 R94). -/
def discoveryBurst (rx : DiscoveryRx) (d : Dev) : Dev :=
  if d.standby ∨ !d.chanOn rx.chan then d
  else
    match (d.chan rx.chan).windowOf? 5 0xFFFF with
    | none => d
    | some w =>
      let d := d.setChan rx.chan fun c => c.useWindow w
      match searchWindow (chanCfg d.objs rx.chan) (profileOr0 d.objs rx.chan 0) (rx.bits.take (8 * w.len)) with
      | none => d
      | some (pos, second) => d.discovered rx second (coarseRtd d.objs rx.chan w pos rx.randDelay)

/-- See `discoveryBurst`. -/
def execDiscoveryBurst (rx : DiscoveryRx) (s : State) : Host.Outcome State Fault Refusal := live (discoveryBurst rx) s

/-! ### Loss and bearings: events -/

/-- The event LOSS_OF_BURST: 4 consecutive missing bursts (03 R95, 04 Table 4-6). -/
def lossOfBurst (h : Nat) (d : Dev) : Dev :=
  match d.term? h with
  | none => d
  | some t =>
    if d.standby ∨ t.missing < 4 then d
    else if t.state = 3 then ((d.deactivate h true none).1).count (ctrTerm h 8)
    else if t.state = 4 then
      d.setTerm h fun x => { x.enter 5 d.now with missing := x.missing, lossOfBurst := true
                                                  lostDue := d.inNs ((discCfg d.objs t.chan).lostTime * 1000000) }
    else d

/-- See `lossOfBurst`. -/
def execLossOfBurst (term : Nat) (s : State) : Host.Outcome State Fault Refusal := live (lossOfBurst term) s

/-- The event LOSTTIME_EXPIRY of a LOST terminal (04 Table 4-6). -/
def losttimeExpiry (h : Nat) (d : Dev) : Dev :=
  match d.term? h with
  | none => d
  | some t =>
    if t.state = 5 ∧ !d.standby then (((d.goCounter t.lostDue).deactivate h true none).1).count (ctrTerm h 9) else d

/-- See `losttimeExpiry`. -/
def execLosttimeExpiry (term : Nat) (s : State) : Host.Outcome State Fault Refusal := live (losttimeExpiry term) s

/-- The event BEARING_LOCK_LOSS: 4 consecutive bursts without an accepted delimiter (03 R92). -/
def bearingLockLoss (h : Nat) (d : Dev) : Dev :=
  d.setTerm h fun t => if 4 ≤ t.noDelim then { t.clearBearing with noDelim := t.noDelim } else t

/-- See `bearingLockLoss`. -/
def execBearingLockLoss (term : Nat) (s : State) : Host.Outcome State Fault Refusal := live (bearingLockLoss term) s

/-- The event BEARING_LOAD: the terminal's bearing, or the cold preset for an unlocked one and in a discovery window (03
R90). -/
def bearingLoad (g h : Nat) (discovery : Bool) (d : Dev) : Dev :=
  let preset := BitVec.ofNat 128 (Tbl.getD (α := Nat) (d.tree (g / 4)).presets (4 * (g % 4) + (chanCfg d.objs g).upRate) 0)
  match d.term? h with
  | some t =>
    if t.locked ∧ !discovery ∧ t.chan = g then d.setChan g fun c => { c with loaded := some h, loadedBits := t.bearing }
    else d.setChan g fun c => { c with loaded := none, loadedBits := preset }
  | none => d.setChan g fun c => { c with loaded := none, loadedBits := preset }

/-- See `bearingLoad`. -/
def execBearingLoad (g term : Nat) (discovery : Bool) (s : State) : Host.Outcome State Fault Refusal :=
  live (bearingLoad g term discovery) s

/-- The event UPSTREAM_LOS: LOSFR consecutive granted frames without a delimiter (03 R98). -/
def upstreamLos (g : Nat) (d : Dev) : Dev :=
  if (chanCfg d.objs g).losFr ≤ (d.chan g).losRun ∧ d.mode g ≠ 0 then d.setChan g fun c => { c with los := true } else d

/-- See `upstreamLos`. -/
def execUpstreamLos (g : Nat) (s : State) : Host.Outcome State Fault Refusal := live (upstreamLos g) s

/-- The event TREE_LOS_ASSERT: every channel of the tree is in upstream LOS at once (03 R98). -/
def treeLosAssert (t : Nat) (d : Dev) : Dev :=
  let d := d.setTree t fun x => { x with losPin := true }
  (List.range 4).foldl (fun d c => d.setChan (4 * t + c) fun x => { x with los := true }) d

/-- See `treeLosAssert`. -/
def execTreeLosAssert (tree : Nat) (s : State) : Host.Outcome State Fault Refusal :=
  live (fun d => if tree < 48 then treeLosAssert tree d else d) s

/-- The event TREE_LOS_DEASSERT: the channels leave LOS at their first good burst. -/
def treeLosDeassert (t : Nat) (d : Dev) : Dev := d.setTree t fun x => { x with losPin := false }

/-- See `treeLosDeassert`. -/
def execTreeLosDeassert (tree : Nat) (s : State) : Host.Outcome State Fault Refusal :=
  live (fun d => if tree < 48 then treeLosDeassert tree d else d) s

/-! ### Commands of group 0x04 -/

/-- Step 4 of a command of "0 and the owning tenant" that names a terminal at entry byte 16. -/
def ownsTerm16 (d : Dev) (dom : Nat) (p : Bytes) : Bool := d.termOwner (ent p 16 2) == dom

/-- The terminal that a command names at entry byte 16. -/
def namesTerm16 (_ : Dev) (p : Bytes) : List DrainObj := [.terminal (ent p 16 2)]

/-- Terminals on a channel, one handle left out. -/
def Dev.termsOn (d : Dev) (g self : Nat) : Nat := (d.terms.filter fun t => t.2.chan == g && t.1 != self).length

/-- Step 6 of `TERMINAL_SET` (04 R105, R106). -/
def termSetForbid (d : Dev) (e : Exec) : Option (Status × List Nat) :=
  let h := ent e.par 16 2
  let g := ent e.par 18 1
  let id := ent e.par 20 2
  let serial := ent e.par 24 8
  let clash := d.terms.any (fun t => t.1 != h && t.2.serial == serial && t.2.chan / 4 == g / 4)
    || (id != 0xFFFF && (d.heldIds g h).contains id)
  match d.term? h with
  | some t =>
    if t.state ≠ 1 ∧ t.state ≠ 6 ∧ (t.chan ≠ g ∨ t.serial ≠ serial ∨ t.onuId ≠ id) then some (.conflict, [])
    else if clash then some (.conflict, [])
    else if t.chan ≠ g ∧ 256 ≤ d.termsOn g h then some (.noRoom, []) else none
  | none => if clash then some (.conflict, []) else if 256 ≤ d.termsOn g h then some (.noRoom, []) else none

/-- `TERMINAL_SET` (04 R105, Table 4-2). A change of PROFPIN leaves the profile in force as the current one (04 R106, R120). -/
def cmdTerminalSet : CmdDef where
  op := 0x0401
  kind := fun _ _ _ => .perEntry
  tenant := some ownsTerm16
  names := fun _ p => [.terminal (ent p 16 2), .channel (ent p 18 1)]
  guarded := true
  form := fun p => decide (ent p 16 2 ≤ 24575) && decide (ent p 18 1 ≤ 191) && decide (ent p 19 1 ≤ 1)
    && (decide (ent p 20 2 ≤ 1020) || ent p 20 2 == 0xFFFF) && (decide (ent p 22 1 ≤ 3) || ent p 22 1 == 0xFF)
    && zeros 16 p [(23, 23), (32, 63)]
  forbid := termSetForbid
  run := fun e d =>
    let p := e.par
    let h := ent p 16 2
    let base := (d.term? h).getD { chan := 0, regChk := false, onuId := 0, profPin := ent p 22 1, serial := 0, since := d.now }
    let base := if base.profPin = ent p 22 1 then base else { base with profile := d.profileOf base, runs := [] }
    let t := { base with chan := ent p 18 1, regChk := bit (ent p 19 1) 0, onuId := ent p 20 2, profPin := ent p 22 1, serial := ent p 24 8 }
    { d with terms := d.terms.put h t }.ok e

/-- The command `TERMINAL_SET`. -/
def execTerminalSet (p : Packet) (s : State) : Host.Outcome State Fault Refusal := command cmdTerminalSet p s

/-- `CONFLICT` when the terminal at entry byte 16 has no record (02 R435). -/
def needTerm (d : Dev) (e : Exec) (f : Term → Option (Status × List Nat)) : Option (Status × List Nat) :=
  match d.term? (ent e.par 16 2) with
  | none => some (.conflict, [])
  | some t => f t

/-- An allocation, flow or key slot is still bound to the terminal (04 R108). -/
def Dev.termBound (d : Dev) (h : Nat) : Bool :=
  (d.allocs.any fun a => a.2.term == h) || (d.flows.any fun f => f.2.term == h)
  || ((lallocs d.objs).any fun a => a.term == h)
  || [2 * h, 2 * h + 1].any fun k => (d.key k).ctr || (d.key k).gcm

/-- `TERMINAL_DELETE` (04 R108). -/
def cmdTerminalDelete : CmdDef where
  op := 0x0402
  kind := fun _ _ _ => .perEntry
  tenant := some ownsTerm16
  names := namesTerm16
  guarded := true
  form := fun p => decide (ent p 16 2 ≤ 24575) && zeros 16 p [(18, 63)]
  forbid := fun d e => needTerm d e fun t =>
    if (t.state ≠ 1 ∧ t.state ≠ 6) ∨ d.termBound (ent e.par 16 2) then some (.conflict, []) else none
  run := fun e d => { d with terms := d.terms.del (ent e.par 16 2) }.ok e

/-- The command `TERMINAL_DELETE`. -/
def execTerminalDelete (p : Packet) (s : State) : Host.Outcome State Fault Refusal := command cmdTerminalDelete p s

/-- `TERMINAL_DISABLE` (04 R123). -/
def cmdTerminalDisable : CmdDef where
  op := 0x0403
  tenant := some ownsTerm16
  newWork := false
  names := namesTerm16
  form := fun p => decide (ent p 16 2 ≤ 24575) && limitOk (ent p 20 4) && zeros 16 p [(18, 19), (24, 63)]
  forbid := fun d e => needTerm d e fun t => if d.termStopped (ent e.par 16 2) t then some (.conflict, []) else none
  run := fun e d => (d.setTerm (ent e.par 16 2) fun t => { t with draining := true }).startDrain e (.terminal (ent e.par 16 2)) (ent e.par 20 4)

/-- The command `TERMINAL_DISABLE`. -/
def execTerminalDisable (p : Packet) (s : State) : Host.Outcome State Fault Refusal := command cmdTerminalDisable p s

/-- `TERMINAL_ENABLE` (04 R123): Disable_Serial_Number with the enable option. -/
def cmdTerminalEnable : CmdDef where
  op := 0x0404
  tenant := some ownsTerm16
  newWork := false
  names := namesTerm16
  form := fun p => decide (ent p 16 2 ≤ 24575) && zeros 16 p [(18, 63)]
  forbid := fun d e => needTerm d e fun t => if t.state ≠ 6 ∨ d.draining (.terminal (ent e.par 16 2)) then some (.conflict, []) else none
  run := fun e d =>
    let h := ent e.par 16 2
    match d.term? h with
    | some t => ((d.setTerm h fun t => t.enter 1 d.now).ploam t.chan plDisable plAll [t.serial, 1]).ok e
    | none => d.finish e .conflict []

/-- The command `TERMINAL_ENABLE`. -/
def execTerminalEnable (p : Packet) (s : State) : Host.Outcome State Fault Refusal := command cmdTerminalEnable p s

/-- `TERMINAL_DEACTIVATE` (04 R122). -/
def cmdTerminalDeactivate : CmdDef where
  op := 0x0405
  tenant := some ownsTerm16
  names := namesTerm16
  form := fun p => decide (ent p 16 2 ≤ 24575) && zeros 16 p [(18, 63)]
  forbid := fun d e => needTerm d e fun t => if t.state = 1 ∨ t.state = 6 then some (.conflict, []) else none
  run := fun e d =>
    let r := d.deactivate (ent e.par 16 2) true (some (e.dom, e.seq))
    r.1.finish e .done [0, sat 32 r.2]

/-- The command `TERMINAL_DEACTIVATE`. -/
def execTerminalDeactivate (p : Packet) (s : State) : Host.Outcome State Fault Refusal := command cmdTerminalDeactivate p s

/-- `TERMINAL_STATUS` (04 R124). The drift mean is held once 16 good bursts are recorded, and reads 0 before; a standby gives the one
that the mirror brings. -/
def cmdTerminalStatus : CmdDef where
  op := 0x0406
  tenant := some ownsTerm16
  read := true
  names := namesTerm16
  form := fun p => decide (ent p 16 2 ≤ 24575) && zeros 16 p [(18, 63)]
  forbid := fun d e => needTerm d e fun _ => none
  run := fun e d =>
    match d.term? (ent e.par 16 2) with
    | some t => d.finish e .done
        [t.onu * 65536 + d.profileOf t * 256 + t.state, if t.valid then t.eqd else 0,
         wrap 16 (if d.standby then t.meanAct else t.mean?.getD 0) * 65536 + (sat 8 t.missing) * 256 + t.activations, t.since % 2 ^ 32]
    | none => d.finish e .conflict []

/-- The command `TERMINAL_STATUS`. -/
def execTerminalStatus (p : Packet) (s : State) : Host.Outcome State Fault Refusal := command cmdTerminalStatus p s

/-- `DISCOVERY_SET` (04 R109 to R111). -/
def cmdDiscoverySet : CmdDef :=
  versionedCmd 0x0407 false (fun p => slice p 0 2) noRemoval (fun _ => true) fun p =>
    decide (ent p 16 2 ≤ 191) && decide (ent p 18 1 ≤ 1) && decide (ent p 24 4 ≤ 60000) && decide (ent p 20 4 ≤ ent p 24 4)
    && decide (ent p 24 4 - ent p 20 4 ≤ 20000) && (ent p 28 2 == 0 || within (ent p 28 2) 8 8000)
    && (ent p 30 1 == 0 || within (ent p 30 1) 8 32) && (ent p 32 2 == 0 || within (ent p 32 2) 10 10000)
    && decide (ent p 34 1 ≤ 8) && zeros 16 p [(19, 19), (35, 63)]

/-- The command `DISCOVERY_SET`. -/
def execDiscoverySet (p : Packet) (s : State) : Host.Outcome State Fault Refusal := command cmdDiscoverySet p s

/-- `DISCOVERY_READ` (04 R114); a DRY one keeps the list. -/
def cmdDiscoveryRead : CmdDef where
  op := 0x0408
  read := true
  form := fun p => aligned (ent p 16 8) 8 && decide (ent p 24 2 ≤ 191) && decide (ent p 26 1 ≤ 1) && zeros 16 p [(27, 63)]
  run := fun e d =>
    let g := ent e.par 24 2
    let l := (d.chan g).disc
    let d := d.hostWrite (ent e.par 16 8) (l.flatMap DiscEntry.bytes ++ List.replicate 32 0#8)
    let d := if bit (ent e.par 26 1) 0 ∧ !Packet.dry e.pkt then d.setChan g fun c => { c with disc := [] } else d
    d.finish e .done [l.length]

/-- The command `DISCOVERY_READ`. -/
def execDiscoveryRead (p : Packet) (s : State) : Host.Outcome State Fault Refusal := command cmdDiscoveryRead p s

/-- `RERANGE` (04 R119). -/
def cmdRerange : CmdDef where
  op := 0x0409
  names := namesTerm16
  form := fun p => decide (ent p 16 2 ≤ 24575) && zeros 16 p [(18, 63)]
  forbid := fun d e => needTerm d e fun t =>
    if t.state ≠ 4 ∨ !(discCfg d.objs t.chan).on ∨ (d.rerange? (ent e.par 16 2)).any (fun x => !(x.dom == e.dom && x.seq == e.seq))
    then some (.conflict, []) else none
  run := fun e d =>
    let h := ent e.par 16 2
    match d.term? h with
    | some t =>
      let d := d.setTerm h fun x => { x with attempts := 0 }
      (d.setChan t.chan fun c => { c with ranging := c.ranging ++ [(h, teqNs d.objs t.chan)] }).park e
    | none => d.finish e .conflict []

/-- The command `RERANGE`. -/
def execRerange (p : Packet) (s : State) : Host.Outcome State Fault Refusal := command cmdRerange p s

/-- `TERMINAL_REGID_SET` (04 R107). -/
def cmdTerminalRegidSet : CmdDef where
  op := 0x040A
  kind := fun _ _ _ => .perEntry
  tenant := some ownsTerm16
  names := namesTerm16
  form := fun p => decide (ent p 16 2 ≤ 24575) && zeros 16 p [(18, 19), (56, 63)]
  forbid := fun d e => needTerm d e fun _ => none
  run := fun e d => (d.setTerm (ent e.par 16 2) fun t => { t with regId := slice e.par 4 36 }).ok e

/-- The command `TERMINAL_REGID_SET`. -/
def execTerminalRegidSet (p : Packet) (s : State) : Host.Outcome State Fault Refusal := command cmdTerminalRegidSet p s

/-! ### Bearings: commands of group 0x03 -/

/-- `BEARING_READ` (03 R89). -/
def cmdBearingRead : CmdDef where
  op := 0x0305
  tenant := some ownsTerm16
  read := true
  names := namesTerm16
  form := fun p => decide (ent p 16 2 ≤ 24575) && zeros 16 p [(18, 63)]
  forbid := fun d e => needTerm d e fun _ => none
  run := fun e d =>
    match d.term? (ent e.par 16 2) with
    | some t =>
      let b := t.bearing
      d.finish e .done [b.toNat / 2 ^ 96, b.toNat / 2 ^ 64 % 2 ^ 32, b.toNat / 2 ^ 32 % 2 ^ 32, b.toNat % 2 ^ 32]
    | none => d.finish e .conflict []

/-- The command `BEARING_READ`. -/
def execBearingRead (p : Packet) (s : State) : Host.Outcome State Fault Refusal := command cmdBearingRead p s

/-- `BEARING_CLEAR` (03 R92); a burst is one event, so no clear falls inside it (log entry 24). -/
def cmdBearingClear : CmdDef where
  op := 0x0306
  kind := fun _ _ _ => .perEntry
  names := namesTerm16
  form := fun p => decide (ent p 16 2 ≤ 24575) && zeros 16 p [(18, 63)]
  forbid := fun d e => needTerm d e fun t => if t.valid then none else some (.conflict, [])
  run := fun e d => (d.setTerm (ent e.par 16 2) Term.clearBearing).ok e

/-- The command `BEARING_CLEAR`. -/
def execBearingClear (p : Packet) (s : State) : Host.Outcome State Fault Refusal := command cmdBearingClear p s

end Sys2Proof.Machine
end

