-- ==== Sys2Proof/Machine/Channels.lean ====
section
/-!
DEFINITION. Tree channels: mode, enable and disable, burst profiles, status, management rings, PLOAM and OMCI carriage,
module access (03).
-/
namespace Sys2Proof.Machine

/-! ### CHANNEL_MODE_SET, BURST_PROFILE_SET (03 R76, R86) -/

/-- `CHANNEL_MODE_SET` (03 Table 3-3). -/
def cmdChannelModeSet : CmdDef :=
  versionedCmd 0x0301 false (fun p => slice p 0 2) noRemoval (fun _ => true) fun p =>
    decide (ent p 16 2 ≤ 191) && decide (ent p 18 1 ≤ 2)
    && (if ent p 18 1 = 2 then within (ent p 19 1) 1 3 else ent p 19 1 == 0)
    && (ent p 20 2 == 0 || within (ent p 20 2) 64 16000) && bits (ent p 22 1) 7 2 == 0 && decide (ent p 23 1 ≤ 32)
    && (ent p 24 1 == 0 || within (ent p 24 1) 2 64) && zeros 16 p [(25, 63)]

/-- The command `CHANNEL_MODE_SET`. -/
def execChannelModeSet (p : Packet) (s : State) : Host.Outcome State Fault Refusal := command cmdChannelModeSet p s

/-- `BURST_PROFILE_SET` (03 Table 3-4); FLAGS bit 1 removes the profile. -/
def cmdBurstProfileSet : CmdDef :=
  versionedCmd 0x0304 false (fun p => slice p 0 3) (fun p => bit (ent p 19 1) 1)
    (fun p => decide (ent p 16 2 ≤ 191) && decide (ent p 18 1 ≤ 3) && bits (ent p 19 1) 7 2 == 0 && zeros 16 p [(23, 23), (40, 63)])
    fun p =>
    decide (ent p 16 2 ≤ 191) && decide (ent p 18 1 ≤ 3) && bits (ent p 19 1) 7 2 == 0 && decide (1 ≤ ent p 20 1)
    && ((ent p 21 1 == 4 && decide (ent p 22 1 ≤ 4) && zeros 16 p [(36, 39)]) || (ent p 21 1 == 8 && decide (ent p 22 1 ≤ 8)))
    && zeros 16 p [(23, 23), (40, 63)]

/-- The command `BURST_PROFILE_SET`. -/
def execBurstProfileSet (p : Packet) (s : State) : Host.Outcome State Fault Refusal := command cmdBurstProfileSet p s

/-! ### CHANNEL_ENABLE, CHANNEL_DISABLE (03 R78) -/

/-- The channel that a command names at entry byte 16. -/
def namesChan16 (_ : Dev) (p : Bytes) : List DrainObj := [.channel (ent p 16 2)]

/-- `CHANNEL_ENABLE`: the channel restarts at the next frame instant. -/
def cmdChannelEnable : CmdDef where
  op := 0x0302
  newWork := false
  names := namesChan16
  form := fun p => decide (ent p 16 2 ≤ 191) && zeros 16 p [(18, 63)]
  forbid := fun d e =>
    let g := ent e.par 16 2
    if !(d.chan g).disabled ∨ d.draining (.channel g) ∨ d.mode g = 0 then some (.conflict, []) else none
  run := fun e d => (d.setChan (ent e.par 16 2) fun c => { c with restart := true }).ok e

/-- The command `CHANNEL_ENABLE`. -/
def execChannelEnable (p : Packet) (s : State) : Host.Outcome State Fault Refusal := command cmdChannelEnable p s

/-- `CHANNEL_DISABLE`. It ends a link-down hold (10 R266). A channel that `CHANNEL_ENABLE` has not yet restarted still counts as
disabled, and gives `CONFLICT` (DESIGN CHOICE, log entry 33). -/
def cmdChannelDisable : CmdDef where
  op := 0x0303
  newWork := false
  names := namesChan16
  form := fun p => decide (ent p 16 2 ≤ 191) && limitOk (ent p 20 4) && zeros 16 p [(18, 19), (24, 63)]
  forbid := fun d e =>
    let g := ent e.par 16 2
    if (d.chan g).disabled ∨ d.mode g = 0 then some (.conflict, []) else none
  run := fun e d =>
    let g := ent e.par 16 2
    (d.setChan g fun c => { c with disabled := true, restart := false, hold := none }).startDrain e (.channel g) (ent e.par 20 4)

/-- The command `CHANNEL_DISABLE`. -/
def execChannelDisable (p : Packet) (s : State) : Host.Outcome State Fault Refusal := command cmdChannelDisable p s

/-! ### CHANNEL_STATUS (03 R99) -/

/-- State code of a channel. -/
def Dev.chanState (d : Dev) (g : Nat) : Nat :=
  if d.mode g = 0 then 0 else if d.draining (.channel g) then 2 else if (d.chan g).disabled then 3 else 1

/-- `CHANNEL_STATUS`. -/
def cmdChannelStatus : CmdDef where
  op := 0x0307
  read := true
  names := namesChan16
  form := fun p => decide (ent p 16 2 ≤ 191) && zeros 16 p [(18, 63)]
  run := fun e d =>
    let g := ent e.par 16 2
    let on := d.terms.filter fun t => t.2.chan == g
    let lost := (on.filter fun t => t.2.lossOfBurst).length
    d.finish e .done
      [d.chanState g, b2n (d.chan g).los + 2 * b2n (d.tree (g / 4)).losPin + 4 * b2n (d.treeDark (g / 4)) + 256 * sat 8 lost,
       (on.filter fun t => t.2.valid).length, sat 32 (d.counter (ctrChan g 1))]

/-- The command `CHANNEL_STATUS`. -/
def execChannelStatus (p : Packet) (s : State) : Host.Outcome State Fault Refusal := command cmdChannelStatus p s

/-! ### Management rings (03 R102, R103) -/

/-- `MGMT_RING_SET`: base 0 removes the ring. -/
def cmdMgmtRingSet : CmdDef where
  op := 0x0308
  tenant := some fun _ _ _ => true
  form := fun p =>
    (ent p 16 8 == 0 || (aligned (ent p 16 8) 4096 && aligned (ent p 24 8) 8 && within (ent p 32 1) 4 12)) && zeros 16 p [(33, 63)]
  run := fun e d =>
    let p := e.par
    (d.setDom e.dom fun m => { m with mgmt := if ent p 16 8 = 0 then none
                                       else some { base := ent p 16 8, consWord := ent p 24 8, log2 := ent p 32 1 } }).ok e

/-- The command `MGMT_RING_SET`. -/
def execMgmtRingSet (p : Packet) (s : State) : Host.Outcome State Fault Refusal := command cmdMgmtRingSet p s

/-! ### PLOAM and OMCI upstream (03 R100, R101) -/

/-- The event UPSTREAM_PLOAM: the MIC is checked; a passing message is acted on, and copied where the channel says so. -/
def upstreamPloam (g h : Nat) (msg : Bytes) (consumer : Nat) (d : Dev) : Dev :=
  match d.term? h with
  | none => d
  | some t =>
    if t.chan ≠ g then d
    else if !d.ploamPasses t msg then d.count (ctrTerm h 1)
    else d.copyPloam g h t.burstTime msg consumer

/-- See `upstreamPloam`. -/
def execUpstreamPloam (g term : Nat) (msg : Bytes) (consumer : Nat) (s : State) : Host.Outcome State Fault Refusal :=
  live (upstreamPloam g term msg consumer) s

/-- The event UPSTREAM_OMCI: the CMAC is checked, and a passing message goes to the owning domain's ring. -/
def upstreamOmci (g h : Nat) (msg : Bytes) (consumer : Nat) (d : Dev) : Dev :=
  match d.term? h with
  | none => d
  | some t =>
    if t.chan ≠ g then d
    else if !Config.omciMicOk (Config.deriveOmciIk (d.mode g) (d.sessionKey t)) msg then d.count (ctrTerm h 2)
    else
      match (d.dom (d.termOwner h)).mgmt with
      | some r => d.toMgmt (d.termOwner h) r 1 h g t.burstTime msg consumer
      | none => d.count (ctrChan g 5)

/-- See `upstreamOmci`. -/
def execUpstreamOmci (g term : Nat) (msg : Bytes) (consumer : Nat) (s : State) : Host.Outcome State Fault Refusal :=
  live (upstreamOmci g term msg consumer) s

/-! ### OMCI_SEND (03 R104) -/

/-- `OMCI_SEND`. It names the terminal, and the channel that carries its message (03 Table 3-8). -/
def cmdOmciSend : CmdDef where
  op := 0x0309
  buffer := true
  tenant := some fun d dom p => d.termOwner (field p 0 2) == dom
  names := fun d p => .terminal (field p 0 2) :: ((d.termChan? (field p 0 2)).map DrainObj.channel).toList
  form := fun p => decide (field p 0 2 ≤ 24575) && allZero (slice p 2 6) && within p.length 9 1984
  forbid := fun d e =>
    match d.term? (field e.par 0 2) with
    | none => some (.conflict, [])
    | some t => if !t.valid then some (.conflict, []) else if 4 ≤ t.omci.length then some (.busy, []) else none
  run := fun e d =>
    let h := field e.par 0 2
    let msg := e.par.drop 8
    (d.setTerm h fun t =>
      { t with omci := t.omci ++ [(e.dom, e.seq, msg ++ beBytes 4 (Config.omciMic (Config.deriveOmciIk (d.mode t.chan) (d.sessionKey t)) msg).toNat)] }).park e

/-- The command `OMCI_SEND`. -/
def execOmciSend (p : Packet) (s : State) : Host.Outcome State Fault Refusal := command cmdOmciSend p s

/-! ### MODULE_ACCESS (03 R80, R81) -/

/-- I2C master of a tree. -/
def masterOf (tree : Nat) : Nat := tree / 3

/-- Accesses of a master that have started, with their place in the order of starts: `[1]` runs, `[0, n]` waits. -/
def Dev.accesses (d : Dev) (m : Nat) : List Exec :=
  d.execs.filter fun e => e.op == 0x030A && masterOf (ent e.par 16 1) == m && !e.aux.isEmpty

/-- The transaction of a started access begins: the module is selected and addressed. -/
def Dev.startAccess (d : Dev) (e : Exec) : Dev :=
  let p := e.par
  (d.park { e with aux := [1] }).emit (.i2c (ent p 16 1) (ent p 17 1 == 0) (ent p 18 1) (ent p 20 1)
    (if ent p 17 1 = 0 then [] else slice p 8 (ent p 21 1)))

/-- `MODULE_ACCESS` (03 Table 3-3A): one access of a master runs at a time, in the order of starts. -/
def cmdModuleAccess : CmdDef where
  op := 0x030A
  form := fun p =>
    decide (ent p 16 1 ≤ 47) && decide (ent p 17 1 ≤ 1) && decide (ent p 18 1 ≤ 127) && decide (ent p 19 1 ≤ 1)
    && within (ent p 21 1) 1 16 && decide (ent p 20 1 + ent p 21 1 ≤ 256) && (ent p 17 1 == 1 || zeros 16 p [(24, 39)])
    && zeros 16 p [(22, 23), (40, 63)]
  run := fun e d =>
    let l := d.accesses (masterOf (ent e.par 16 1))
    if l.isEmpty then d.startAccess e else d.park { e with aux := [0, 1 + maxBy l fun x => x.aux.getD 1 0] }

/-- The command `MODULE_ACCESS`. -/
def execModuleAccess (p : Packet) (s : State) : Host.Outcome State Fault Refusal := command cmdModuleAccess p s

/-- The access that runs on a master. -/
def Dev.access? (d : Dev) (m : Nat) : Option Exec := (d.accesses m).find? fun e => e.aux == [1]

/-- The next waiting access of a master begins, when none runs. -/
def Dev.nextAccess (d : Dev) (m : Nat) : Dev :=
  if (d.access? m).isSome then d
  else
    match sortBy (fun e : Exec => e.aux.getD 1 0) (d.accesses m) with
    | e :: _ => d.startAccess e
    | [] => d

/-- The event MODULE_ACCESS_COMPLETE: STOP is sent; `nack` tells where the module answered with a NACK. -/
def moduleAccessComplete (m : Nat) (nack : Option Nat) (data : Bytes) (d : Dev) : Dev :=
  match d.access? m with
  | none => d
  | some e =>
    let n := ent e.par 21 1
    let got := slice (data.take n) 0 16
    let d := match nack with
      | some k => d.finish e .conflict [k % 256]
      | none => d.finish e .done (if ent e.par 17 1 = 0 then (List.range 4).map fun i => field got (4 * i) 4 else [n])
    d.nextAccess m

/-- See `moduleAccessComplete`. -/
def execModuleAccessComplete (master : Nat) (nack : Option Nat) (data : Bytes) (s : State) : Host.Outcome State Fault Refusal :=
  live (moduleAccessComplete master nack data) s

/-- The event MODULE_BUS_TIMEOUT: SCL held low for more than 25 ms; the bus is freed. -/
def moduleBusTimeout (m : Nat) (d : Dev) : Dev :=
  match d.access? m with
  | none => d
  | some e => ((d.emit (.i2cFree m)).finish e .busy []).nextAccess m

/-- See `moduleBusTimeout`. -/
def execModuleBusTimeout (master : Nat) (s : State) : Host.Outcome State Fault Refusal := live (moduleBusTimeout master) s

end Sys2Proof.Machine
end

