-- ==== Sys2Proof/Machine/Parser.lean ====
section
/-!
DEFINITION. The parser: header list, key vector, PFLAGS, malformed frames (07 R174 to R177).
-/
namespace Sys2Proof.Machine

/-- What a parse has found (07 Tables 7-2 and 7-3). -/
structure Parse where
  hcount  : Nat := 0
  da      : Nat := 0
  sa      : Nat := 0
  tags    : Nat := 0
  otpid   : Nat := 0
  otci    : Nat := 0
  itpid   : Nat := 0
  itci    : Nat := 0
  etype   : Nat := 0
  mpls    : Nat := 0
  labels  : Nat := 0
  ipver   : Nat := 0
  tclass  : Nat := 0
  proto   : Nat := 0
  ttl     : Nat := 0
  frag    : Nat := 0
  srcAddr : Nat := 0
  dstAddr : Nat := 0
  sport   : Nat := 0
  dport   : Nat := 0
  tcpFlags : Nat := 0
  l4type  : Nat := 0
  flowLabel : Nat := 0
  tunId   : Nat := 0
  pdepth  : Bool := false
  isFrag  : Bool := false
  unknown : Bool := false
  csumBad : Bool := false
  ipOpt   : Bool := false
  ipv6Ext : Bool := false
  tunnel  : Bool := false
  ttlLow  : Bool := false
  mcast   : Bool := false
  bcast   : Bool := false
  /-- Malformed on the header alone, and by a comparison with the frame's length, which waits for the tail. -/
  malHead : Bool := false
  malTail : Bool := false
  /-- End of the IP payload. -/
  ipEnd   : Nat := 0
  /-- Place of the outer tag's TCI and of the IP header, 0 for none. -/
  tagAt   : Nat := 0
  ipAt    : Nat := 0
  /-- Where a second pass starts after a tunnel header, and at which header: 4 IPv4, 6 IPv6, 0 Ethernet (07 R196). -/
  inner   : Option (Nat × Nat) := none
deriving DecidableEq, Repr

/-- A header to be parsed (07 Table 7-1). -/
inductive Hdr where
  | ether
  | tag
  | mpls
  | pppoe
  /-- ARP, EAPOL, LLDP, CFM: the EtherType only. -/
  | plain
  | slow
  | ptp
  | ipv4
  | ipv6
  /-- An IPv6 extension of this next-header value. -/
  | ext (kind : Nat)
  | tcp
  | udp
  | icmp
  | gre
  | vxlan
  /-- ESP or AH: the parse ends. -/
  | esp
  | ah
deriving DecidableEq, Repr

/-- Header that an EtherType leads to. `tpids` is the map of enabled TPIDs 0x8100, 0x88A8, 0x9100. -/
def byEtype (tpids et : Nat) : Option Hdr :=
  if (et = 0x8100 ∧ bit tpids 0) ∨ (et = 0x88A8 ∧ bit tpids 1) ∨ (et = 0x9100 ∧ bit tpids 2) then some .tag
  else
    match et with
    | 0x8847 => some .mpls
    | 0x8848 => some .mpls
    | 0x8864 => some .pppoe
    | 0x0806 => some .plain
    | 0x888E => some .plain
    | 0x88CC => some .plain
    | 0x8902 => some .plain
    | 0x8809 => some .slow
    | 0x88F7 => some .ptp
    | 0x0800 => some .ipv4
    | 0x86DD => some .ipv6
    | _ => none

/-- Header that an IP protocol or next-header value leads to. -/
def byProto (v6 : Bool) (p : Nat) : Option Hdr :=
  if v6 ∧ (p = 0 ∨ p = 43 ∨ p = 44 ∨ p = 60) then some (.ext p)
  else
    match p with
    | 6 => some .tcp
    | 17 => some .udp
    | 1 => some .icmp
    | 58 => some .icmp
    | 2 => some .icmp
    | 47 => some .gre
    | 50 => some .esp
    | 51 => some .ah
    | _ => none

/-- Length of a header at a place, which must lie within the bytes that the parser reads (07 R175). A header of which only the
EtherType, or one byte behind it, is placed counts with its first byte (log entry 56). -/
def hdrLen (f : Bytes) (b : Nat) : Hdr → Nat
  | .ether => 14
  | .tag => 4
  | .mpls => 4
  | .pppoe => 8
  | .plain => 1
  | .slow => 1
  | .ptp => 34
  | .ipv4 => max 20 (4 * (field f b 1 % 16))
  | .ipv6 => 40
  | .ext k => if k = 44 then 8 else 8 + 8 * field f (b + 1) 1
  | .tcp => max 20 (4 * (field f (b + 12) 1 / 16))
  | .udp => 8
  | .icmp => 8
  | .gre =>
    let fl := field f b 2
    4 + 4 * b2n (bit fl 15) + 4 * b2n (bit fl 13) + 4 * b2n (bit fl 12)
  | .vxlan => 8
  | .esp => 8
  | .ah => 4 * (field f (b + 1) 1 + 2)

/-- Sum of the 16-bit words of a header with the carries added in: 0xFFFF for a good checksum. -/
def onesSum (f : Bytes) (b words : Nat) : Nat :=
  let s := sumBy (List.range words) fun i => field f (b + 2 * i) 2
  let s := s % 65536 + s / 65536
  s % 65536 + s / 65536

/-- What follows a header: the parse ends, meets a value outside Table 7-1, or goes on. -/
inductive Follow where
  | done
  | unknown
  | next (h : Hdr) (at_ : Nat)
deriving DecidableEq, Repr

/-- A next header found by a value, or UNKNOWN. -/
def follow (h : Option Hdr) (b : Nat) : Follow :=
  match h with
  | some h => .next h b
  | none => .unknown

/-- Continues at the EtherType field at `b`: a tag starts at its TPID, any other header after the field. -/
def afterEtype (f : Bytes) (tpids b : Nat) (p : Parse) : Parse × Follow :=
  let et := field f b 2
  match byEtype tpids et with
  | some .tag => (p, .next .tag b)
  | h => ({ p with etype := et }, follow h (b + 2))

/-- IPv4 at `b` in a frame of `len` bytes without FCS. -/
def parseIpv4 (f : Bytes) (len b : Nat) (p : Parse) : Parse × Follow :=
  let ihl := field f b 1 % 16
  let total := field f (b + 2) 2
  let fo := field f (b + 6) 2
  let offs := fo % 8192
  let more := bit fo 13
  let proto := field f (b + 9) 1
  let p := { p with
    ipver := 4, ipAt := b, tclass := field f (b + 1) 1, ttl := field f (b + 8) 1, proto
    frag := 8192 * b2n more + offs
    srcAddr := field f (b + 12) 4, dstAddr := field f (b + 16) 4
    isFrag := more || offs != 0, ipOpt := decide (5 < ihl)
    csumBad := onesSum f b (2 * ihl) != 0xFFFF
    ttlLow := decide (field f (b + 8) 1 ≤ 1), ipEnd := b + total
    malHead := p.malHead || decide (ihl < 5) || decide (total < 4 * ihl)
    malTail := p.malTail || decide (len < b + total) }
  (p, if offs ≠ 0 ∨ p.malHead then .done else follow (byProto false proto) (b + 4 * ihl))

/-- IPv6 at `b`. -/
def parseIpv6 (f : Bytes) (len b : Nat) (p : Parse) : Parse × Follow :=
  let w := field f b 4
  let nh := field f (b + 6) 1
  let p := { p with
    ipver := 6, ipAt := b, tclass := bits w 27 20, flowLabel := bits w 19 0, ttl := field f (b + 7) 1, proto := nh
    srcAddr := field f (b + 8) 16, dstAddr := field f (b + 24) 16
    ttlLow := decide (field f (b + 7) 1 ≤ 1), ipEnd := b + 40 + field f (b + 4) 2
    malTail := p.malTail || decide (len < b + 40 + field f (b + 4) 2) }
  (p, follow (byProto true nh) (b + 40))

/-- An IPv6 extension header at `b`. -/
def parseExt (f : Bytes) (b kind : Nat) (p : Parse) : Parse × Follow :=
  let nh := field f b 1
  let e := b + hdrLen f b (.ext kind)
  let p := { p with ipv6Ext := true, proto := nh, malHead := p.malHead || decide (p.ipEnd < e) }
  if kind = 44 then
    let w := field f (b + 2) 2
    let p := { p with frag := 8192 * b2n (bit w 0) + w / 8, isFrag := bit w 0 || w / 8 != 0 }
    (p, if w / 8 ≠ 0 then .done else follow (byProto true nh) e)
  else (p, follow (byProto true nh) e)

/-- One header. -/
def parseHdr (f : Bytes) (len tpids b : Nat) (h : Hdr) (p : Parse) : Parse × Follow :=
  match h with
  | .ether =>
    let da := field f b 6
    afterEtype f tpids (b + 12) { p with da, sa := field f (b + 6) 6, mcast := bit da 40, bcast := da == 0xFFFFFFFFFFFF }
  | .tag =>
    let tpid := field f b 2
    let tci := field f (b + 2) 2
    let p := { p with
      tags := p.tags + 1
      otpid := if p.tags = 0 then tpid else p.otpid
      otci := if p.tags = 0 then tci else p.otci
      tagAt := if p.tags = 0 then b + 2 else p.tagAt
      itpid := if p.tags = 1 then tpid else p.itpid
      itci := if p.tags = 1 then tci else p.itci }
    afterEtype f tpids (b + 4) p
  | .mpls =>
    let w := field f b 4
    let p := { p with labels := p.labels + 1, mpls := if p.labels = 0 then w else p.mpls }
    if !bit w 8 then (p, .next .mpls (b + 4))
    else
      match field f (b + 4) 1 / 16 with
      | 4 => (p, .next .ipv4 (b + 4))
      | 6 => (p, .next .ipv6 (b + 4))
      | _ => ({ p with tunnel := true }, .done)
  | .pppoe =>
    let p := { p with malTail := p.malTail || decide (len < b + 6 + field f (b + 4) 2) }
    match field f (b + 6) 2 with
    | 0x0021 => (p, .next .ipv4 (b + 8))
    | 0x0057 => (p, .next .ipv6 (b + 8))
    | _ => (p, .unknown)
  | .plain => (p, .done)
  | .slow => ({ p with l4type := field f b 1 }, .done)
  | .ptp => ({ p with l4type := field f b 1 % 16 }, .done)
  | .ipv4 => parseIpv4 f len b p
  | .ipv6 => parseIpv6 f len b p
  | .ext k => parseExt f b k p
  | .tcp =>
    let off := field f (b + 12) 1 / 16
    ({ p with sport := field f b 2, dport := field f (b + 2) 2, tcpFlags := field f (b + 13) 1
              malHead := p.malHead || decide (off < 5) || decide (p.ipEnd < b + 4 * off) }, .done)
  | .udp =>
    let n := field f (b + 4) 2
    let dp := field f (b + 2) 2
    let p := { p with sport := field f b 2, dport := dp, malHead := p.malHead || decide (n < 8) || decide (p.ipEnd < b + n) }
    (p, if dp = 4789 then .next .vxlan (b + 8) else if dp = 319 ∨ dp = 320 then .next .ptp (b + 8) else .done)
  | .icmp => ({ p with l4type := field f b 1 }, .done)
  | .gre =>
    let fl := field f b 2
    let e := b + hdrLen f b .gre
    let key := if bit fl 13 then field f (b + 4 + 4 * b2n (bit fl 15)) 4 % 2 ^ 24 else 0
    let inner := match field f (b + 2) 2 with
      | 0x6558 => some (e, 0)
      | 0x0800 => some (e, 4)
      | 0x86DD => some (e, 6)
      | _ => none
    ({ p with tunId := key, tunnel := true, inner }, .done)
  | .vxlan => ({ p with tunId := field f (b + 4) 3, tunnel := true, inner := some (b + 8, 0) }, .done)
  | .esp => (p, .done)
  | .ah => (p, .done)

/-- Follows headers from a place: at most 12 of them, none that reaches past 128 bytes from the start (07 R175). -/
def parseFrom (f : Bytes) (len start tpids : Nat) : (fuel : Nat) → Hdr → Nat → Parse → Parse
  | 0, _, _, p => { p with pdepth := true }
  | fuel + 1, h, b, p =>
    if start + 128 < b + hdrLen f b h then { p with pdepth := true }
    else
      match parseHdr f len tpids b h { p with hcount := p.hcount + 1 } with
      | (p, .done) => p
      | (p, .unknown) => { p with unknown := true }
      | (p, .next h b) => parseFrom f len start tpids fuel h b p

/-- The parse of a frame's pass, from the header that `ip` names: 4 IPv4, 6 IPv6, otherwise Ethernet. Bytes past the frame's end, its FCS left out, read as 0 (log entry 56). -/
def parseFrame (data : Bytes) (start ip tpids : Nat) : Parse :=
  let f := data.take (data.length - 4)
  let h := match ip with
    | 4 => Hdr.ipv4
    | 6 => .ipv6
    | _ => .ether
  parseFrom f f.length start tpids 12 h start {}

/-- PFLAGS (07 Table 7-3). -/
def Parse.flags (p : Parse) : Nat :=
  32768 * b2n p.pdepth + 16384 * b2n p.isFrag + 8192 * b2n (p.isFrag && p.frag % 8192 == 0) + 4096 * b2n p.unknown
  + 2048 * b2n p.csumBad + 1024 * b2n p.ipOpt + 512 * b2n p.ipv6Ext + 256 * b2n p.tunnel + 128 * b2n p.ttlLow
  + 64 * b2n p.mcast + 32 * b2n p.bcast

/-- The key vector of a frame's pass (07 Table 7-2). -/
def keyVector (x : Frame) (p : Parse) : Bytes :=
  beBytes 2 x.src ++ beBytes 2 x.term ++ beBytes 2 (flowWord x.bound) ++ beBytes 2 x.portId ++ beBytes 2 p.flags
  ++ beBytes 1 (64 * (x.slot % 4) + min x.pass 1) ++ beBytes 1 p.hcount ++ beBytes 6 p.da ++ beBytes 6 p.sa
  ++ beBytes 2 p.otpid ++ beBytes 2 p.otci ++ beBytes 2 p.itpid ++ beBytes 2 p.itci ++ beBytes 2 p.etype ++ beBytes 4 p.mpls
  ++ beBytes 1 p.ipver ++ beBytes 1 p.tclass ++ beBytes 1 p.proto ++ beBytes 1 p.ttl ++ beBytes 2 p.frag
  ++ beBytes 16 p.srcAddr ++ beBytes 16 p.dstAddr ++ beBytes 2 p.sport ++ beBytes 2 p.dport ++ beBytes 1 p.tcpFlags
  ++ beBytes 1 p.l4type ++ beBytes 3 p.flowLabel ++ beBytes 3 p.tunId ++ beBytes 8 x.action ++ beBytes 3 x.tunId
  ++ List.replicate 29 0#8

end Sys2Proof.Machine
end

