-- ==== Sys2Proof/Machine/Classifier.lean ====
section
/-!
DEFINITION. The classifier: programs, decision-tree and associative lookups, results, and the commands of group 0x06 (07
R179 to R197).
-/
namespace Sys2Proof.Machine

/-! ### Lookups (07 R185 to R191) -/

/-- The field of `w` bits at bit offset `o` of a key vector read as a number (07 R176). -/
def kvField (kv o w : Nat) : Nat := kv / 2 ^ (1024 - o - w) % 2 ^ w

/-- A condition of 10 bytes holds (07 Table 7-10). -/
def condHolds (kv c : Nat) : Bool :=
  let v := kvField kv (bits c 79 70) (bits c 69 65 + 1)
  let a := bits c 63 32
  let b := bits c 31 0
  if bit c 64 then (v &&& b) == (a &&& b) else decide (a ≤ v) && decide (v ≤ b)

/-- The conditions that a record uses all hold. -/
def recHolds (kv : Nat) (r : Bytes) : Bool :=
  (List.range (min (field r 3 1) 5)).all fun i => condHolds kv (field r (12 + 10 * i) 10)

/-- The record goes on in the next one. -/
def isCont (r : Bytes) : Bool := bit (field r 2 1) 0

/-- A match of a lookup: action, multi-match flag, and the place of the entry or rule. -/
structure Match where
  action : Nat
  multi  : Bool
  place  : Nat
deriving DecidableEq, Repr

/-- The rules of a table that match: priority, index, action (07 R186). -/
def treeMatches (kv : Nat) (recs : Tbl Bytes) : List (Nat × Nat × Nat) :=
  recs.filterMap fun r =>
    let first := match (if r.1 = 0 then none else Tbl.find? recs (r.1 - 1)) with
      | some q => !isCont q
      | none => true
    let rest := !isCont r.2 || recHolds kv ((Tbl.find? recs (r.1 + 1)).getD [])
    if first && recHolds kv r.2 && rest then some (field r.2 0 2, r.1, field r.2 4 8) else none

/-- A tree lookup: the lowest PRI, then the lowest rule index (07 R186). -/
def treeLookup (kv : Nat) (recs : Tbl Bytes) : Option Match :=
  let l := treeMatches kv recs
  match sortBy (fun m : Nat × Nat × Nat => m.1 * 4294967296 + m.2.1) l with
  | [] => none
  | m :: t => some ⟨m.2.2, t.any fun x => x.1 == m.1, m.2.1⟩

/-- Segments of the key, concatenated from the most significant bit down and filled with zeros (07 R190). -/
def assocKey (kv : Nat) (t : ClsTable) : Nat :=
  let k := t.segs.foldl (fun (a : Nat × Nat) s => (a.1 * 2 ^ s.2 + kvField kv s.1 s.2, a.2 + s.2)) (0, 0)
  k.1 * 2 ^ (80 * t.width - k.2)

/-- The entry matches: a mask bit of 1 compares (07 R189). -/
def AssocEntry.hits (e : AssocEntry) (key : Nat) : Bool := (beNat e.value &&& beNat e.mask) == (key &&& beNat e.mask)

/-- The lookup searches the entry's bank (07 R191). -/
def searchesBank (kv : Nat) (t : ClsTable) (addr : Nat) : Bool :=
  let b := addr / 2048
  if t.selw = 0 then t.hasBank b else b == t.first + kvField kv t.seloff t.selw

/-- Entries of a table: those of the version, or the subscriber entries as they stand, in address order. -/
def Dev.tableEntries (d : Dev) (objs : List VObj) (t : ClsTable) : List AssocEntry :=
  if t.scope = 1 then
    (d.cls.sub.filter fun e => e.1 / 65536 == t.table).map fun e => ⟨e.1 % 65536, e.2.action, e.2.value, e.2.mask⟩
  else operEntries objs t

/-- Matching entries of an associative table in address order. -/
def Dev.assocMatches (d : Dev) (objs : List VObj) (kv : Nat) (t : ClsTable) : List AssocEntry :=
  let key := assocKey kv t
  (d.tableEntries objs t).filter fun e => searchesBank kv t e.addr && e.hits key

/-- An associative lookup: the lowest address. -/
def Dev.assocLookup (d : Dev) (objs : List VObj) (kv : Nat) (t : ClsTable) : Option Match :=
  match d.assocMatches objs kv t with
  | [] => none
  | e :: rest => some ⟨e.action, !rest.isEmpty, e.addr⟩

/-- One lookup of a program; a missing table finds nothing. -/
def Dev.lookup (d : Dev) (objs : List VObj) (kv table : Nat) : Option Match :=
  match clsTable? objs table with
  | none => none
  | some t => if t.kind = 1 then treeLookup kv (ruleRecords objs table) else d.assocLookup objs kv t

/-! ### Results (07 R184) -/

/-- What a program has set. -/
structure Result where
  stop    : Bool := false
  verdict : Nat := 0
  recirc  : Bool := false
  flow    : Option Nat := none
  cls     : Option Nat := none
  meter   : Option Nat := none
  counter : Option Nat := none
  multi   : Bool := false
deriving DecidableEq, Repr

/-- A match contributes each group that no earlier lookup has set. -/
def Result.add (r : Result) (m : Match) : Result :=
  { stop := r.stop || bit m.action 63
    verdict := if r.verdict = 0 then bits m.action 62 61 else r.verdict
    recirc := r.recirc || bit m.action 60
    flow := r.flow.or (actFlow? m.action)
    cls := r.cls.or (if bit m.action 42 then some (bits m.action 41 39) else none)
    meter := r.meter.or (actMeter? m.action)
    counter := r.counter.or (actCounter? m.action)
    multi := r.multi || m.multi }

/-- The lookups of a program in order. -/
def Dev.runLookups (d : Dev) (objs : List VObj) (kv : Nat) : List Nat → Result → Result
  | [], r => r
  | t :: rest, r =>
    match d.lookup objs kv t with
    | none => d.runLookups objs kv rest r
    | some m =>
      let r := r.add m
      if bit m.action 63 then r else d.runLookups objs kv rest r

/-- A group of the action word, with its valid bit. -/
def groupBits (v : Option Nat) (validBit low : Nat) : Nat :=
  match v with
  | some x => 2 ^ validBit + x * 2 ^ low
  | none => 0

/-- The result as an action word, which a second pass meets as META (log entry 58). -/
def Result.word (r : Result) : Nat :=
  b2n r.stop * 2 ^ 63 + r.verdict * 2 ^ 61 + b2n r.recirc * 2 ^ 60 + groupBits r.flow 59 43 + groupBits r.cls 42 39
  + groupBits r.meter 38 22 + groupBits r.counter 21 0

/-- A flow that the frame's source domain set does not hold: a frame of a tenant's terminal may name the tenant's flows
alone (07 R184). -/
def Dev.outsideSet (d : Dev) (x : Frame) (flow : Nat) : Bool :=
  x.src / 16384 == 0 && x.term != 0xFFFF && d.termOwner x.term != 0 && d.flowOwner flow != d.termOwner x.term

/-- The classifier's result for a frame: its program in its version, then the test of FLOW; a frame whose FLOW does not
apply is unmatched. -/
def Dev.classify (d : Dev) (x : Frame) (p : Parse) : Result :=
  let objs := d.objsAt x.slot
  let b := binding objs x.src
  let prog := (program? objs (if x.pass = 0 then b.1 else b.2)).getD []
  let r := d.runLookups objs (beNat (keyVector x p)) prog {}
  match r.flow with
  | some f => if d.outsideSet x f then {} else r
  | none => r

/-! ### Exceptions (07 R179, R180) -/

/-- Default rate and burst of a reason (07 Table 7-4). -/
def excDefault : Nat → Nat × Nat
  | 2 => (100000, 1024)
  | 3 => (10000, 256)
  | 4 => (10000, 256)
  | 5 => (100000, 1024)
  | _ => (1000, 64)

/-- State of a reason's bucket: full at the default rate until a command has set it. -/
def Dev.exc (d : Dev) (reason : Nat) : Exc :=
  (d.cls.excs.find? reason).getD
    { rate := (excDefault reason).1, burst := (excDefault reason).2, level := (excDefault reason).2 * 1000000000 }

/-- A frame meets its reason's bucket: the ring that takes it, or none when it is discarded and counted. -/
def Dev.police (d : Dev) (reason : Nat) : Dev × Option Nat :=
  let e := d.exc reason
  let now := d.now
  let level := min (e.level + e.rate * (now - e.last)) (e.burst * 1000000000)
  let put := fun (e : Exc) => { d with cls := { d.cls with excs := d.cls.excs.put reason e } }
  match e.ring with
  | none => (d.count (ctrDev (9 + reason)), none)
  | some r =>
    if 0 < e.rate ∧ 1000000000 ≤ level then (put { e with level := level - 1000000000, last := now }, some r)
    else ((put { e with level, last := now }).count (ctrDev (9 + reason)), none)

/-- A receive ring is set. -/
def Dev.rxSet (d : Dev) (r : Nat) : Bool := (d.sw.rx.find? r).isSome

/-- `EXCEPTION_SET` (07 R180). -/
def cmdExceptionSet : CmdDef where
  op := 0x0608
  names := fun _ p => [.rxRing (ent p 18 2)]
  form := fun p => within (ent p 16 1) 1 6 && decide (ent p 18 2 ≤ 63) && decide (ent p 20 4 ≤ 10000000)
    && within (ent p 24 4) 1 65536 && zeros 16 p [(17, 17), (28, 63)]
  forbid := fun d e => if d.rxSet (ent e.par 18 2) then none else some (.conflict, [])
  run := fun e d =>
    let p := e.par
    let x : Exc := { ring := some (ent p 18 2), rate := ent p 20 4, burst := ent p 24 4, level := ent p 24 4 * 1000000000, last := d.now }
    { d with cls := { d.cls with excs := d.cls.excs.put (ent p 16 1) x } }.ok e

/-- The command `EXCEPTION_SET`. -/
def execExceptionSet (p : Packet) (s : State) : Host.Outcome State Fault Refusal := command cmdExceptionSet p s

/-! ### Versioned commands of group 0x06 (07 R181, R182) -/

/-- The live key segments lie in the key vector, and their total width fits the entry. -/
def segsOk (t : ClsTable) : Bool :=
  (t.segs.all fun s => decide (s.1 + s.2 ≤ 1024)) && decide (sumBy t.segs Prod.snd ≤ 80 * t.width)

/-- Fields of Table 7-7 for a write. -/
def clsTableForm (p : Bytes) : Bool :=
  let t := clsTableOf p
  decide (t.table ≤ 15) && within t.kind 1 2 && decide (t.scope ≤ 1) && (t.scope == 0 || t.kind == 2)
  && bits (ent p 22 1) 7 1 == 0 && (!t.step || decide (t.nbanks ≤ 4)) && decide (t.selw ≤ 5)
  && (t.selw == 0 || t.nbanks == 2 ^ t.selw) && decide (t.seloff + t.selw ≤ 1024)
  && (if t.kind = 1 then t.width == 0 && t.first == 0 && t.nbanks == 0 && zeros 16 p [(28, 59)]
      else [1, 2, 4].contains t.width && decide (t.first ≤ 31) && within t.nbanks 1 32 && decide (t.first + t.nbanks ≤ 32) && segsOk t)
  && ((List.range 8).all fun i => bits (ent p (28 + 4 * i) 4) 12 0 == 0) && zeros 16 p [(26, 27), (60, 63)]

/-- `CLS_TABLE_SET`; KIND 0 removes the table. -/
def cmdClsTableSet : CmdDef :=
  versionedCmd 0x0601 false (fun p => slice p 0 1) (fun p => ent p 17 1 == 0)
    (fun p => decide (ent p 16 1 ≤ 15) && bits (ent p 22 1) 7 1 == 0 && zeros 16 p [(26, 27), (60, 63)]
      && (List.range 8).all fun i => bits (ent p (28 + 4 * i) 4) 12 0 == 0) clsTableForm

/-- The command `CLS_TABLE_SET`. -/
def execClsTableSet (p : Packet) (s : State) : Host.Outcome State Fault Refusal := command cmdClsTableSet p s

/-- Tables first, then 0xFF alone. -/
def lookupsOk : List Nat → Bool
  | [] => true
  | t :: rest => if t = 0xFF then rest.all fun x => x == 0xFF else decide (t ≤ 15) && lookupsOk rest

/-- `CLS_PROGRAM_SET`. -/
def cmdClsProgramSet : CmdDef :=
  versionedCmd 0x0602 false (fun p => slice p 0 1) (fun p => bit (ent p 17 1) 0)
    (fun p => decide (ent p 16 1 ≤ 63) && decide (ent p 17 1 ≤ 1) && zeros 16 p [(22, 63)])
    fun p => decide (ent p 16 1 ≤ 63) && decide (ent p 17 1 ≤ 1) && lookupsOk ((List.range 4).map fun i => ent p (18 + i) 1)
      && zeros 16 p [(22, 63)]

/-- The command `CLS_PROGRAM_SET`. -/
def execClsProgramSet (p : Packet) (s : State) : Host.Outcome State Fault Refusal := command cmdClsProgramSet p s

/-- A source in the encoding of 07 Table 7-2. -/
def srcOk (v : Nat) : Bool :=
  let i := v % 16384
  match v / 16384 with
  | 0 => decide (i ≤ 191)
  | 3 => decide (i ≤ 63)
  | _ => decide (i ≤ 95)

/-- `CLS_BIND_SET`. -/
def cmdClsBindSet : CmdDef :=
  versionedCmd 0x0603 false (fun p => slice p 0 2) (fun p => bit (ent p 20 1) 0)
    (fun p => srcOk (ent p 16 2) && decide (ent p 20 1 ≤ 1) && zeros 16 p [(21, 63)])
    fun p => srcOk (ent p 16 2) && decide (ent p 18 1 ≤ 63) && (decide (ent p 19 1 ≤ 63) || ent p 19 1 == 0xFF)
      && decide (ent p 20 1 ≤ 1) && zeros 16 p [(21, 63)]

/-- The command `CLS_BIND_SET`. -/
def execClsBindSet (p : Packet) (s : State) : Host.Outcome State Fault Refusal := command cmdClsBindSet p s

/-! ### CLS_RULE_SET (07 R187) -/

/-- CLASS of an action is none of the reserved values. -/
def actClassOk (a : Nat) : Bool := decide (bits a 41 39 ≤ 3)

/-- The conditions of a record: the used ones within the key vector, the others 0. -/
def condsOk (r : Bytes) : Bool :=
  (List.range 5).all fun i =>
    let c := field r (12 + 10 * i) 10
    if i < field r 3 1 then decide (bits c 79 70 + bits c 69 65 + 1 ≤ 1024) else c == 0

/-- A rule record in form; `second` for a continuation (07 Table 7-9). -/
def recForm (r : Bytes) (second : Bool) : Bool :=
  bits (field r 2 1) 7 1 == 0 && decide (field r 3 1 ≤ 5) && condsOk r && actClassOk (field r 4 8) && allZero (slice r 62 2)
  && (!second || (allZero (slice r 0 3) && allZero (slice r 4 8)))

/-- Records of the buffer. -/
def bufRecords (p : Bytes) : List Bytes := (List.range (field p 8 4)).map fun i => slice p (16 + 64 * i) 64

/-- The records of a range in form, the last one not continued outside it. -/
def recsForm : Bool → List Bytes → Bool
  | cont, [] => !cont
  | cont, r :: rest => recForm r cont && recsForm (isCont r) rest

/-- `CLS_RULE_SET`: each record is an object of its own (02 R60). A rule of the open version that reaches across an end of
the range would be split. -/
def cmdClsRuleSet : CmdDef where
  op := 0x0604
  kind := fun _ _ _ => .versioned
  buffer := true
  form := fun p =>
    decide (field p 0 1 ≤ 15) && decide (field p 1 1 ≤ 1) && allZero (slice p 2 2) && within (field p 8 4) 1 1023
    && decide (field p 4 4 + field p 8 4 ≤ 4294967296) && allZero (slice p 12 4)
    && (field p 1 1 == 1 || (recsForm false (bufRecords p) && allZero (p.drop (16 + 64 * field p 8 4))))
  bad := fun d e =>
    let p := e.par
    let held : Nat → Bool := fun i => match findObj d.vers.openObjs 0x0604 (slice p 0 1 ++ beBytes 4 i) with
      | some r => isCont (slice r 8 64)
      | none => false
    if (field p 4 4 ≠ 0 ∧ held (field p 4 4 - 1)) ∨ held (field p 4 4 + field p 8 4 - 1) then some [] else none
  run := fun e d =>
    let p := e.par
    let t := slice p 0 1
    let first := field p 4 4
    d.stage e fun objs =>
      (List.range (field p 8 4)).foldl (fun objs i =>
        let key := t ++ beBytes 4 (first + i)
        if bit (field p 1 1) 0 then delObj objs 0x0604 key
        else putObj objs ⟨0x0604, key, t ++ [0#8, 0#8, 0#8] ++ beBytes 4 (first + i) ++ slice p (16 + 64 * i) 64⟩) objs

/-- The command `CLS_RULE_SET`. -/
def execClsRuleSet (p : Packet) (s : State) : Host.Outcome State Fault Refusal := command cmdClsRuleSet p s

/-! ### CLS_ENTRY_SET, CLS_ENTRY_READ (07 R192) -/

/-- The table that an entry command meets: of the open version with a TVER, otherwise of the running one. -/
def Dev.entryTable? (d : Dev) (versioned : Bool) (p : Bytes) : Option ClsTable :=
  clsTable? (if versioned then d.vers.openObjs else d.objs) (field p 0 1)

/-- `CLS_ENTRY_SET` is per-entry in a subscriber table and versioned in an operator table. -/
def clsEntryKind (d : Dev) (k : Packet) (p : Bytes) : CmdKind :=
  match d.entryTable? (k.tver != 0#32) p with
  | some t => if t.scope = 1 then .perEntry else .versioned
  | none => if k.tver = 0#32 then .perEntry else .versioned

/-- The address lies in the table's banks (07 R189). -/
def ClsTable.holds (t : ClsTable) (addr : Nat) : Bool :=
  t.hasBank (addr / 2048) && decide (addr % 2048 < 2048 / max t.width 1)

/-- Step 4 for a tenant (07 R192). -/
def clsEntryTenant (d : Dev) (dom : Nat) (p : Bytes) : Bool :=
  let a := field p 4 8
  (match clsTable? d.objs (field p 0 1) with
    | some t => t.scope == 1
    | none => false)
  && (bit (field p 1 1) 0 || (!bit a 38 && !bit a 21 && match actFlow? a with
      | some f => d.flowOwner f == dom
      | none => false))
  && match d.cls.sub.find? (field p 0 1 * 65536 + field p 2 2) with
    | some x => x.owner == dom
    | none => true

/-- `CLS_ENTRY_SET`. -/
def cmdClsEntrySet : CmdDef where
  op := 0x0605
  kind := clsEntryKind
  tenant := some clsEntryTenant
  buffer := true
  inlineOk := fun p => p.length == 32
  guarded := true
  names := fun _ p => if bit (field p 1 1) 0 then [] else ((actFlow? (field p 4 8)).map DrainObj.flow).toList
  form := fun p => [32, 52, 92].contains p.length && decide (field p 0 1 ≤ 15) && decide (field p 1 1 ≤ 1)
    && (bit (field p 1 1) 0 || actClassOk (field p 4 8))
  bad := fun d e =>
    let p := e.par
    match d.entryTable? (e.pkt.tver != 0#32) p with
    | none => none
    | some t =>
      if t.kind ≠ 2 then if e.pkt.tver = 0#32 then some [] else none
      else if p.length ≠ 12 + 20 * t.width ∨ !t.holds (field p 2 2)
          ∨ (t.scope = 1 ∧ !bit (field p 1 1) 0 ∧ actFixed (field p 4 8)) then some []
      else none
  forbid := fun d e =>
    let p := e.par
    if clsEntryKind d e.pkt p = .versioned then none
    else if (d.entryTable? false p).isNone then some (.conflict, [])
    else if bit (field p 1 1) 0 then
      if (d.cls.sub.find? (field p 0 1 * 65536 + field p 2 2)).isNone then some (.conflict, []) else none
    else if d.actMissing (field p 4 8) then some (.conflict, []) else none
  run := fun e d =>
    let p := e.par
    let w := (p.length - 12) / 2
    if clsEntryKind d e.pkt p = .versioned then
      let key := slice p 0 1 ++ slice p 2 2
      d.stage e fun objs => if bit (field p 1 1) 0 then delObj objs 0x0605 key else putObj objs ⟨0x0605, key, patch p 1 [0#8]⟩
    else
      let i := field p 0 1 * 65536 + field p 2 2
      let x : SubEntry := { action := field p 4 8, value := slice p 12 w, mask := slice p (12 + w) w, owner := e.dom }
      { d with cls := { d.cls with sub := if bit (field p 1 1) 0 then d.cls.sub.del i else d.cls.sub.put i x } }.ok e

/-- The command `CLS_ENTRY_SET`. -/
def execClsEntrySet (p : Packet) (s : State) : Host.Outcome State Fault Refusal := command cmdClsEntrySet p s

/-- The entry of a table of the running version, with its owner. -/
def Dev.entryAt? (d : Dev) (t : ClsTable) (addr : Nat) : Option (AssocEntry × Nat) :=
  if t.scope = 1 then (d.cls.sub.find? (t.table * 65536 + addr)).map fun x => (⟨addr, x.action, x.value, x.mask⟩, x.owner)
  else ((operEntries d.objs t).find? fun x => x.addr == addr).map fun x => (x, 0)

/-- `CLS_ENTRY_READ`. -/
def cmdClsEntryRead : CmdDef where
  op := 0x0606
  read := true
  form := fun p => decide (ent p 16 1 ≤ 15) && zeros 16 p [(17, 17), (20, 23), (32, 63)]
  bad := fun d e => match clsTable? d.objs (ent e.par 16 1) with
    | some t => if t.kind = 2 ∧ !t.holds (ent e.par 18 2) then some [] else none
    | none => none
  forbid := fun d e => match clsTable? d.objs (ent e.par 16 1) with
    | some t => if t.kind ≠ 2 ∨ (d.entryAt? t (ent e.par 18 2)).isNone then some (.conflict, []) else none
    | none => some (.conflict, [])
  run := fun e d =>
    match (clsTable? d.objs (ent e.par 16 1)).bind fun t => d.entryAt? t (ent e.par 18 2) with
    | some (x, owner) =>
      (d.hostWrite (ent e.par 24 8)
        (slice e.par 0 1 ++ beBytes 1 (owner * 16) ++ beBytes 2 x.addr ++ beBytes 8 x.action ++ x.value ++ x.mask)).ok e
    | none => d.finish e .conflict []

/-- The command `CLS_ENTRY_READ`. -/
def execClsEntryRead (p : Packet) (s : State) : Host.Outcome State Fault Refusal := command cmdClsEntryRead p s

/-! ### CLS_SEARCH, CLS_USAGE (07 R194, R188) -/

/-- `CLS_SEARCH`. -/
def cmdClsSearch : CmdDef where
  op := 0x0607
  buffer := true
  read := true
  form := fun p => decide (field p 0 1 ≤ 15) && allZero (slice p 1 3) && allZero (slice p 8 8) && allZero (p.drop 144)
  bad := fun d e => match clsTable? d.objs (field e.par 0 1) with
    | some t => if t.kind ≠ 2 ∨ (!t.step ∧ field e.par 4 4 ≠ 0) then some [] else none
    | none => none
  forbid := fun d e => if (clsTable? d.objs (field e.par 0 1)).isNone then some (.conflict, []) else none
  run := fun e d =>
    match clsTable? d.objs (field e.par 0 1) with
    | none => d.finish e .conflict []
    | some t =>
      match (d.assocMatches d.objs (beNat (slice e.par 16 128)) t).filter fun x => decide (field e.par 4 4 ≤ x.addr) with
      | [] => d.finish e .done [0xFFFFFFFF]
      | x :: rest => d.finish e .done [x.addr, b2n (!rest.isEmpty), x.action / 2 ^ 32, x.action % 2 ^ 32]

/-- The command `CLS_SEARCH`. -/
def execClsSearch (p : Packet) (s : State) : Host.Outcome State Fault Refusal := command cmdClsSearch p s

/-- Contents of the live versions. -/
def Dev.liveObjs (d : Dev) : List (List VObj) := d.vers.running.toList.map Version.objs ++ d.vers.retiring.map Version.objs

/-- `CLS_USAGE`. -/
def cmdClsUsage : CmdDef where
  op := 0x0609
  read := true
  form := fun p => zeros 16 p [(16, 63)]
  run := fun e d =>
    let banks := d.liveObjs.foldl (fun a o => a ||| bankMap o) 0
    let isOpen := d.vers.openNum != 0
    d.finish e .done [sat 32 (sumBy d.liveObjs treeBytes), if isOpen then sat 32 (treeBytes d.vers.openObjs) else 0, banks,
      if isOpen then bankMap d.vers.openObjs else 0]

/-- The command `CLS_USAGE`. -/
def execClsUsage (p : Packet) (s : State) : Host.Outcome State Fault Refusal := command cmdClsUsage p s

end Sys2Proof.Machine
end

