-- ==== Sys2Proof/Machine/Forwarding.lean ====
section
/-!
DEFINITION. The forwarding table, its commands of group 0x07, learning and ageing (08).
-/
namespace Sys2Proof.Machine

/-! ### Slots (08 R201) -/

/-- Seeds of the four ways. -/
def waySeeds : List Word := [0x00000000#32, 0x5A5A5A5A#32, 0xC3C3C3C3#32, 0x0F1E2D3C#32]

/-- The 8 bytes of a key. -/
def fwdKey (fid mac : Nat) : Bytes := beBytes 2 fid ++ beBytes 6 mac

/-- The four candidate slots of a key, in way order. -/
def candSlots (fid mac : Nat) : List Nat :=
  (List.range 4).map fun w => w * 131072 + (crc32cRaw (waySeeds.getD w 0#32) (fwdKey fid mac)).toNat % 131072

/-- Slots of the table. -/
def fwdSlots : Nat := 524288

/-- The entry's key. -/
def FwdEntry.is (x : FwdEntry) (fid mac : Nat) : Bool := x.fid == fid && x.mac == mac

/-- The slot that holds a key, with its entry. -/
def Fwd.find (w : Fwd) (fid mac : Nat) : Option (Nat × FwdEntry) :=
  (candSlots fid mac).findSome? fun i =>
    match w.slots.find? i with
    | some x => if x.is fid mac then some (i, x) else none
    | none => none

/-! ### Relocation (08 R203, R204) -/

/-- One level of the breadth-first search: every path made longer by each candidate of its last resident, in way order. -/
def Fwd.expand (w : Fwd) (paths : List (List Nat)) : List (List Nat) :=
  paths.flatMap fun p =>
    match p.getLast? with
    | none => []
    | some a =>
      match w.slots.find? a with
      | none => []
      | some x => ((candSlots x.fid x.mac).filter fun c => !p.contains c).map fun c => p ++ [c]

/-- The first path that ends in a free slot, within `fuel` more moves. -/
def Fwd.chainFrom (w : Fwd) : (fuel : Nat) → List (List Nat) → Option (List Nat)
  | 0, _ => none
  | fuel + 1, paths =>
    let next := w.expand paths
    match next.find? fun p => ((p.getLast?).bind w.slots.find?).isNone with
    | some p => some p
    | none => w.chainFrom fuel next

/-- The chain for a new key: a free candidate, or at most 3 moves that end in a free slot. -/
def Fwd.chain (w : Fwd) (fid mac : Nat) : Option (List Nat) :=
  let c := candSlots fid mac
  match c.find? fun i => (w.slots.find? i).isNone with
  | some i => some [i]
  | none => w.chainFrom 3 (c.map fun i => [i])

/-- The moves of a chain, from its end back. A move is inside one step, so no lookup or read falls within it. -/
def moveAlong (t : Tbl FwdEntry) : List Nat → Tbl FwdEntry
  | a :: b :: rest =>
    let t := moveAlong t (b :: rest)
    match Tbl.find? t a with
    | some x => (t.put b x).del a
    | none => t
  | _ => t

/-! ### Entries -/

/-- The 32 bytes of an entry (08 Table 8-3). -/
def FwdEntry.bytes (x : FwdEntry) (index : Nat) : Bytes :=
  beBytes 2 x.fid ++ beBytes 6 x.mac ++ beBytes 1 (1 + 2 * b2n x.static + 4 * b2n x.hit + 8 * b2n x.dropSa)
  ++ beBytes 1 x.dkind ++ beBytes 2 x.dest ++ beBytes 1 x.age ++ [0#8, 0#8, 0#8] ++ beBytes 4 x.counter
  ++ List.replicate 8 0#8 ++ beBytes 4 index

/-- DEST in the range of its DKIND (08 Table 8-3). -/
def destOk (kind dest : Nat) : Bool :=
  match kind with
  | 0 => true
  | 1 => decide (dest ≤ 95)
  | 2 => decide (dest ≤ 95)
  | 3 => decide (dest ≤ 63)
  | 4 => decide (dest ≤ 8191)
  | 5 => dest == 0
  | _ => false

/-- A destination that names no port or Brynlink of the running version (02 R55, log entry 59). -/
def Dev.destLost (d : Dev) (kind dest : Nat) : Bool :=
  match kind with
  | 1 => !d.isGroup dest [1]
  | 2 => !d.isGroup dest [2]
  | _ => false

/-- The object that a destination names, for 02 R71. -/
def destNames (kind dest : Nat) : List DrainObj :=
  match kind with
  | 0 => [.flow dest]
  | 1 => [.port dest]
  | 2 => [.port dest]
  | 3 => [.rxRing dest]
  | _ => []

/-- A counter field: bit 31 valid, an index of the allocatable region (16 R385), the other bits 0. -/
def counterOk (v : Nat) : Bool := bits v 30 21 == 0 && (!bit v 31 || decide (ctrFree ≤ bits v 20 0))

/-- `FWD_ENTRY_WRITE` (08 R203). -/
def cmdFwdEntryWrite : CmdDef where
  op := 0x0701
  kind := fun _ _ _ => .perEntry
  guarded := true
  names := fun _ p => destNames (ent p 25 1) (ent p 26 2)
  form := fun p =>
    decide (ent p 16 2 ≤ 16383) && ent p 24 1 &&& 0xF5 == 0 && decide (ent p 25 1 ≤ 5) && destOk (ent p 25 1) (ent p 26 2)
    && counterOk (ent p 32 4) && zeros 16 p [(28, 31), (36, 63)]
  forbid := fun d e =>
    if d.destLost (ent e.par 25 1) (ent e.par 26 2) then some (.conflict, [])
    else if (d.fwd.find (ent e.par 16 2) (ent e.par 18 6)).isNone ∧ (d.fwd.chain (ent e.par 16 2) (ent e.par 18 6)).isNone then
      some (.noRoom, [])
    else none
  run := fun e d =>
    let p := e.par
    let fid := ent p 16 2
    let mac := ent p 18 6
    let w := { d.fwd with stamp := d.fwd.stamp + 1, pend := d.fwd.pend.filter fun x => !(x.fid == fid && x.mac == mac) }
    let x : FwdEntry := { fid, mac, static := bit (ent p 24 1) 1, dropSa := bit (ent p 24 1) 3, dkind := ent p 25 1
                          dest := ent p 26 2, counter := ent p 32 4, stamp := w.stamp }
    match w.find fid mac with
    | some (i, _) => { d with fwd := { w with slots := w.slots.put i x } }.finish e .done [i, 0, 1, w.moves % 2 ^ 32]
    | none =>
      match w.chain fid mac with
      | some path =>
        let i := path.headD 0
        let n := path.length - 1
        { d with fwd := { w with slots := (moveAlong w.slots path).put i x, moves := w.moves + n } }.finish e .done
          [i, n, 0, (w.moves + n) % 2 ^ 32]
      | none => d.finish e .noRoom []

/-- The command `FWD_ENTRY_WRITE`. -/
def execFwdEntryWrite (p : Packet) (s : State) : Host.Outcome State Fault Refusal := command cmdFwdEntryWrite p s

/-- `FWD_ENTRY_DELETE` (08 R206). -/
def cmdFwdEntryDelete : CmdDef where
  op := 0x0702
  kind := fun _ _ _ => .perEntry
  guarded := true
  form := fun p => decide (ent p 16 2 ≤ 16383) && zeros 16 p [(24, 63)]
  forbid := fun d e => if (d.fwd.find (ent e.par 16 2) (ent e.par 18 6)).isNone then some (.conflict, []) else none
  run := fun e d =>
    let fid := ent e.par 16 2
    let mac := ent e.par 18 6
    match d.fwd.find fid mac with
    | some (i, _) =>
      { d with fwd := { d.fwd with slots := d.fwd.slots.del i, pend := d.fwd.pend.filter fun x => !(x.fid == fid && x.mac == mac) } }.finish
        e .done [i]
    | none => d.finish e .conflict []

/-- The command `FWD_ENTRY_DELETE`. -/
def execFwdEntryDelete (p : Packet) (s : State) : Host.Outcome State Fault Refusal := command cmdFwdEntryDelete p s

/-- `FWD_ENTRY_READ` (08 R207). -/
def cmdFwdEntryRead : CmdDef where
  op := 0x0703
  read := true
  form := fun p =>
    decide (ent p 16 1 ≤ 1) && (if ent p 16 1 = 0 then decide (ent p 18 2 ≤ 16383) && zeros 16 p [(28, 31)]
      else zeros 16 p [(18, 25)] && decide (ent p 28 4 < fwdSlots))
    && aligned (ent p 32 8) 8 && zeros 16 p [(17, 17), (26, 27), (40, 63)]
  run := fun e d =>
    let p := e.par
    let hit := if ent p 16 1 = 0 then d.fwd.find (ent p 18 2) (ent p 20 6)
      else (d.fwd.slots.find? (ent p 28 4)).map fun x => (ent p 28 4, x)
    match hit with
    | some (i, x) => (d.hostWrite (ent p 32 8) (x.bytes i)).finish e .done [i, 1]
    | none => (d.hostWrite (ent p 32 8) (List.replicate 32 0#8)).finish e .done [0xFFFFFFFF, 0]

/-- The command `FWD_ENTRY_READ`. -/
def execFwdEntryRead (p : Packet) (s : State) : Host.Outcome State Fault Refusal := command cmdFwdEntryRead p s

/-! ### Search and flush (08 R208, R209) -/

/-- The filters of a search or flush. -/
def FwdEntry.matches (x : FwdEntry) (fid dkind dest : Nat) : Bool :=
  (fid == 0xFFFF || x.fid == fid) && (dkind == 0xFF || x.dkind == dkind) && (dest == 0xFFFF || x.dest == dest)

/-- Filter fields in range. -/
def filtersOk (p : Bytes) : Bool :=
  (decide (ent p 20 2 ≤ 16383) || ent p 20 2 == 0xFFFF) && (decide (ent p 22 1 ≤ 5) || ent p 22 1 == 0xFF)

/-- `FWD_SEARCH`. -/
def cmdFwdSearch : CmdDef where
  op := 0x0704
  read := true
  form := fun p => decide (ent p 16 4 < fwdSlots) && filtersOk p && decide (ent p 23 1 ≤ 2) && within (ent p 26 1) 1 64
    && aligned (ent p 32 8) 8 && zeros 16 p [(27, 31), (40, 63)]
  run := fun e d =>
    let p := e.par
    let start := ent p 16 4
    let stop := min (start + 65536) fwdSlots
    let hits := d.fwd.slots.filter fun s => decide (start ≤ s.1) && decide (s.1 < stop)
      && s.2.matches (ent p 20 2) (ent p 22 1) (ent p 24 2)
      && (!bit (ent p 23 1) 0 || s.2.static) && (!bit (ent p 23 1) 1 || !s.2.static)
    let out := hits.take (ent p 26 1)
    let next := if out.length = ent p 26 1 then (out.getLast?.map fun s => s.1 + 1).getD stop else stop
    (d.hostWrite (ent p 32 8) (out.flatMap fun s => s.2.bytes s.1)).finish e .done
      [out.length, if next = fwdSlots then 0xFFFFFFFF else next, d.fwd.moves % 2 ^ 32, 0]

/-- The command `FWD_SEARCH`. -/
def execFwdSearch (p : Packet) (s : State) : Host.Outcome State Fault Refusal := command cmdFwdSearch p s

/-- `FWD_FLUSH`: the sweep runs until FWD_FLUSH_COMPLETE. -/
def cmdFwdFlush : CmdDef where
  op := 0x0705
  form := fun p => filtersOk p && decide (ent p 23 1 ≤ 1) && zeros 16 p [(16, 19), (26, 63)]
  forbid := fun d _ => if d.fwd.flush.isSome then some (.busy, []) else none
  run := fun e d =>
    let p := e.par
    let f : Flush := { dom := e.dom, seq := e.seq, fid := ent p 20 2, dkind := ent p 22 1, dest := ent p 24 2
                       statics := bit (ent p 23 1) 0, stamp := d.fwd.stamp }
    { d with fwd := { d.fwd with flush := some f } }.park e

/-- The command `FWD_FLUSH`. -/
def execFwdFlush (p : Packet) (s : State) : Host.Outcome State Fault Refusal := command cmdFwdFlush p s

/-- The event FWD_FLUSH_COMPLETE: every matching entry written before the flush's start is gone. -/
def fwdFlushComplete (d : Dev) : Dev :=
  match d.fwd.flush with
  | none => d
  | some f =>
    let goes := fun (s : Nat × FwdEntry) => decide (s.2.stamp ≤ f.stamp) && s.2.matches f.fid f.dkind f.dest && (f.statics || !s.2.static)
    let n := (d.fwd.slots.filter goes).length
    { d with fwd := { d.fwd with slots := d.fwd.slots.filter fun s => !goes s, flush := none } }.finishId f.dom f.seq .done [n]

/-- See `fwdFlushComplete`. -/
def execFwdFlushComplete (s : State) : Host.Outcome State Fault Refusal := live fwdFlushComplete s

/-! ### FWD_SOURCE_SET, LEARN_SET (08 R198, R213) -/

/-- A source's setting. -/
def Dev.fwdSource (d : Dev) (src : Nat) : FwdSource := d.fwd.sources.getD src {}

/-- The object that a source names, for 02 R71: a channel, a port or Brynlink, a transmit ring. -/
def srcNames (src : Nat) : List DrainObj :=
  match src / 16384 with
  | 0 => [.channel (src % 16384)]
  | 3 => [.txRing (src % 16384)]
  | _ => [.port (src % 16384)]

/-- `FWD_SOURCE_SET`. -/
def cmdFwdSourceSet : CmdDef where
  op := 0x0706
  names := fun _ p => srcNames (ent p 16 2) ++ destNames (ent p 21 1) (ent p 22 2)
  form := fun p => srcOk (ent p 16 2) && decide (ent p 18 2 ≤ 16383) && decide (ent p 20 1 ≤ 7) && destOk (ent p 21 1) (ent p 22 2)
    && zeros 16 p [(24, 63)]
  forbid := fun d e => if d.destLost (ent e.par 21 1) (ent e.par 22 2) then some (.conflict, []) else none
  run := fun e d =>
    let p := e.par
    let x : FwdSource := { defFid := ent p 18 2, lookup := bit (ent p 20 1) 0, learn := bit (ent p 20 1) 1
                           vidFid := bit (ent p 20 1) 2, missKind := ent p 21 1, missDest := ent p 22 2 }
    { d with fwd := { d.fwd with sources := d.fwd.sources.put (ent p 16 2) x } }.ok e

/-- The command `FWD_SOURCE_SET`. -/
def execFwdSourceSet (p : Packet) (s : State) : Host.Outcome State Fault Refusal := command cmdFwdSourceSet p s

/-- `LEARN_SET`; the first ageing scan under the new AGEPERIOD falls one period later (log entry 162). -/
def cmdLearnSet : CmdDef where
  op := 0x0707
  names := fun _ p => if ent p 16 2 = 0xFFFF then [] else [.rxRing (ent p 16 2)]
  form := fun p => (decide (ent p 16 2 ≤ 63) || ent p 16 2 == 0xFFFF) && decide (ent p 20 4 ≤ 10000000)
    && within (ent p 24 4) 1 65536 && decide (ent p 28 2 ≤ 1000) && zeros 16 p [(18, 19), (33, 63)]
  forbid := fun d e => if ent e.par 16 2 ≠ 0xFFFF ∧ !d.rxSet (ent e.par 16 2) then some (.conflict, []) else none
  run := fun e d =>
    let p := e.par
    { d with fwd := { d.fwd with
        ring := if ent p 16 2 = 0xFFFF then none else some (ent p 16 2), rate := ent p 20 4, burst := ent p 24 4
        hold := orZero (ent p 28 2) 10, agePeriod := orZero (ent p 30 2) 60, ageMax := orZero (ent p 32 1) 5
        level := ent p 24 4 * 1000000000, last := d.now, ageDue := d.inNs (orZero (ent p 30 2) 60 * 1000000000) } }.ok e

/-- The command `LEARN_SET`. -/
def execLearnSet (p : Packet) (s : State) : Host.Outcome State Fault Refusal := command cmdLearnSet p s

/-! ### Learning (08 R210 to R212) -/

/-- The forwarding domain of a frame (08 R199). -/
def FwdSource.fid (x : FwdSource) (p : Parse) : Nat := if x.vidFid then (x.defFid + p.otci % 4096) % 16384 else x.defFid

/-- DKIND and DEST of the frame's own source; a host ring has none. -/
def ownDest (x : Frame) : Option (Nat × Nat) :=
  match x.src / 16384 with
  | 0 => some (0, x.flow)
  | 1 => some (1, x.src % 16384)
  | 2 => some (2, x.src % 16384)
  | _ => none

/-- A frame or an ageing scan has reason for a notice. It is judged when it is released (08 R212): notices of all pipelines
and kinds then meet the pending list and the bucket in timestamp order (08 Table 8-5). -/
def Dev.notify (d : Dev) (n : Notice) : Dev := { d with fwd := { d.fwd with notices := d.fwd.notices ++ [n] } }

/-- The check of a frame's SA on its last pass; true when an entry with DROPSA discards the frame. -/
def Dev.learnCheck (d : Dev) (x : Frame) (p : Parse) (pipe : Nat) : Dev × Bool :=
  let s := d.fwdSource x.src
  match ownDest x with
  | none => (d, false)
  | some own =>
    if !s.learn ∨ bit p.sa 40 ∨ p.sa = 0 then (d, false)
    else
      let fid := s.fid p
      let note : Notice := { kind := 1, contested := false, fid, mac := p.sa, src := x.src, flow := x.flow, pipe, time := x.itime
                             index := 0xFFFFFFFF, okind := 0, odest := 0 }
      match d.fwd.find fid p.sa with
      | none => (d.notify note, false)
      | some (i, e) =>
        let d :=
          if (e.dkind, e.dest) = own then { d with fwd := { d.fwd with slots := d.fwd.slots.put i { e with hit := true } } }
          else if e.static then d.count (ctrDev 4)
          else d.notify { note with kind := 2, index := i, okind := e.dkind, odest := e.dest }
        if e.dropSa then (d.count (ctrPipe pipe 2), true) else (d, false)

/-- The 32 bytes of a notice (08 Table 8-4). -/
def Notice.bytes (n : Notice) : Bytes :=
  beBytes 1 n.kind ++ beBytes 1 (b2n n.contested) ++ beBytes 2 n.fid ++ beBytes 6 n.mac ++ beBytes 2 n.src
  ++ beBytes 2 (flowWord n.flow) ++ beBytes 1 n.pipe ++ [0#8] ++ beBytes 8 n.time ++ beBytes 4 n.index ++ beBytes 1 n.okind ++ [0#8] ++ beBytes 2 n.odest

/-- A record joins the queue of a receive ring; a ring that takes no frame discards it. -/
def Dev.toRing (d : Dev) (r : Nat) (x : Frame) : Dev × Bool :=
  match d.sw.rx.find? r with
  | some q => if q.disabled then (d, false) else ({ d with sw := { d.sw with rx := d.sw.rx.put r { q with queue := q.queue ++ [x] } } }, true)
  | none => (d, false)

/-- The pending-list entry of a key. -/
def Fwd.pending? (w : Fwd) (fid mac : Nat) : Option Pend := w.pend.find? fun q => q.fid == fid && q.mac == mac

/-- The pending list after a notice of a key and source has entered it: HOLD starts (again). -/
def Fwd.enlist (w : Fwd) (n : Notice) (due : Nat) : Fwd :=
  { w with pend := (w.pend.filter fun q => !(q.fid == n.fid && q.mac == n.mac)) ++ [⟨n.fid, n.mac, n.src, due⟩] }

/-- The learn bucket of now (08 R212). -/
def Fwd.fill (w : Fwd) (now : Nat) : Fwd :=
  { w with level := min (w.level + w.rate * (now - w.last)) (w.burst * 1000000000), last := now }

/-- A notice that the list admits goes to the ring and enters the list. Without a ring, with the ring disabled, or with the
bucket empty it is discarded and counted, and the list stays as it is (08 R212, R213; log entry 60). -/
def Dev.postNotice (d : Dev) (n : Notice) : Dev :=
  let d := { d with fwd := d.fwd.fill d.now }
  match d.fwd.ring with
  | none => d.count (ctrDev 3)
  | some r =>
    if d.fwd.level < 1000000000 then d.count (ctrDev 3)
    else
      match d.toRing r { data := n.bytes, src := n.src, flow := n.flow, itime := n.time, reason := 7 } with
      | (d, false) => d.count (ctrDev 3)
      | (d, true) =>
        { d with fwd := { d.fwd with level := d.fwd.level - 1000000000 }.enlist n (d.inNs (d.fwd.hold * 1000000)) }

/-- A notice meets the pending list: a repeat of its source makes none, another source is CONTESTED, and a full list discards it
(08 R211). -/
def Dev.judgeNotice (d : Dev) (n : Notice) : Dev :=
  match d.fwd.pending? n.fid n.mac with
  | some q => if q.src = n.src then d else d.postNotice { n with contested := true }
  | none => if 4096 ≤ d.fwd.pend.length then d.count (ctrDev 2) else d.postNotice n

/-- The event LEARN_NOTICE_RELEASE: the earliest notice, in timestamp and then pipeline order, is released 4 µs after its
timestamp (08 R212). -/
def learnNoticeRelease (d : Dev) : Dev :=
  match sortBy (fun n : Notice => n.time * 8 + n.pipe) d.fwd.notices with
  | [] => d
  | n :: rest => ({ d with fwd := { d.fwd with notices := rest } }.goTime (n.time + 4000)).judgeNotice n

/-- See `learnNoticeRelease`. -/
def execLearnNoticeRelease (s : State) : Host.Outcome State Fault Refusal := live learnNoticeRelease s

/-- The event LEARN_HOLD_EXPIRY. -/
def learnHoldExpiry (fid mac : Nat) (d : Dev) : Dev :=
  match d.fwd.pend.find? fun q => q.fid == fid && q.mac == mac with
  | none => d
  | some q =>
    let d := d.goCounter q.due
    { d with fwd := { d.fwd with pend := d.fwd.pend.filter fun x => !(x.fid == fid && x.mac == mac) } }

/-- See `learnHoldExpiry`. -/
def execLearnHoldExpiry (fid mac : Nat) (s : State) : Host.Outcome State Fault Refusal := live (learnHoldExpiry fid mac) s

/-- One entry at an ageing scan (08 R214), and whether it makes a notice. -/
def FwdEntry.scan (x : FwdEntry) (ageMax : Nat) : FwdEntry × Bool :=
  if x.static then (x, false)
  else if x.hit then ({ x with hit := false, age := 0, noticed := false }, false)
  else
    let age := min (x.age + 1) ageMax
    if age = ageMax ∧ !x.noticed then ({ x with age, noticed := true }, true) else ({ x with age }, false)

/-- The event AGEING_SCAN: the scan of an AGEPERIOD, at its end (08 R214). A notice of kind 3 comes from no pipeline: PIPE is a
free value (log entry 61). -/
def ageingScan (d : Dev) : Dev :=
  let d := d.goCounter d.fwd.ageDue
  let pipe := d.freeNow % 8
  let notes := (d.fwd.slots.filter fun s => (s.2.scan d.fwd.ageMax).2).map fun s =>
    ({ kind := 3, contested := false, fid := s.2.fid, mac := s.2.mac, src := 0xFFFF, flow := noFlow, pipe, time := d.now
       index := s.1, okind := s.2.dkind, odest := s.2.dest } : Notice)
  let slots := d.fwd.slots.mapAll fun _ (x : FwdEntry) => (x.scan d.fwd.ageMax).1
  { d with fwd := { d.fwd with slots, notices := d.fwd.notices ++ notes, ageDue := d.fwd.ageDue + d.fwd.agePeriod * 1000000000 } }.freeNext

/-- See `ageingScan`. -/
def execAgeingScan (s : State) : Host.Outcome State Fault Refusal := live ageingScan s

/-! ### Destination lookup (08 R202) -/

/-- The destination of a frame whose source looks it up; a hit raises the entry's counter. -/
def Dev.fwdDest (d : Dev) (x : Frame) (p : Parse) : Dev × Nat × Nat :=
  let s := d.fwdSource x.src
  match d.fwd.find (s.fid p) p.da with
  | some (_, e) => (if bit e.counter 31 then d.count (bits e.counter 20 0) else d, e.dkind, e.dest)
  | none => (d, s.missKind, s.missDest)

end Sys2Proof.Machine
end

