-- ==== Sys2Proof/Machine/Cipher.lean ====
section
/-!
DEFINITION. The cipher engine: key slots, sealed flows, CTR, and the commands of group 0x0A (11).
-/
namespace Sys2Proof.Machine

/-! ### Slots (11 R269, R270, R282) -/

/-- Key slots of the device. -/
def keySlots : Nat := 50688

/-- The terminal of a unicast slot. -/
def slotTerm? (s : Nat) : Option Nat := if s < 49152 then some (s / 2) else none

/-- The broadcast set of a broadcast slot, as 4g + p. -/
def slotSet? (s : Nat) : Option Nat := if s < 49152 then none else some ((s - 49152) / 2)

/-- Active key index of a broadcast set and its pending switch. -/
def Dev.bset (d : Dev) (i : Nat) : Nat × Option (Nat × Nat) := Tbl.getD d.bsets i (0, none)

/-- The CTR part has reached its limit of 2^32 frames. -/
def KeySlot.ctrSpent (k : KeySlot) : Bool := k.ctr && decide (2 ^ 32 ≤ k.ctrCount)

/-- Either INV of the GCM part would pass 2^32 − 1. -/
def KeySlot.gcmSpent (k : KeySlot) : Bool := k.gcm && (decide (2 ^ 32 ≤ k.invDown) || k.invUp == some (2 ^ 32 - 1))

/-- The CTR part is present: neither absent nor spent. -/
def KeySlot.ctrOk (k : KeySlot) : Bool := k.ctr && !k.ctrSpent

/-- The GCM part is present. -/
def KeySlot.gcmOk (k : KeySlot) : Bool := k.gcm && !k.gcmSpent

/-- Seven-eighths of either limit are used (alarm bit 9). -/
def KeySlot.worn (k : KeySlot) : Bool :=
  (k.ctr && decide (7 * 2 ^ 29 ≤ k.ctrCount)) || (k.gcm && (decide (7 * 2 ^ 29 ≤ k.invDown) || decide (7 * 2 ^ 29 ≤ k.invUp.getD 0 + 1)))

/-- The slot is active downstream. -/
def Dev.slotActive (d : Dev) (s : Nat) : Bool :=
  match slotSet? s with
  | some i => (d.bset i).1 == s % 2
  | none =>
    match d.term? (s / 2) with
    | some t => t.activeKey == s % 2
    | none => false

/-- A switch of the slot's terminal or set that is pending: slot and SFC. -/
def Dev.slotSwitch? (d : Dev) (s : Nat) : Option (Nat × Nat) :=
  match slotSet? s with
  | some i => (d.bset i).2
  | none => (d.term? (s / 2)).bind Term.keySwitch

/-- The slot is the target of a pending switch. -/
def Dev.slotPending (d : Dev) (s : Nat) : Bool :=
  match d.slotSwitch? s with
  | some x => x.1 == s
  | none => false

/-- A `KEY_EXCHANGE` for a terminal in execution. -/
def Dev.exchange? (d : Dev) (t : Nat) : Option Exec :=
  d.execs.find? fun e => e.op == 0x0A04 && e.started && e.armed.isNone && ent e.par 16 2 == t

/-- Channel of a slot, none when its terminal has no record. -/
def Dev.slotChan? (d : Dev) (s : Nat) : Option Nat :=
  match slotSet? s with
  | some i => some (i / 4)
  | none => d.termChan? (s / 2)

/-- Step 4 for a slot at entry byte 16: the owning tenant of a unicast slot (11 R270). -/
def ownsSlot16 (d : Dev) (dom : Nat) (p : Bytes) : Bool :=
  match slotTerm? (ent p 16 4) with
  | some t => d.termOwner t == dom
  | none => false

/-! ### KEY_WRITE, KEY_ERASE, KEY_READ (11 R271) -/

/-- `KEY_WRITE` (11 Table 11-3). Read-only bits of FLAGS are ignored (00 R14). -/
def cmdKeyWrite : CmdDef where
  op := 0x0A01
  kind := fun _ _ _ => .perEntry
  buffer := true
  names := fun _ p => ((slotTerm? (field p 0 4)).map DrainObj.terminal).toList
  form := fun p =>
    let fl := field p 4 1
    p.length == 64 && decide (field p 0 4 < keySlots) && bits fl 7 6 == 0 && allZero (slice p 5 3) && allZero (slice p 12 4)
    && (bit fl 0 || bit fl 1) && (bit fl 1 || field p 8 4 == 0) && (decide (field p 0 4 < 49152) || !bit fl 1)
    && (!bit fl 4 || (bit fl 1 && allZero (slice p 16 16)))
  bad := fun d e => if bit (field e.par 4 1) 4 ∧ !(d.key (field e.par 0 4)).ctrOk then some [] else none
  forbid := fun d e =>
    let s := field e.par 0 4
    if d.slotActive s ∨ d.slotPending s then some (.conflict, [])
    else if ((slotTerm? s).bind d.exchange?).isSome then some (.busy, []) else none
  run := fun e d =>
    let p := e.par
    let fl := field p 4 1
    let fresh : KeySlot := { gcm := bit fl 1, gcmKey := slice p 32 32, salt := field p 8 4 }
    (d.setKey (field p 0 4) fun k =>
      if bit fl 4 then
        { fresh with ctr := k.ctr, ctrKey := k.ctrKey, exchanged := k.exchanged, ctrCount := k.ctrCount, lastUp := k.lastUp
                     countedDn := k.countedDn, countedUp := k.countedUp }
      else { fresh with ctr := bit fl 0, ctrKey := slice p 16 16 }).ok e

/-- The command `KEY_WRITE`. -/
def execKeyWrite (p : Packet) (s : State) : Host.Outcome State Fault Refusal := command cmdKeyWrite p s

/-- `KEY_ERASE`. -/
def cmdKeyErase : CmdDef where
  op := 0x0A02
  kind := fun _ _ _ => .perEntry
  names := fun _ p => ((slotTerm? (ent p 16 4)).map DrainObj.terminal).toList
  form := fun p => decide (ent p 16 4 < keySlots) && zeros 16 p [(20, 63)]
  forbid := fun d e =>
    let s := ent e.par 16 4
    if d.slotActive s ∨ d.slotPending s ∨ ((slotTerm? s).bind d.exchange?).isSome then some (.conflict, []) else none
  run := fun e d => { d with keys := d.keys.del (ent e.par 16 4) }.ok e

/-- The command `KEY_ERASE`. -/
def execKeyErase (p : Packet) (s : State) : Host.Outcome State Fault Refusal := command cmdKeyErase p s

/-- The 64-byte record of a slot as `KEY_READ` shows it. -/
def KeySlot.bytes (k : KeySlot) (s : Nat) : Bytes :=
  let fl := b2n k.ctrOk + 2 * b2n k.gcmOk + 4 * b2n k.ctrSpent + 8 * b2n k.gcmSpent + 32 * b2n (k.ctr && k.exchanged)
  beBytes 4 s ++ beBytes 1 fl ++ [0#8, 0#8, 0#8] ++ beBytes 4 k.salt ++ [0#8, 0#8, 0#8, 0#8]
  ++ slice (if k.exchanged then [] else k.ctrKey) 0 16 ++ slice k.gcmKey 0 32

/-- `KEY_READ`. -/
def cmdKeyRead : CmdDef where
  op := 0x0A08
  read := true
  form := fun p => decide (ent p 16 4 < keySlots) && zeros 16 p [(28, 63)]
  run := fun e d => (d.hostWrite (ent e.par 20 8) ((d.key (ent e.par 16 4)).bytes (ent e.par 16 4))).ok e

/-- The command `KEY_READ`. -/
def execKeyRead (p : Packet) (s : State) : Host.Outcome State Fault Refusal := command cmdKeyRead p s

/-! ### KEY_SWITCH (11 R272, R273) -/

/-- SFC less the current superframe count, as a signed 32-bit difference. -/
def Dev.sfcAhead (d : Dev) (sfc : Nat) : Int := sdiff 32 sfc (d.superframe d.time.frame % 2 ^ 32)

/-- The terminal has an enabled sealed flow. -/
def Dev.hasSealed (d : Dev) (t : Nat) : Bool := d.flows.any fun f => f.2.term == t && f.2.sealedFlow && !f.2.disabled

/-- `KEY_SWITCH`. -/
def cmdKeySwitch : CmdDef where
  op := 0x0A03
  tenant := some ownsSlot16
  names := fun d p => ((slotTerm? (ent p 16 4)).map DrainObj.terminal).toList ++ ((d.slotChan? (ent p 16 4)).map DrainObj.channel).toList
  form := fun p => decide (ent p 16 4 < keySlots) && zeros 16 p [(24, 63)]
  bad := fun d e => if 16000 < d.sfcAhead (ent e.par 20 4) then some [] else none
  forbid := fun d e =>
    let s := ent e.par 16 4
    let k := d.key s
    match d.slotChan? s with
    | none => some (.conflict, [])
    | some g =>
      if d.mode g = 0 ∨ !k.ctrOk ∨ (((slotTerm? s).any fun t => d.hasSealed t) ∧ !k.gcmOk) ∨ (d.slotSwitch? s).isSome ∨ d.slotActive s then
        some (.conflict, [])
      else if d.sfcAhead (ent e.par 20 4) < 3 then some (.late, []) else none
  run := fun e d =>
    let s := ent e.par 16 4
    let x := (s, ent e.par 20 4)
    let d := match slotSet? s with
      | some i => { d with bsets := d.bsets.put i ((d.bset i).1, some x) }
      | none => d.setTerm (s / 2) fun t => { t with keySwitch := some x }
    d.park e

/-- The command `KEY_SWITCH`. -/
def execKeySwitch (p : Packet) (s : State) : Host.Outcome State Fault Refusal := command cmdKeySwitch p s

/-- The event KEY_SWITCH_APPLY: the PHY frame whose superframe count is SFC has started. -/
def keySwitchApply (s : Nat) (d : Dev) : Dev :=
  match d.slotSwitch? s with
  | none => d
  | some (slot, sfc) =>
    let ahead := d.sfcAhead sfc
    if slot ≠ s ∨ 0 < ahead then d
    else
      let d := match slotSet? s with
        | some i => { d with bsets := d.bsets.put i (s % 2, none) }
        | none => d.setTerm (s / 2) fun t => { t with activeKey := s % 2, keySwitch := none }
      match d.execs.find? fun e => e.op == 0x0A03 && e.started && e.armed.isNone && ent e.par 16 4 == s with
      | some e => d.finish e .done [((d.time.frame : Int) + ahead).toNat * frameNs % 2 ^ 32, s]
      | none => d

/-- See `keySwitchApply`. -/
def execKeySwitchApply (slot : Nat) (s : State) : Host.Outcome State Fault Refusal := live (keySwitchApply slot) s

/-! ### KEY_EXCHANGE, SESSION_KEY_SET (11 R275, R276) -/

/-- Key_Control for the terminal's standby index; the attempt and its frame are noted in the command. -/
def Dev.askKey (d : Dev) (e : Exec) (h attempt : Nat) : Dev :=
  match d.term? h with
  | some t => (d.ploam t.chan plKey t.onu [1 - t.activeKey]).park { e with aux := [attempt, d.time.frame] }
  | none => d.park { e with aux := [attempt, d.time.frame] }

/-- `KEY_EXCHANGE`. -/
def cmdKeyExchange : CmdDef where
  op := 0x0A04
  tenant := some ownsTerm16
  names := namesTerm16
  form := fun p => decide (ent p 16 2 ≤ 24575) && zeros 16 p [(18, 63)]
  forbid := fun d e => needTerm d e fun t =>
    if t.state ≠ 4 then some (.conflict, [])
    else if (d.exchange? (ent e.par 16 2)).any (fun x => !(x.dom == e.dom && x.seq == e.seq)) then some (.busy, []) else none
  run := fun e d => d.askKey e (ent e.par 16 2) 1

/-- The command `KEY_EXCHANGE`. -/
def execKeyExchange (p : Packet) (s : State) : Host.Outcome State Fault Refusal := command cmdKeyExchange p s

/-- The event KEY_REPORT_RECEIVE: a Key_Report is checked and copied as every upstream PLOAM message (03 R100); one that passes
while an exchange waits for it gives the CTR part of the standby slot. -/
def keyReportReceive (h : Nat) (msg : Bytes) (consumer : Nat) (d : Dev) : Dev :=
  match d.term? h with
  | none => d
  | some t =>
    if !d.ploamPasses t msg then d.count (ctrTerm h 1)
    else
      let d := d.copyPloam t.chan h t.burstTime msg consumer
      match d.exchange? h with
      | none => d
      | some e =>
        let s := 2 * h + (1 - t.activeKey)
        let k : KeySlot :=
          { ctr := true, ctrKey := Config.unwrapKey (Config.deriveKek (d.mode t.chan) (d.sessionKey t)) msg, exchanged := true }
        { d with keys := d.keys.put s k }.finish e .done [s]

/-- See `keyReportReceive`. -/
def execKeyReportReceive (term : Nat) (msg : Bytes) (consumer : Nat) (s : State) : Host.Outcome State Fault Refusal :=
  live (keyReportReceive term msg consumer) s

/-- The event KEY_EXCHANGE_RETRY: 32 frames without a valid Key_Report. -/
def keyExchangeRetry (h : Nat) (d : Dev) : Dev :=
  match d.exchange? h with
  | none => d
  | some e =>
    let d := d.goTime ((e.aux.getD 1 0 + 32) * frameNs)
    if e.aux.getD 0 0 < 3 then d.askKey e h (e.aux.getD 0 0 + 1) else d.finish e .done [0xFFFFFFFF]

/-- See `keyExchangeRetry`. -/
def execKeyExchangeRetry (term : Nat) (s : State) : Host.Outcome State Fault Refusal := live (keyExchangeRetry term) s

/-- `SESSION_KEY_SET`. -/
def cmdSessionKeySet : CmdDef where
  op := 0x0A06
  kind := fun _ _ _ => .perEntry
  names := namesTerm16
  form := fun p => decide (ent p 16 2 ≤ 24575) && zeros 16 p [(18, 19), (36, 63)]
  forbid := fun d e => needTerm d e fun _ => none
  run := fun e d => (d.setTerm (ent e.par 16 2) fun t => { t with session := some (slice e.par 4 16) }).ok e

/-- The command `SESSION_KEY_SET`. -/
def execSessionKeySet (p : Packet) (s : State) : Host.Outcome State Fault Refusal := command cmdSessionKeySet p s

/-! ### KEY_BIND_SET, KEY_STATUS (11 R277, R284) -/

/-- `KEY_BIND_SET`. -/
def cmdKeyBindSet : CmdDef where
  op := 0x0A05
  kind := fun _ _ _ => .perEntry
  names := fun _ p => [.flow (ent p 16 2)]
  form := fun p => decide (ent p 18 1 ≤ 5) && zeros 16 p [(19, 63)]
  forbid := fun d e =>
    match d.flow? (ent e.par 16 2) with
    | none => some (.conflict, [])
    | some f => if (2 ≤ ent e.par 18 1 ∧ f.upPort ≠ 0xFFFF) ∨ (f.sealedFlow ∧ ent e.par 18 1 ≠ 0) then some (.conflict, []) else none
  run := fun e d => (d.setFlow (ent e.par 16 2) fun f => { f with keySrc := ent e.par 18 1 }).ok e

/-- The command `KEY_BIND_SET`. -/
def execKeyBindSet (p : Packet) (s : State) : Host.Outcome State Fault Refusal := command cmdKeyBindSet p s

/-- Upstream use of a slot in the last 16 frames. -/
def KeySlot.recentUp (k : KeySlot) (frame : Nat) : Bool :=
  match k.lastUp with
  | some f => decide (frame < f + 16)
  | none => false

/-- `KEY_STATUS`. -/
def cmdKeyStatus : CmdDef where
  op := 0x0A07
  tenant := some ownsSlot16
  read := true
  form := fun p => decide (ent p 16 4 < keySlots) && zeros 16 p [(20, 63)]
  run := fun e d =>
    let s := ent e.par 16 4
    let k := d.key s
    let r0 := b2n k.ctrOk * 2 ^ 31 + b2n k.gcmOk * 2 ^ 30 + b2n (d.slotActive s) * 2 ^ 29 + b2n (d.slotPending s) * 2 ^ 28
      + b2n k.ctrSpent * 2 ^ 27 + b2n k.gcmSpent * 2 ^ 26 + b2n (k.recentUp d.time.frame) * 2 ^ 25
    d.finish e .done [r0, sat 32 k.ctrCount, sat 32 k.invDown, k.invUp.getD 0]

/-- The command `KEY_STATUS`. -/
def execKeyStatus (p : Packet) (s : State) : Host.Outcome State Fault Refusal := command cmdKeyStatus p s

/-! ### The engine (11 R273, R274, R278 to R283) -/

/-- The nonce of a sealed frame (11 Table 11-4). -/
def sealNonce (salt dir ki inv : Nat) : Bytes := beBytes 4 salt ++ beBytes 1 dir ++ beBytes 1 ki ++ [0#8, 0#8] ++ beBytes 4 inv

/-- The sealed payload of a frame (11 Table 11-5). -/
def sealFrame (k : KeySlot) (ki portId inv : Nat) (data : Bytes) : Bytes :=
  let n := sealNonce k.salt 0 ki inv
  let c := gcmCrypt k.gcmKey n data
  [0x01#8] ++ beBytes 1 ki ++ [0#8, 0#8] ++ beBytes 4 inv ++ c ++ gcmTag k.gcmKey n (beBytes 2 portId ++ [0#8]) c

/-- One more PHY frame in which the CTR part is used downstream. -/
def KeySlot.useDown (k : KeySlot) (frame : Nat) : KeySlot :=
  if k.countedDn = some frame then k else { k with ctrCount := k.ctrCount + 1, countedDn := some frame }

/-- One more PHY frame `phy` in which the CTR part is used upstream; `frame` is the frame of now, in which the use falls. -/
def KeySlot.useUp (k : KeySlot) (phy frame : Nat) : KeySlot :=
  if k.countedUp = some phy then { k with lastUp := some frame }
  else { k with ctrCount := k.ctrCount + 1, countedUp := some phy, lastUp := some frame }

/-- The index bit that a pending switch whose superframe has come makes active; before that the active one (11 R273). -/
def Dev.indexNow (d : Dev) (active : Nat) (pending : Option (Nat × Nat)) : Nat :=
  match pending with
  | some (slot, sfc) => if d.sfcAhead sfc ≤ 0 then slot % 2 else active
  | none => active

/-- The slot of a flow's downstream frames; none for a clear flow. -/
def Dev.downSlot (d : Dev) (f : Flow) (g : Nat) : Option Nat :=
  if f.keySrc = 1 then none
  else if f.keySrc = 0 then
    some (2 * f.term + ((d.term? f.term).map fun t => d.indexNow t.activeKey t.keySwitch).getD 0)
  else
    let b := d.bset (4 * g + f.keySrc - 2)
    some (49152 + 8 * g + 2 * (f.keySrc - 2) + d.indexNow b.1 b.2)

/-- The PHY frame of now counts for the CTR part with which bytes of a frame are encrypted, while the slot still holds it (11 R282). -/
def Dev.useSlot (d : Dev) (slot : Nat) (key : Bytes) : Dev :=
  if (d.key slot).ctr && (d.key slot).ctrKey == key then d.setKey slot fun k => k.useDown d.time.frame else d

/-- What the cipher fixes at a frame's start: the key index field, the slot and key of CTR, and the payload, which a seal makes
whole and CTR encrypts as its fragments are sent. -/
structure Sealing where
  keyField : Nat
  slot     : Option Nat
  key      : Bytes
  payload  : Bytes
deriving DecidableEq, Repr

/-- The cipher's choice for a frame at its start; none when its part is missing or spent and the frame is discarded and counted
(a missing part downstream: log entry 62). -/
def Dev.encryptDown (d : Dev) (g : Nat) (f : Flow) (data : Bytes) : Dev × Option Sealing :=
  match d.downSlot f g with
  | none => (d, some ⟨0, none, [], data⟩)
  | some s =>
    let k := d.key s
    if f.sealedFlow then
      if k.gcmSpent then (d.count (ctrChan g 10), none)
      else if !k.gcm then (d.count (ctrChan g 9), none)
      else (d.setKey s fun k => { k with invDown := k.invDown + 1 }, some ⟨0, none, [], sealFrame k (s % 2) f.dnPort k.invDown data⟩)
    else if k.ctrSpent then (d.count (ctrChan g 10), none)
    else if !k.ctr then (d.count (ctrChan g 9), none)
    else (d.useSlot s k.ctrKey, some ⟨s % 2 + 1, some s, k.ctrKey, data⟩)

/-- An upstream INV is fresh (11 R279). -/
def KeySlot.fresh (k : KeySlot) (inv : Nat) : Bool :=
  match k.invUp with
  | none => true
  | some top => decide (top < inv) || (decide (top ≤ inv + 64) && decide (inv < top) && !k.seen.contains inv)

/-- The slot after an upstream INV is accepted. -/
def KeySlot.accept (k : KeySlot) (inv frame : Nat) : KeySlot :=
  let top := max inv (k.invUp.getD 0)
  { k with invUp := some top, seen := (inv :: k.seen).filter fun i => decide (top ≤ i + 64), invUpCount := k.invUpCount + 1, lastUp := some frame }

/-- Opens a sealed payload of a terminal's flow: the frame, or none when it is discarded and counted. -/
def Dev.openSeal (d : Dev) (g : Nat) (f : Flow) (p : Bytes) : Dev × Option Bytes :=
  let ki := field p 1 1 % 2
  let s := 2 * f.term + ki
  let k := d.key s
  let inv := field p 4 4
  let c := (p.drop 8).take (p.length - 24)
  let n := sealNonce k.salt 1 ki inv
  if p.length < 24 ∨ field p 0 1 ≠ 1 then (d.count (ctrChan g 12), none)
  else if k.gcmSpent then (d.count (ctrChan g 10), none)
  else if !k.gcm ∨ gcmTag k.gcmKey n (beBytes 2 f.upPort ++ [1#8]) c ≠ p.drop (p.length - 16) then (d.count (ctrChan g 12), none)
  else if !k.fresh inv then (d.count (ctrChan g 11), none)
  else (d.setKey s fun k => k.accept inv d.time.frame, some (gcmCrypt k.gcmKey n c))

/-- Decrypts an upstream frame of a flow, received in PHY frame `phy`, with the slot that its key index field names (11 R274). -/
def Dev.decryptUp (d : Dev) (g phy : Nat) (f : Flow) (x : RxFrame) : Dev × Option Bytes :=
  if f.sealedFlow then d.openSeal g f x.data
  else if x.keyField = 0 then (d, some x.data)
  else
    let s := 2 * f.term + (x.keyField - 1)
    let k := d.key s
    if 2 < x.keyField ∨ !k.ctr then (d.count (ctrChan g 9), none)
    else if k.ctrSpent then (d.count (ctrChan g 10), none)
    else
      (d.setKey s fun k => k.useUp phy d.time.frame,
       some (Config.ctrCrypt (d.mode g) k.ctrKey (d.superframe phy) x.pos x.data))

end Sys2Proof.Machine
end

