-- ==== Sys2Proof/Machine/Frames.lean ====
section
/-!
DEFINITION. Frames in queues: token buckets, meters, congestion and spill, enqueue at flows, channels and ports, the deep
buffer (09 R233 to R237; 10 R245 to R247, R254, R255, R258 to R260; 06 R164, R172).
-/
namespace Sys2Proof.Machine

/-! ### Links -/

/-- Follows the active's mirror record: a standby or wait-to-restore device (14 R341). -/
def Dev.follows (d : Dev) : Bool := d.standby && !d.prot.isolated

/-- The downstream link of a channel is up (03 R99, 14 R341). -/
def Dev.chanLink (d : Dev) (g : Nat) : Bool :=
  !d.chanIdle g && (if d.follows then d.prot.linksUp.contains g else !d.treeDark (g / 4))

/-- The link of a port or Brynlink is up. -/
def Dev.portUp (d : Dev) (l : Nat) : Bool := (d.port l).link == 2

/-! ### Counters of a frame -/

/-- Counts at a flow's counter set, when it owns one (10 R246). -/
def Dev.flowCount (d : Dev) (f off n : Nat) : Dev :=
  match d.flow? f with
  | some x => if bit x.cbase 31 then d.countBy (bits x.cbase 20 0 + off) n else d
  | none => d

/-- Ingress-overrun counter of a source (16 Table 16-2); a host transmit ring has none. -/
def overrunCtr? (src : Nat) (express : Bool) : Option Nat :=
  let i := src % 16384
  match src / 16384 with
  | 0 => some (ctrChan i (if express then 22 else 14))
  | 3 => none
  | _ => some (ctrLane i (if express then 13 else 5))

/-- Counts a frame lost at its source for want of room (01 R17, 09 R218). -/
def Dev.overrun (d : Dev) (x : Frame) : Dev :=
  match overrunCtr? x.src x.express with
  | some c => d.count c
  | none => d

/-- Histogram bin of a sojourn in ns (10 R267). -/
def sojournBin (ns : Nat) : Nat := if ns < 256 then 0 else min 15 (Nat.log2 ns - 7)

/-! ### Token buckets (10 R254, R255) -/

/-- The bucket refilled to now: whole units are added, the remainder is carried, the level is capped. A rate of 0 leaves the
bucket unused, and a bucket that is used again starts full. -/
def Bucket.fill (b : Bucket) (rate burst now : Nat) : Bucket :=
  if rate = 0 then { level := 0, rest := 0, last := now, used := false }
  else if !b.used then { level := burst * 1024, rest := 0, last := now, used := true }
  else
    let x := rate * (now - b.last) * 16 + b.rest
    { level := min (b.level + (x / 125000 : Nat)) (burst * 1024 : Nat), rest := x % 125000, last := now, used := true }

/-- A bucket whose rate is 0 always passes (10 R252). -/
def Bucket.ok (b : Bucket) : Bool := !b.used || decide (0 ≤ b.level)

/-- A frame is charged with its length and the egress overhead. -/
def Bucket.charge (b : Bucket) (len : Nat) (overhead : Int) : Bucket :=
  if b.used then { b with level := b.level - ((len : Int) + overhead) * 1024 } else b

/-! ### Meters (10 R258 to R260) -/

/-- Both buckets refilled to an ingress timestamp: in RFC 2697 what overflows the committed bucket fills the excess bucket, in
RFC 2698 each has its own rate. -/
def Meter.fill (m : Meter) (at_ : Nat) : Meter :=
  let x := m.cir * (at_ - m.c.last) * 16 + m.c.rest
  let c := m.c.level + (x / 125000 : Nat)
  let cap : Int := (m.cbs * 1024 : Nat)
  let last := max at_ m.c.last
  if m.mode = 1 then
    { m with c := { m.c with level := min c cap, rest := x % 125000, last }
             e := { m.e with level := min (m.e.level + max 0 (c - cap)) (m.ebs * 1024 : Nat), last } }
  else
    let y := m.pir * (at_ - m.e.last) * 16 + m.e.rest
    { m with c := { m.c with level := min c cap, rest := x % 125000, last }
             e := { m.e with level := min (m.e.level + (y / 125000 : Nat)) (m.ebs * 1024 : Nat), rest := y % 125000, last } }

/-- A frame's colour under RFC 2697 (mode 1) or RFC 2698 (mode 2), with the buckets after it: 0 green, 1 yellow, 2 red. -/
def Meter.colour (m : Meter) (at_ len : Nat) (dei : Bool) : Meter × Nat :=
  let m := m.fill at_
  let b := ((len : Int) + m.overhead) * 1024
  let pre := m.aware && dei
  let takeC := { m.c with level := m.c.level - b }
  let takeE := { m.e with level := m.e.level - b }
  if m.mode = 1 then
    if !pre ∧ b ≤ m.c.level then ({ m with c := takeC }, 0)
    else if b ≤ m.e.level then ({ m with e := takeE }, 1) else (m, 2)
  else if m.e.level < b then (m, 2)
  else if pre ∨ m.c.level < b then ({ m with e := takeE }, 1)
  else ({ m with c := takeC, e := takeE }, 0)

/-- Counts a coloured frame in the meter's counter set. -/
def Dev.meterCount (d : Dev) (m : Meter) (colour len : Nat) : Dev :=
  if bit m.cbase 31 then (d.count (bits m.cbase 20 0 + colour)).countBy (bits m.cbase 20 0 + 3 + colour) len else d

/-! ### Marks -/

/-- The frame with a new body and its FCS (15 R379). -/
def refcs (data : Bytes) : Bytes := let b := data.take (data.length - 4)
  b ++ fcsOf b

/-- The frame with DEI set in its outer tag. -/
def Frame.setDei (x : Frame) : Frame :=
  if x.tagAt = 0 then x
  else { x with data := refcs (patch x.data x.tagAt [(x.data.getD x.tagAt 0#8) ||| 0x10#8]) }

/-- ECN of the frame's IP header, 0 without one. -/
def Frame.ecn (x : Frame) : Nat :=
  match x.ipVer with
  | 4 => (x.data.getD (x.ipAt + 1) 0#8).toNat % 4
  | 6 => (x.data.getD (x.ipAt + 1) 0#8).toNat / 16 % 4
  | _ => 0

/-- An IPv4 header checksum after a 16-bit word has changed, in one's complement. -/
def csumUpdate (old m m' : Nat) : Nat :=
  let s := (65535 - old) + (65535 - m) + m'
  let s := s % 65536 + s / 65536
  65535 - (s % 65536 + s / 65536)

/-- A one's complement checksum after the 16-bit words from byte `off` on have changed. -/
def csumOver (sum : Nat) (old new : Bytes) (off : Nat) : Nat :=
  (List.range ((old.length - off) / 2)).foldl (fun s i => csumUpdate s (field old (off + 2 * i) 2) (field new (off + 2 * i) 2)) sum

/-- The frame with CE in its IP header; an IPv4 header checksum follows the change. -/
def Frame.setCe (x : Frame) : Frame :=
  let at' := x.ipAt
  match x.ipVer with
  | 4 =>
    let m := field x.data at' 2
    let m' := m / 4 * 4 + 3
    let data := patch x.data at' (beBytes 2 m')
    { x with data := refcs (patch data (at' + 10) (beBytes 2 (csumUpdate (field x.data (at' + 10) 2) m m'))) }
  | 6 => { x with data := refcs (patch x.data (at' + 1) [(x.data.getD (at' + 1) 0#8) ||| 0x30#8]) }
  | _ => x

/-! ### Congestion (09 R233 to R235, 10 R259) -/

/-- What congestion does to an arrival. -/
inductive Verdict where
  | pass
  | mark
  | drop
deriving DecidableEq, Repr

/-- The profile's answer to an arrival, with the accumulator after it. A yellow frame meets MAXTH and a red one MINTH in place
of DROPTH. -/
def Queue.judge (q : Queue) (p : QProf) (x : Frame) : Verdict × Nat :=
  let depth := q.depth
  let limit := if x.colour = 2 then p.minth else if x.colour = 1 then p.maxth else p.dropth
  let hit := if p.mark then Verdict.mark else .drop
  if limit < depth + x.data.length then (.drop, q.acc)
  else if p.mark ∧ x.ecn = 0 then (.pass, q.acc)
  else if p.maxth < depth then (hit, q.acc)
  else if depth < p.minth then (.pass, q.acc)
  else
    let acc := q.acc + p.pmax * (depth - p.minth) / (p.maxth - p.minth)
    if 65536 ≤ acc then (hit, acc - 65536) else (.pass, acc)

/-- Pages of the deep buffer (09 R237). -/
def deepPages : Nat := 786432

/-- Pages that a queue's deep part fills. -/
def Queue.pagesOf (q : Queue) : Nat := cdiv (bytesOf q.deep) 65536

/-- Pages in use by every queue but one that holds `own`. -/
def Dev.pagesUsed (d : Dev) : Nat :=
  sumBy d.flows (fun f => f.2.queue.pages) + sumBy d.ports fun p => sumBy p.2.queues Queue.pages

/-- Return reads of a queue: while the on-die bytes, reads under way included, are below RETURNTH, the oldest spilled frames are
requested; each may be placed 2 µs later (09 R235, R236). -/
def returnReads (returnth now : Nat) : (fuel : Nat) → Queue → Queue
  | 0, q => q
  | fuel + 1, q =>
    match q.deep with
    | [] => q
    | x :: rest =>
      if q.onDie + bytesOf (q.returns.map Prod.fst) < returnth then
        returnReads returnth now fuel { q with deep := rest, returns := q.returns ++ [(x, now + 2000)] }
      else q

/-- A queue after a change of its on-die part: return reads start, pages follow, and spilling ends with the deep part. -/
def Queue.turn (q : Queue) (p : Option QProf) (now : Nat) : Queue :=
  let q := match p with
    | some p => returnReads p.returnth now q.deep.length q
    | none => returnReads 1 now q.deep.length q
  { q with pages := q.pagesOf, spill := q.spill && !(q.deep.isEmpty && q.returns.isEmpty) }

/-- An arrival goes to the deep buffer: the queue spills, whatever its profile says now, or this arrival starts it (09 R235). -/
def Queue.spills (q : Queue) (p : Option QProf) : Bool :=
  q.spill || match p with
    | some p => p.spill && decide (p.spillth ≤ q.onDie)
    | none => false

/-- An arrival at a queue under its profile: what happened, and the frame that is kept. A queue without a profile in the running
version neither marks nor drops, and starts no spill. A spilled frame leaves its segments; one that finds no page is dropped. -/
def Dev.offer (d : Dev) (q : Queue) (p : Option QProf) (x : Frame) : Dev × Queue × Verdict :=
  let (v, acc) := match p with
    | some p => q.judge p x
    | none => (.pass, q.acc)
  let q := { q with acc }
  match v with
  | .drop => (d.freeFrame x, { q with drops := q.drops + 1 }, .drop)
  | v =>
    let x := if v = .mark then x.setCe else x
    let q := if v = .mark then { q with marks := q.marks + 1 } else q
    if q.spills p then
      let q' := { q with spill := true, deep := q.deep ++ [{ x with segs := [] }] }
      if deepPages < d.pagesUsed - q.pages + q'.pagesOf then
        ((d.freeFrame x).count (ctrDev 5), { q with spill := true, drops := q.drops + 1 }, .drop)
      else
        let q' := q'.turn p d.time.c
        (d.spillFree x, { q' with maxDepth := max q'.maxDepth q'.depth }, v)
    else
      let q := { q with frames := q.frames ++ [x] }
      (d, { q with maxDepth := max q.maxDepth q.depth }, v)

/-! ### Preemption (03 R83, R84; 10 R253) -/

/-- An encapsulated fragment leaves on a channel, with its 8-byte header. -/
def Dev.sendPon (d : Dev) (g portId keyField : Nat) (last : Bool) (p : Bytes) : Dev :=
  (d.emit (.pon g portId keyField last p)).setChan g fun c => { c with phyPos := c.phyPos + 8 + p.length }

/-- Encapsulation port of a frame's flow downstream. -/
def Dev.dnPortOf (d : Dev) (x : Frame) : Nat := ((d.flow? x.flow).map Flow.dnPort).getD 0xFFFF

/-- A fragment of a frame begins here: the place that the counter of CTR takes. -/
def Dev.fragmentHere (d : Dev) (g : Nat) (s : Sending) : Sending :=
  { s with sf := d.superframe d.time.frame, pos := (d.chan g).phyPos + 8 }

/-- The current fragment of a frame ends at payload byte `upto`; CTR encrypts it with the key of the frame's start (11 R273). -/
def Dev.sendFragment (d : Dev) (g : Nat) (s : Sending) (upto : Nat) (last : Bool) : Dev :=
  let p := slice s.payload s.sent (upto - s.sent)
  d.sendPon g (d.dnPortOf s.frame) s.keyField last
    (if s.slot.isSome then Config.ctrCrypt (d.mode g) s.key s.sf s.pos p else p)

/-- How many payload bytes of a frame being sent have left: a free value, since the block counts no PON word (log entry 64). -/
def Dev.leftNow (d : Dev) (s : Sending) : Nat := s.sent + d.freeNow % (s.payload.length - s.sent + 1)

/-- The channel's frame that is being sent gives way: with more than 16 bytes left, its fragment ends at the next 8-byte boundary.
The manual does not say whether those bytes are counted at the request or at the boundary (03 R83, the example of R84): at the
request (DESIGN CHOICE, log entry 64). A Lantern frame is never preempted. -/
def Dev.preempt (d : Dev) (g : Nat) : Dev :=
  match (d.chan g).sending with
  | none => d
  | some s =>
    if s.frame.cls = 0 then d
    else
      let left := d.leftNow s
      let d := d.freeNext
      if s.payload.length - left ≤ 16 then d
      else
        let cut := roundUp left 8
        let d := d.sendFragment g s cut false
        (d.setChan g fun c => { c with sending := none, fragment := some { s with sent := cut } }).count (ctrChan g 13)

/-! ### Enqueue at a flow (10 R245, R247; 06 R164, R172) -/

/-- The terminal takes downstream frames: RANGED, OPERATING or LOST. -/
def Dev.flowReady (d : Dev) (f : Flow) : Bool :=
  f.dnPort != 0xFFFF && match d.term? f.term with
    | some t => t.valid
    | none => false

/-- A drain of the flow's terminal or channel, or of the flow, turns new frames away (02 R71). -/
def Dev.flowClosed (d : Dev) (f : Flow) (g : Nat) : Bool :=
  f.disabled || d.draining (.terminal f.term) || (d.chan g).disabled

/-- A discarded frame is counted in its flow's set. -/
def Dev.flowLoss (d : Dev) (x : Frame) (f off : Nat) : Dev := (d.freeFrame x).flowCount f off 1

/-- A Lantern frame meets its channel's queue. -/
def Dev.enqueueLantern (d : Dev) (g f : Nat) (l : LFlow) (x : Frame) : Dev :=
  let c := d.chan g
  if l.dnq ≤ (c.lanternOf fun i => i == f).length ∨ l.smax < x.data.length then d.flowLoss x f 8
  else
    let d := d.setChan g fun c =>
      let q := c.lantern ++ [{ x with seq := c.lanternSeq }]
      { c with lantern := q, lanternSeq := (c.lanternSeq + 1) % 2 ^ 32, maxDepth := max c.maxDepth (bytesOf q) }
    d.preempt g

/-- Counts a frame with an FCS or code error once, at its source (03 R96, 15 R378; log entry 66). -/
def Dev.countFcs (d : Dev) (x : Frame) : Dev :=
  if x.rxErr = 1 then
    match x.src / 16384 with
    | 0 => d.count (ctrTerm x.term 7)
    | 3 => d
    | _ => d.count (ctrLane (x.src % 16384) 0)
  else d

/-- A frame of another class meets its flow's queue. A bad frame that would be spilled cannot start by cut-through, and is
dropped (09 R220). -/
def Dev.enqueueFlowQueue (d : Dev) (g h : Nat) (f : Flow) (x : Frame) : Dev :=
  if (d.chan g).flushed then d.flowLoss x h 7
  else if x.bad ∧ f.queue.spills (qprof? d.objs f.qprof) then (d.freeFrame x).countFcs x
  else
    let x := { x with seq := f.seq, cls := f.cls }
    let (d, q, v) := d.offer f.queue (qprof? d.objs f.qprof) x
    let d := d.setFlow h fun f => { f with queue := q, seq := if v = .drop then f.seq else (f.seq + 1) % 2 ^ 32 }
    match v with
    | .drop => d.flowCount h 4 1
    | .mark => d.flowCount h 5 1
    | .pass => d

/-- A frame reaches the queue of its flow. A Lantern frame for a link that is down is lost to that first (06 R172). -/
def Dev.enqueueFlow (d : Dev) (h : Nat) (x : Frame) : Dev :=
  let x := { x with flow := h }
  match d.flow? h with
  | none => d.freeFrame x
  | some f =>
    match d.termChan? f.term with
    | none => d.flowLoss x h 6
    | some g =>
      let lantern := (lflow? (d.objsAt x.slot) h).filter fun l => l.dnq != 0
      if lantern.isSome ∧ !d.chanLink g then d.flowLoss x h 9
      else if d.flowClosed f g then d.flowLoss x h 13
      else if !d.flowReady f then d.flowLoss x h 6
      else
        match lantern with
        | some l => d.enqueueLantern g h l { x with cls := 0 }
        | none => d.enqueueFlowQueue g h f x

/-! ### Enqueue at a port (10 R256, 06 R164) -/

/-- A queue of a port. -/
def Port.queue (p : Port) (c : Nat) : Queue := p.queues.getD c {}

/-- Changes one class queue of a port. -/
def Dev.setPortQueue (d : Dev) (l c : Nat) (f : Queue → Queue) : Dev :=
  d.setPort l fun p => { p with queues := p.queues.set c (f (p.queue c)) }

/-- Profile of a port's class queue; the Lantern queue has none. -/
def Dev.portProf (d : Dev) (l c : Nat) : Option QProf := if c = 0 then none else qprof? d.objs ((tmPort d.objs l).qprofs.getD (c - 1) 0)

/-- A frame reaches the class queue of its port. -/
def Dev.enqueuePort (d : Dev) (l : Nat) (x : Frame) : Dev :=
  let p := d.port l
  if x.cls = 0 then
    let d := match (lflow? (d.objsAt x.slot) x.flow).filter fun b => b.alloc.isSome with
      | some b => if b.smax < x.data.length ∧ x.src / 16384 = 0 then d.flowCount x.flow 11 1 else d
      | none => d
    if !d.portUp l then d.flowLoss x x.flow 9
    else d.setPortQueue l 0 fun q =>
      let q := { q with frames := q.frames ++ [x] }
      { q with maxDepth := max q.maxDepth q.depth }
  else if p.flushed then (d.freeFrame x).count (ctrLane l 6)
  else if x.bad ∧ (p.queue x.cls).spills (d.portProf l x.cls) then d.freeFrame x
  else
    let (d, q, _) := d.offer (p.queue x.cls) (d.portProf l x.cls) x
    d.setPortQueue l x.cls fun _ => q

/-- The frame came from a burst whose delimiter lies before the last cut (14 R359). -/
def Dev.beforeCut (d : Dev) (x : Frame) : Bool := x.src / 16384 == 0 && decide (x.itime < d.prot.cutAt)

/-- The switchover of an incoming device is not over (14 R359). -/
def Cutover.taking : Cutover → Bool
  | .none => false
  | .losing => false
  | .outgoing => false
  | .incoming => true
  | .opened => true
  | .closing => true

/-- D_up + E of a Lantern flow in whole ns (06 Table 6-1), where its channel is on and its uplink port has a rate. -/
def Dev.upDelay? (d : Dev) (f : LFlow) : Option Nat :=
  match (d.flowChan? f.flow).map (chanCfg d.objs), portRate? d.objs f.uport with
  | some c, some rp => if c.mode = 0 then none else some ((boundConsts c).1 + cdiv (8 * f.smax + 1016) rp)
  | _, _ => none

/-- Instant from which an incoming device may send an upstream Lantern frame: D_up + E after the accepted delimiter of its allocation's
last burst before the cut (14 R359). -/
def Dev.lanternFrom (d : Dev) (x : Frame) : Nat :=
  if x.cls ≠ 0 ∨ x.src / 16384 ≠ 0 then 0
  else match lflow? d.objs x.flow with
    | none => 0
    | some f => match f.alloc.bind d.prot.lanternAt.find?, d.upDelay? f with
      | some t, some n => t + n
      | _, _ => 0

/-- A frame for an uplink port: an isolated device discards it (14 Table 14-4), a standby holds it until the active has sent it
(14 R353), but for frames from before a planned cut. An active drops frames from before the cut at which it took over, holds the other
frames of a flow until its closing entry has come, and Lantern frames for as long as R359 has them wait; a frame never passes one of
its flow that is held. Otherwise the frame meets its queue. -/
def Dev.toPort (d : Dev) (l : Nat) (x : Frame) : Dev :=
  let hold := { d with prot := { d.prot with held := d.prot.held ++ [(l, x)] } }
  if d.standby then
    if d.prot.cutover = .outgoing ∧ d.beforeCut x then d.enqueuePort l x
    else if d.prot.isolated then (d.freeFrame x).count (ctrDev 8) else hold
  else if d.beforeCut x then d.freeFrame x
  else if x.src / 16384 = 0 ∧ x.cls ≠ 0 ∧ d.prot.cutover.taking ∧ !d.prot.closed.contains x.flow then hold
  else if d.now < d.lanternFrom x ∨ (x.cls = 0 ∧ d.prot.held.any fun h => h.2.cls == 0 && h.2.flow == x.flow) then hold
  else d.enqueuePort l x

/-- The held frames that meet a test go to their ports, in order; the others stay. -/
def Dev.releaseHeld (d : Dev) (p : Frame → Bool) : Dev :=
  let go := d.prot.held.filter fun h => p h.2
  let d := { d with prot := { d.prot with held := d.prot.held.filter fun h => !p h.2 } }
  go.foldl (fun d h => d.enqueuePort h.1 h.2) d

/-- Held Lantern frames of an active whose wait is over go to their ports. -/
def Dev.releaseLantern (d : Dev) : Dev :=
  if d.standby then d else d.releaseHeld fun x => x.cls == 0 && decide (d.lanternFrom x ≤ d.now)

/-! ### The deep buffer (09 R235 to R237) -/

/-- The earliest return read of every queue: its due counter value, and its place: kind 0 flow or 1 port, index, class. -/
def Dev.returnsDue (d : Dev) : List (Nat × Nat × Nat × Nat) :=
  d.flows.flatMap (fun f => (f.2.queue.returns.take 1).map fun r => (r.2, 0, f.1, 0))
  ++ d.ports.flatMap fun p => (List.range 4).flatMap fun c => ((p.2.queue c).returns.take 1).map fun r => (r.2, 1, p.1, c)

/-- The head of a queue's return reads is placed behind the on-die frames; with its pool empty it waits 2 µs more. -/
def Dev.returnHead (d : Dev) (q : Queue) (p : Option QProf) : Dev × Queue :=
  match q.returns with
  | [] => (d, q)
  | (x, due) :: rest =>
    match d.place x.data.length false x.slot (x.itime % 2 ^ 32) [0x10#8] with
    | .ok (d, segs) =>
      let q := { q with frames := q.frames ++ [{ x with segs, owner := 0x10 }], returns := rest }
      (d, q.turn p d.time.c)
    | .error (pool, _) => (d.count (ctrPool pool 1), { q with returns := (x, due + 2000) :: rest })

/-- The event DEEP_BUFFER_RETURN: the earliest return read becomes eligible. -/
def deepBufferReturn (d : Dev) : Dev :=
  match sortBy (fun r : Nat × Nat × Nat × Nat => r.1) d.returnsDue with
  | [] => d
  | (due, 0, f, _) :: _ =>
    let d := d.goCounter due
    match d.flow? f with
    | some x =>
      let (d, q) := d.returnHead x.queue (qprof? d.objs x.qprof)
      d.setFlow f fun x => { x with queue := q }
    | none => d
  | (due, _, l, c) :: _ =>
    let d := d.goCounter due
    let (d, q) := d.returnHead ((d.port l).queue c) (d.portProf l c)
    d.setPortQueue l c fun _ => q

/-- See `deepBufferReturn`. -/
def execDeepBufferReturn (s : State) : Host.Outcome State Fault Refusal := live deepBufferReturn s

/-! ### METER_SET (10 R258) -/

/-- Fields of 10 Table 10-7. -/
def meterForm (p : Bytes) : Bool :=
  let mode := ent p 18 1
  let burst := fun v => within v 1024 16777215
  decide (mode ≤ 2) && zeros 16 p [(39, 39), (44, 63)] && decide (ent p 19 1 ≤ 1)
  && (mode == 0 || (decide (ent p 36 1 ≤ 2) && decide (ent p 37 1 ≤ 1) && within (ent p 20 4) 64 50000000 && burst (ent p 24 4) && burst (ent p 32 4)
    && (if mode = 2 then decide (ent p 20 4 ≤ ent p 28 4) else ent p 28 4 == 0)
    && decide (-32 ≤ signed 8 (ent p 38 1)) && decide (signed 8 (ent p 38 1) ≤ 64)
    && counterOk (ent p 40 4) && decide (bits (ent p 40 4) 20 0 + 6 ≤ ctrCount)))

/-- The meter that a write describes, both buckets full. -/
def meterOf (p : Bytes) (now : Nat) : Meter :=
  { mode := ent p 18 1, aware := bit (ent p 19 1) 0, cir := ent p 20 4, cbs := ent p 24 4, pir := ent p 28 4, ebs := ent p 32 4
    yact := ent p 36 1, ract := ent p 37 1, overhead := signed 8 (ent p 38 1), cbase := ent p 40 4
    c := { level := ent p 24 4 * 1024, last := now, used := true }, e := { level := ent p 32 4 * 1024, last := now, used := true } }

/-- A rewrite keeps the levels, cut to the new sizes. -/
def Meter.keep (m old : Meter) : Meter :=
  { m with c := { old.c with level := min old.c.level (m.cbs * 1024 : Nat) }, e := { old.e with level := min old.e.level (m.ebs * 1024 : Nat) } }

/-- `METER_SET`; MODE 0 removes the meter, and one that does not exist gives `CONFLICT` (02 R435). -/
def cmdMeterSet : CmdDef where
  op := 0x0908
  kind := fun _ _ _ => .perEntry
  guarded := true
  form := meterForm
  forbid := fun d e => if ent e.par 18 1 = 0 ∧ (d.meters.find? (ent e.par 16 2)).isNone then some (.conflict, []) else none
  run := fun e d =>
    let i := ent e.par 16 2
    if ent e.par 18 1 = 0 then { d with meters := d.meters.del i }.ok e
    else
      let m := meterOf e.par d.now
      let m := match d.meters.find? i with
        | some old => m.keep old
        | none => m
      { d with meters := d.meters.put i m }.ok e

/-- The command `METER_SET`. -/
def execMeterSet (p : Packet) (s : State) : Host.Outcome State Fault Refusal := command cmdMeterSet p s

end Sys2Proof.Machine
end

