-- ==== Sys2Proof/Machine/Pipeline.lean ====
section
/-!
DEFINITION. Pipelines and switch core: ingress queues, passes, placement and copies, virtual output queues and the crossbar,
and the commands of group 0x08 that set them (01 R16 to R19; 07 R174 to R197; 09 R216 to R232).
-/
namespace Sys2Proof.Machine

/-! ### POOL_CARVE_SET, QUEUE_PROFILE_SET, CUT_SET, REPL_LIST_SET -/

/-- `POOL_CARVE_SET` (09 R222). -/
def cmdPoolCarveSet : CmdDef :=
  versionedCmd 0x0801 false (fun _ => []) noRemoval (fun _ => true) fun p =>
    sumBy (List.range 5) (fun i => ent p (16 + 2 * i) 2) == 192 && ((List.range 5).all fun i => decide (1 ≤ ent p (16 + 2 * i) 2))
    && decide (2 * ent p 28 4 ≤ ent p 24 2 * 512) && zeros 16 p [(26, 27), (32, 63)]

/-- The command `POOL_CARVE_SET`. -/
def execPoolCarveSet (p : Packet) (s : State) : Host.Outcome State Fault Refusal := command cmdPoolCarveSet p s

/-- `QUEUE_PROFILE_SET` (09 R233); MODE bit 7 removes the profile. -/
def cmdQueueProfileSet : CmdDef :=
  versionedCmd 0x0803 false (fun p => slice p 0 1) (fun p => bit (ent p 17 1) 7)
    (fun p => decide (ent p 16 1 ≤ 63) && bits (ent p 17 1) 6 2 == 0 && zeros 16 p [(40, 63)]) fun p =>
    decide (ent p 16 1 ≤ 63) && bits (ent p 17 1) 6 2 == 0 && decide (ent p 20 4 ≤ ent p 24 4) && decide (ent p 24 4 ≤ ent p 28 4)
    && decide (ent p 36 4 < ent p 32 4) && decide (ent p 32 4 ≤ ent p 28 4) && zeros 16 p [(40, 63)]

/-- The command `QUEUE_PROFILE_SET`. -/
def execQueueProfileSet (p : Packet) (s : State) : Host.Outcome State Fault Refusal := command cmdQueueProfileSet p s

/-- `CUT_SET` (09 R221): the egress is a channel, or a port or Brynlink by its lowest lane. -/
def cmdCutSet : CmdDef :=
  versionedCmd 0x0804 false (fun p => slice p 0 2) noRemoval (fun _ => true) fun p =>
    decide (ent p 16 2 / 16384 ≤ 2) && srcOk (ent p 16 2) && decide (ent p 18 1 ≤ 15) && zeros 16 p [(19, 63)]

/-- The command `CUT_SET`. -/
def execCutSet (p : Packet) (s : State) : Host.Outcome State Fault Refusal := command cmdCutSet p s

/-- Entries of a replication list's buffer (09 R232). -/
def replEntries (p : Bytes) : List (Nat × Nat) :=
  (List.range (field p 2 1)).map fun i => (field p (4 + 4 * i) 1, field p (6 + 4 * i) 2)

/-- `REPL_LIST_SET`; COUNT 0 removes the list, and one that does not exist gives `CONFLICT` (02 R435). -/
def cmdReplListSet : CmdDef where
  op := 0x0805
  kind := fun _ _ _ => .perEntry
  buffer := true
  guarded := true
  names := fun _ p => (replEntries p).flatMap fun e => destNames e.1 e.2
  form := fun p => decide (field p 0 2 ≤ 8191) && decide (field p 2 1 ≤ 64) && allZero (slice p 3 1)
    && ((List.range (field p 2 1)).all fun i => allZero (slice p (5 + 4 * i) 1))
    && ((replEntries p).all fun e => e.1 != 4 && decide (e.1 ≤ 5) && destOk e.1 e.2) && allZero (p.drop (4 + 4 * field p 2 1))
  forbid := fun d e =>
    if (replEntries e.par).any fun x => d.destLost x.1 x.2 then some (.conflict, [])
    else if field e.par 2 1 = 0 ∧ (d.sw.repl.find? (field e.par 0 2)).isNone then some (.conflict, []) else none
  run := fun e d =>
    let i := field e.par 0 2
    { d with sw := { d.sw with repl := if field e.par 2 1 = 0 then d.sw.repl.del i else d.sw.repl.put i (replEntries e.par) } }.ok e

/-- The command `REPL_LIST_SET`. -/
def execReplListSet (p : Packet) (s : State) : Host.Outcome State Fault Refusal := command cmdReplListSet p s

/-! ### Ingress queues (01 R16, R17) -/

/-- Pipeline of a source (01 Table 1-2). -/
def pipeOf (src : Nat) : Nat :=
  let i := src % 16384
  match src / 16384 with
  | 0 => i / 24
  | 3 => i % 8
  | _ => i / 12

/-- A pipeline's queues. -/
def Dev.pipe (d : Dev) (p : Nat) : Pipe := d.sw.pipes.getD p {}

/-- Changes a pipeline's queues. -/
def Dev.setPipe (d : Dev) (p : Nat) (f : Pipe → Pipe) : Dev := { d with sw := { d.sw with pipes := d.sw.pipes.put p (f (d.pipe p)) } }

/-- The flow is a Lantern flow of the running version, in whichever direction its binding serves (01 R17, 06 R163). -/
def Dev.upLantern (d : Dev) (flow : Nat) : Bool := (lflow? d.objs flow).isSome

/-- A frame enters the ingress queue of its pipeline, or is dropped and counted. -/
def Dev.ingress (d : Dev) (x : Frame) : Dev :=
  let p := pipeOf x.src
  let q := d.pipe p
  let x := { x with ifcs := field x.data (x.data.length - 4) 4 }
  if x.express then
    if q.express.length < 512 then d.setPipe p fun q => { q with express := q.express ++ [x] }
    else
      let d := d.overrun x
      if x.src / 16384 = 0 ∧ d.upLantern x.bound then d.flowCount x.bound 8 1 else d
  else if q.normal.length < Config.normalDepthLess1 + 1 then d.setPipe p fun q => { q with normal := q.normal ++ [x] }
  else d.overrun x

/-! ### Rates and cut-through (09 R220, R221) -/

/-- Rate of a port or Brynlink in units of 10^-5 Gb/s. -/
def Dev.laneGroupRate5 (d : Dev) (l : Nat) : Nat :=
  match d.group? l with
  | some q => if q.kind = 1 then 100000 * q.rateGb else laneRate5 q.rate * q.width
  | none => 0

/-- Line rate of a channel downstream. -/
def Dev.downRate5 (d : Dev) (g : Nat) : Nat := if d.mode g = 2 then 4976640 else 995328

/-- Rate of a source; none for a host transmit ring. -/
def Dev.sourceRate5? (d : Dev) (src : Nat) : Option Nat :=
  match src / 16384 with
  | 0 => some (upRate5 (chanCfg d.objs (src % 16384)))
  | 3 => none
  | _ => some (d.laneGroupRate5 (src % 16384))

/-- The egress of a destination with its rate; none for the host. -/
def Dev.egress? (d : Dev) : Dest → Option (Nat × Nat)
  | .flow f => (d.flowChan? f).map fun g => (srcCode 0 g, d.downRate5 g)
  | .port l => some (srcCode 1 l, d.laneGroupRate5 l)
  | .brynlink l => some (srcCode 2 l, d.laneGroupRate5 l)
  | _ => none

/-- A frame that reaches a destination now would be spilled to the deep buffer; the Lantern class never is (09 R234, R235). -/
def Dev.wouldSpill (d : Dev) (cls : Nat) (t : Dest) : Bool :=
  cls != 0 &&
  match t with
  | .flow f => ((d.flow? f).map fun y => y.queue.spills (qprof? d.objs y.qprof)).getD false
  | .port l => ((d.port l).queue cls).spills (d.portProf l cls)
  | .brynlink l => ((d.port l).queue cls).spills (d.portProf l cls)
  | _ => false

/-- A frame may start to a destination by cut-through (09 R220). -/
def Dev.cutEligible (d : Dev) (x : Frame) (t : Dest) : Bool :=
  x.early &&
  match d.egress? t, d.sourceRate5? x.src with
  | some (e, rate), some r => cutAllowed d.objs e x.cls && decide (rate ≤ r) && !d.wouldSpill x.cls t
  | _, _ => false

/-! ### Destinations (08 R202, 09 R232, 10 R245) -/

/-- Where a DKIND and DEST lead; a replication list gives each of its destinations as it stands now. -/
def Dev.dests (d : Dev) (kind dest : Nat) : List Dest :=
  let one := fun (k v : Nat) => match k with
    | 0 => Dest.flow v
    | 1 => .port v
    | 2 => .brynlink v
    | 3 => .host v
    | _ => .discard
  if kind = 4 then
    match d.sw.repl.find? dest with
    | some l => l.map fun e => one e.1 e.2
    | none => [.discard]
  else [one kind dest]

/-- A group that takes frames: it exists and is not disabled. -/
def Dev.groupTakes (d : Dev) (l kind : Nat) : Bool := d.isGroup l [kind] && (d.port l).disabled.isNone

/-- A destination that exists and is not disabled. -/
def Dev.destLive (d : Dev) : Dest → Bool
  | .flow f => match d.flow? f with
    | some x => !x.disabled
    | none => false
  | .port l => d.groupTakes l 1
  | .brynlink l => d.groupTakes l 2
  | .host r => match d.sw.rx.find? r with
    | some q => !q.disabled
    | none => false
  | .discard => false

/-- Crossbar output of a destination (09 R216). -/
def Dev.outputOf (d : Dev) : Dest → Nat
  | .flow f => ((d.flowChan? f).getD 0) / 24
  | .port l => 8 + l / 12
  | .brynlink l => 8 + l / 12
  | _ => 16

/-! ### Virtual output queues (09 R218) and copies (09 R224 to R228, R232) -/

/-- Descriptors of an input in use, shared or reserved. -/
def Switch.descriptors (w : Switch) (input : Nat) (reserved : Bool) : Nat :=
  (w.voqs.filter fun v => v.input == input && v.reserved == reserved).length

/-- A copy takes a descriptor of its input and joins its virtual output queue, or is dropped and counted. -/
def Dev.toVoq (d : Dev) (pipe : Nat) (x : Frame) (t : Dest) : Dev :=
  let reserved := x.express && decide (d.sw.descriptors pipe true < 512)
  if reserved ∨ d.sw.descriptors pipe false < 7680 then
    let v : Voq := { input := pipe, output := d.outputOf t, dest := t, cls := x.cls, frame := x, cells := cdiv x.data.length 300, reserved }
    { d with sw := { d.sw with voqs := d.sw.voqs ++ [v] } }
  else
    let d := (d.freeFrame x).overrun x
    if x.express ∧ (lflow? (d.objsAt x.slot) x.flow).isSome then d.flowCount x.flow 8 1 else d

/-- Owner code of a destination copy. -/
def copyOwner (k : Nat) : Nat := 0x10 + k

/-- The copies over one chain: the owners are named before the chain's holder is freed. A copy to a destination of `cuts` starts by
cut-through. -/
def Dev.copyOut (d : Dev) (pipe : Nat) (x : Frame) (ts cuts : List Dest) : Dev :=
  let d := d.nameOwners x.segs ((List.range ts.length).map fun k => BitVec.ofNat 8 (copyOwner k))
  let d := d.freeFrame x
  (ts.zipIdx).foldl (fun d t => d.toVoq pipe { x with owner := copyOwner t.2, early := x.early && cuts.contains t.1 } t.1) d

/-- The chains of a frame's copies: the first holds at most seven, and each further seven take a physical copy of their own. -/
def Dev.fanOut (d : Dev) (pipe : Nat) (x : Frame) (ts cuts : List Dest) : Dev :=
  let d := d.copyOut pipe x (ts.take 7) cuts
  (List.range (cdiv (ts.length - 7) 7)).foldl (fun d i =>
    match d.place x.data.length (x.cls == 0) x.slot (x.itime % 2 ^ 32) [0x01#8] with
    | .ok (d, segs) => d.copyOut pipe { x with segs, owner := 1 } ((ts.drop (7 + 7 * i)).take 7) cuts
    | .error (_, d) => d) d

/-- What becomes of a frame's pieces (09 R224, R225). -/
inductive PieceFate where
  /-- Every piece is placed. -/
  | whole (x : Frame)
  /-- A later piece found its pool empty: the frame is dropped, and what has started to leave is stomped. -/
  | cut
  /-- The first piece found its pool empty. -/
  | lost
deriving DecidableEq, Repr

/-- A frame is placed at its first pass; a frame of a second pass is placed already. A frame that an empty pool meets has every
segment freed again. -/
def Dev.placed (d : Dev) (x : Frame) : Dev × PieceFate :=
  if !x.segs.isEmpty then (d, .whole x)
  else
    match d.place x.data.length (x.cls == 0) x.slot (x.itime % 2 ^ 32) [0x01#8] with
    | .ok (d, segs) => (d, .whole { x with segs, owner := 1 })
    | .error (_, d') =>
      match d.place (min x.data.length 2048) (x.cls == 0) x.slot 0 [0x01#8] with
      | .ok _ => (d', if 2048 < x.data.length then .cut else .lost)
      | .error _ => (d', .lost)

/-- Counts the destinations that take nothing and keeps the others. -/
def Dev.liveDests (d : Dev) (pipe : Nat) (ts : List Dest) (context : Bool) : Dev × List Dest :=
  if context then (d, ts)
  else (d.countBy (ctrPipe pipe 2) (ts.filter fun t => !d.destLive t).length, ts.filter d.destLive)

/-! ### Exceptions (07 R179) -/

/-- A frame goes to its reason's ring, through the reason's bucket. -/
def Dev.toReason (d : Dev) (pipe : Nat) (x : Frame) (reason : Nat) : Dev :=
  match d.police reason with
  | (d, none) => d.freeFrame x
  | (d, some r) =>
    let (d, ts) := d.liveDests pipe [.host r] false
    if ts.isEmpty then d.freeFrame x
    else
      match d.placed { x with reason, early := false } with
      | (d, .whole x) => d.fanOut pipe x ts []
      | (d, _) => d

/-- The source delivers runts and giants under ERRDELIV (03 R97, 15 R378). -/
def Dev.errDeliv (d : Dev) (src : Nat) : Bool :=
  match src / 16384 with
  | 0 => (chanCfg d.objs (src % 16384)).errDeliv
  | 1 => ((d.group? (src % 16384)).map Group.errDeliv).getD false
  | _ => false

/-- A bad frame that nothing has sent yet is discarded: counted when its FCS or code failed; a giant has been counted, and goes to
reason 6 under ERRDELIV. -/
def Dev.dropBad (d : Dev) (pipe : Nat) (x : Frame) : Dev :=
  if x.rxErr = 2 ∧ d.errDeliv x.src then d.toReason pipe { x with bad := false, dflags := 8, pflags := 0 } 6
  else (d.freeFrame x).countFcs x

/-- An exception of a frame; a bad frame reaches no host ring. -/
def Dev.except (d : Dev) (pipe : Nat) (x : Frame) (reason : Nat) : Dev :=
  if x.bad then d.dropBad pipe x else d.toReason pipe x reason

/-! ### A pass (07 R174 to R184, R195 to R197; 08 R199) -/

/-- TPIDs that the frame's source enables: FLAGS of an uplink port, otherwise the default of FLAGS (log entry 65). -/
def Dev.tpids (d : Dev) (x : Frame) : Nat :=
  if x.src / 16384 = 1 then
    match Machine.group? (d.objsAt x.slot) (x.src % 16384) with
    | some q => bits q.flags 6 4
    | none => 3
  else 3

/-- A PTP message of the profile of the frame's port: it goes to the Keepers and runs no program (12 R298). -/
def Dev.ptpTaken (d : Dev) (x : Frame) (p : Parse) : Bool :=
  x.src / 16384 == 1 &&
  match d.time.ptp.find? (x.src % 16384) with
  | none => false
  | some q =>
    match q.profile with
    | 1 => p.etype == 0x88F7 && (p.da == 0x011B19000000 || p.da == 0x0180C200000E)
    | 2 => p.proto == 17 && (p.dport == 319 || p.dport == 320)
        && (if bit q.flags.toNat 3 then p.ipver == 6 && p.dstAddr == q.addr else p.ipver == 4 && p.dstAddr == q.addr % 2 ^ 32)
    | _ => false

/-- The frame belongs to a Lantern flow in its version: upstream when it comes from a channel, downstream otherwise. -/
def Dev.isLantern (d : Dev) (x : Frame) : Bool :=
  match lflow? (d.objsAt x.slot) x.flow with
  | some l => if x.src / 16384 = 0 then l.alloc.isSome else l.dnq != 0
  | none => false

/-- Class of a frame: Lantern for a Lantern flow, otherwise the result's, otherwise its flow's; a frame with none of these has a
free class (log entry 55). -/
def Dev.frameClass (d : Dev) (x : Frame) (r : Result) : Nat :=
  if d.isLantern x then 0
  else
    match r.cls, d.flow? x.flow with
    | some c, _ => c % 4
    | none, some f => f.cls % 4
    | none, none => Config.openClass % 4

/-- The meter of a result: the frame with its colour and DEI, or none when the meter drops it. -/
def Dev.meterPass (d : Dev) (x : Frame) (r : Result) : Dev × Option Frame :=
  match r.meter.bind fun i => (d.meters.find? i).map fun m => (i, m) with
  | none => (d, some x)
  | some (i, m) =>
    let dei := x.tagAt != 0 && bit (x.data.getD x.tagAt 0#8).toNat 4
    let (m, c) := m.colour x.itime x.data.length dei
    let d := { d with meters := d.meters.put i m }.meterCount m c x.data.length
    let x := { x with colour := c }
    match c with
    | 0 => (d, some x)
    | 1 => (d, if m.yact = 2 then none else some (if m.yact = 1 then x.setDei else x))
    | _ => (d, if m.ract = 0 then none else some x.setDei)

/-- A frame with its destinations leaves the pipeline. A bad or malformed frame that was handed over early, and one whose later
piece finds its pool empty, goes on only to the destinations that it has started to by cut-through, where it is stomped (01 R19;
09 R220, R225). -/
def Dev.leave (d : Dev) (pipe : Nat) (x : Frame) (ts : List Dest) (context : Bool) : Dev :=
  match d.liveDests pipe ts context with
  | (d, []) => d.freeFrame x
  | (d, ts) =>
    let cuts := ts.filter (d.cutEligible x)
    let ports := cuts.any fun t => match t with
      | .port _ => true
      | .brynlink _ => true
      | _ => false
    match d.placed x with
    | (d, .lost) => d
    | (d, .cut) => d.fanOut pipe { x with bad := true, rxErr := 0 } cuts cuts
    | (d, .whole x) =>
      if x.bad ∨ x.malformed then
        let d := if x.malformed ∧ !cuts.isEmpty then d.count (ctrPipe pipe 4) else d
        if !cuts.isEmpty then (if ports then d.countFcs x else d).fanOut pipe { x with bad := true } cuts cuts
        else d.except pipe x 1
      else d.fanOut pipe x ts cuts

/-- Where a frame that its program forwards goes: to its looked-up destination, or to that of its flow context; without a flow to
the source's miss destination. True where the flow context itself takes the frame. -/
def Dev.destOf (d : Dev) (x : Frame) (p : Parse) : Dev × List Dest × Bool :=
  let s := d.fwdSource x.src
  if s.lookup then
    let (d, k, v) := d.fwdDest x p
    (d, d.dests k v, false)
  else
    match d.flow? x.flow with
    | none => (d, d.dests s.missKind s.missDest, false)
    | some f => if x.src / 16384 = 0 then (d, d.dests f.udKind f.udest, false) else (d, [.flow x.flow], true)

/-- The frame waits for its second pass behind what its ingress queue holds, its segments named for the hold. -/
def Dev.recirculate (d : Dev) (pipe : Nat) (x : Frame) (p : Parse) (r : Result) : Dev :=
  match d.placed x with
  | (d, .cut) => d
  | (d, .lost) => d
  | (d, .whole x) =>
    let d := (d.nameOwners x.segs [0x04#8]).freeFrame x
    let start := p.inner.getD (0, 0)
    let y := { x with pass := 1, owner := 4, action := r.word, tunId := p.tunId, bound := r.flow.getD x.bound, parseAt := start.1, parseIp := start.2 }
    d.setPipe pipe fun q => if x.express then { q with express := q.express ++ [y] } else { q with normal := q.normal ++ [y] }

/-- The reason for which a frame's last pass ends at the host: a fault of the frame before it has started to leave comes first
(07 R177), then a fragment, then the verdict. -/
def Frame.reason? (x : Frame) (p : Parse) (r : Result) : Option Nat :=
  let why := if p.isFrag then some 2 else match r.verdict with
    | 0 => some (if p.unknown then 4 else 3)
    | 3 => some 5
    | _ => none
  why.map fun k => if x.malformed then 1 else k

/-- The lookups of a frame's last pass, before its meter (01, step 2 of the downstream path): the learning check, which DROPSA ends,
and the destination of a frame that is forwarded. -/
def Dev.lookups (d : Dev) (pipe : Nat) (x : Frame) (p : Parse) (r : Result) : Dev × Bool × Option (List Dest × Bool) :=
  let (d, gone) := if x.malformed then (d, false) else d.learnCheck x p pipe
  if gone then (d, true, none)
  else if (x.reason? p r).isSome then (d, false, none)
  else
    let (d, ts, context) := d.destOf x p
    (d, false, some (ts, context))

/-- A frame's last pass: looked up, then policed, then sent to its reason's ring or its destinations. Every pass whose result names a
meter updates it (10 R259). -/
def Dev.endPass (d : Dev) (pipe : Nat) (x : Frame) (p : Parse) (r : Result) : Dev :=
  let (d, gone, dests) := d.lookups pipe x p r
  match d.meterPass x r with
  | (d, none) => d.freeFrame x
  | (d, some x) =>
    if gone then d.freeFrame x
    else
      match dests with
      | some (ts, context) => d.leave pipe x ts context
      | none => d.except pipe x ((x.reason? p r).getD 3)

/-- A frame's pass, with its result at hand. -/
def Dev.applyResult (d : Dev) (pipe : Nat) (x : Frame) (p : Parse) (r : Result) : Dev :=
  let d := match r.counter with
    | some c => d.count c
    | none => d
  let x := { x with flow := r.flow.getD x.bound }
  let x := { x with cls := d.frameClass x r }
  let lantern := x.express || r.cls == some 0
  let again := r.recirc && !p.isFrag
  if r.verdict = 2 ∨ (again ∧ (x.pass ≠ 0 ∨ !lantern)) then
    match d.meterPass x r with
    | (d, none) => d.freeFrame x
    | (d, some x) =>
      if r.verdict = 2 then (d.freeFrame x).count (ctrPipe pipe 1)
      else if x.pass ≠ 0 then (d.freeFrame x).count (ctrPipe pipe 0)
      else d.recirculate pipe x p r
  else (if again then d.count (ctrPipe pipe 3) else d).endPass pipe x p r

/-- One frame's pass through a pipeline. A frame that is excepted before its program has run has the flow of its port, and the class
of that flow. -/
def Dev.pass (d : Dev) (pipe : Nat) (x : Frame) : Dev :=
  let x := if x.pass = 0 then { x with slot := d.runSlot } else x
  let x := { x with flow := x.bound }
  let x := { x with cls := d.frameClass x {} }
  if x.reason = 6 then d.except pipe x 6
  else
    let p := parseFrame x.data x.parseAt x.parseIp (d.tpids x)
    let x := { x with pflags := p.flags, tagAt := p.tagAt, ipAt := p.ipAt, ipVer := p.ipver, malformed := x.malformed || p.malTail }
    if d.ptpTaken x p then d.freeFrame x
    else if p.malHead ∨ (x.malformed ∧ !x.early) then d.except pipe x 1
    else d.applyResult pipe x p (d.classify x p)

/-! ### The crossbar (09 R216, R217) -/

/-- A waiting frame of an input for an output. -/
def Voq.asks (v : Voq) (busyIn busyOut : List Nat) : Bool := !v.started && !busyIn.contains v.input && !busyOut.contains v.output

/-- The grant of an output: its class and input, from its pointer for the class on. -/
def Switch.grant? (w : Switch) (asks : List Voq) (out : Nat) : Option (Nat × Nat × Nat) :=
  let l := asks.filter fun v => v.output == out
  match sortBy Voq.cls l with
  | [] => none
  | v :: _ =>
    let p := w.rr.getD (out * 4 + v.cls) 0
    ((List.range 8).find? fun k => l.any fun u => u.cls == v.cls && u.input == (p + k) % 8).map fun k => (out, v.cls, (p + k) % 8)

/-- The pairs that one iteration accepts: each input takes its grant of the highest class, then of the lowest output. -/
def Switch.accepts (w : Switch) (busyIn busyOut : List Nat) : List (Nat × Nat × Nat) :=
  let asks := w.voqs.filter fun v => v.asks busyIn busyOut
  let grants := (List.range 17).filterMap (w.grant? asks)
  (List.range 8).filterMap fun i =>
    (sortBy (fun g : Nat × Nat × Nat => g.2.1 * 32 + g.1) (grants.filter fun g => g.2.2 == i)).head?

/-- Starts the oldest waiting frame of an input, output and class. -/
def startVoq (a : Nat × Nat × Nat) : List Voq → List Voq
  | [] => []
  | v :: t => if v.input == a.2.2 && v.output == a.1 && v.cls == a.2.1 && !v.started then { v with started := true } :: t else v :: startVoq a t

/-- One iteration of arbitration; pointers move in the first. -/
def Switch.iterate (w : Switch) (first : Bool) : Switch :=
  let on := w.voqs.filter Voq.started
  let acc := w.accepts (on.map Voq.input) (on.map Voq.output)
  { w with voqs := acc.foldl (fun l a => startVoq a l) w.voqs
           rr := if first then acc.foldl (fun t a => t.put (a.1 * 4 + a.2.1) ((a.2.2 + 1) % 8)) w.rr else w.rr }

/-- A frame arrives behind the crossbar. -/
def Dev.deliver (d : Dev) (v : Voq) : Dev :=
  match v.dest with
  | .flow f => d.enqueueFlow f v.frame
  | .port l => d.toPort l v.frame
  | .brynlink l => d.enqueuePort l v.frame
  | .host r =>
    match d.toRing r v.frame with
    | (d, true) => d
    | (d, false) => (d.freeFrame v.frame).count (ctrPipe v.input 2)
  | .discard => d.freeFrame v.frame

/-- One core clock of the crossbar: two iterations, then every held pair moves a cell, and whole frames are delivered. -/
def Dev.crossbarClock (d : Dev) : Dev :=
  let w := (d.sw.iterate true).iterate false
  let l := w.voqs.map fun v => if v.started then { v with cells := v.cells - 1 } else v
  let out := l.filter fun v => v.started && v.cells == 0
  out.foldl Dev.deliver { d with sw := { w with voqs := l.filter fun v => !(v.started && v.cells == 0) } }

/-- Core clocks of the crossbar, until nothing waits. -/
def crossbar : (clocks : Nat) → Dev → Dev
  | 0, d => d
  | n + 1, d => if d.sw.voqs.isEmpty then d else crossbar n d.crossbarClock

/-- The frame at the front of a pipeline: the express queue goes first (01 R17). -/
def Pipe.front (q : Pipe) : Option Frame :=
  match q.express with
  | x :: _ => some x
  | [] => q.normal.head?

/-- The queues without the front. -/
def Pipe.pop (q : Pipe) : Pipe :=
  match q.express with
  | _ :: t => { q with express := t }
  | [] => { q with normal := q.normal.drop 1 }

/-- Every frame that waits for a pass in a pipeline, in the order of its queues. -/
def Pipe.waiting (q : Pipe) : List Frame := q.express ++ q.normal

/-- The meter that a waiting frame's pass would update. -/
def Dev.meterOfPass (d : Dev) (x : Frame) : Option Nat :=
  let x := if x.pass = 0 then { x with slot := d.runSlot } else x
  let p := parseFrame x.data x.parseAt x.parseIp (d.tpids x)
  if x.reason = 6 ∨ d.ptpTaken x p ∨ p.malHead ∨ ((x.malformed || p.malTail) && !x.early) then none
  else (d.classify x p).meter.filter fun i => (d.meters.find? i).isSome

/-- Meter updates run in ingress-timestamp order, and in pipeline order on a tie (10 R260). -/
def Frame.turn (x : Frame) (pipe : Nat) : Nat := x.itime * 8 + pipe

/-- A pipeline takes its front frame. -/
def Dev.takeFront (d : Dev) (pipe : Nat) : Dev :=
  match (d.pipe pipe).front with
  | some x => (d.setPipe pipe Pipe.pop).pass pipe x
  | none => d

/-- The pipelines run, earliest front first, until no other pipeline holds an earlier frame that updates the same meter
(log entry 164). -/
def Dev.meterTurn (pipe : Nat) (turn meter : Nat) : (fuel : Nat) → Dev → Dev
  | 0, d => d
  | fuel + 1, d =>
    let others := (List.range 8).filter (· ≠ pipe)
    if others.any fun q => (d.pipe q).waiting.any fun y => decide (y.turn q < turn) && d.meterOfPass y == some meter then
      match sortBy (fun a : Nat × Nat => a.1) (others.filterMap fun q => (d.pipe q).front.map fun y => (y.turn q, q)) with
      | a :: _ => Dev.meterTurn pipe turn meter fuel (d.takeFront a.2)
      | [] => d
    else d

/-- A pipeline takes its front frame when it is due for this pass, and the crossbar then runs. -/
def takePass (pipe second clocks : Nat) (d : Dev) : Dev :=
  if 7 < pipe then d
  else
    let d := match (d.pipe pipe).front with
      | some x =>
        if x.pass = second then
          match d.meterOfPass x with
          | some m => (Dev.meterTurn pipe (x.turn pipe) m (sumBy (List.range 8) fun q => (d.pipe q).waiting.length) d).takeFront pipe
          | none => d.takeFront pipe
        else d
      | none => d
    crossbar clocks d

/-- The event PIPELINE_PASS: the first pass of the pipeline's front frame, and so many core clocks of the crossbar after it. -/
def execPipelinePass (pipe clocks : Nat) (s : State) : Host.Outcome State Fault Refusal := live (takePass pipe 0 clocks) s

/-- The event SECOND_PASS: the second pass of the pipeline's front frame. -/
def execSecondPass (pipe clocks : Nat) (s : State) : Host.Outcome State Fault Refusal := live (takePass pipe 1 clocks) s

end Sys2Proof.Machine
end

