-- ==== Sys2Proof/Machine/Traffic.lean ====
section
/-!
DEFINITION. The traffic manager: flow contexts, shapers, schedulers, gate lists, link-down holds and sampling, and the
commands of group 0x09 (10); the downstream side of the tree unit (03 R82 to R85, 06 R173).
-/
namespace Sys2Proof.Machine

/-! ### Bucket upkeep (10 R254, R255) -/

/-- PIR of a channel in kb/s: its own, or r_dn (10 Table 10-5). -/
def chanRate (objs : List VObj) (g : Nat) : Nat := orZero (tmChan objs g).pir (1000 * rDnMb (chanCfg objs g))

/-- PIR of a port in kb/s: its own, or the port rate. -/
def Dev.portRate (d : Dev) (objs : List VObj) (l : Nat) : Nat := orZero (tmPort objs l).pir (10 * d.laneGroupRate5 l)

/-- A flow's buckets at a time under a version's profiles. -/
def Flow.fill (f : Flow) (objs : List VObj) (now : Nat) : Flow :=
  let s := shaper objs f.fprof
  { f with cir := f.cir.fill s.cir s.cbs now, pir := f.pir.fill s.pir s.pbs now }

/-- A terminal's bucket at a time. -/
def Term.fill (t : Term) (objs : List VObj) (now : Nat) : Term :=
  let s := Machine.shaper objs t.shaper
  { t with bucket := t.bucket.fill s.pir s.pbs now }

/-- A channel's bucket at a time. -/
def Chan.fill (c : Chan) (objs : List VObj) (g now : Nat) : Chan :=
  { c with bucket := c.bucket.fill (chanRate objs g) (tmChan objs g).pbs now }

/-- Every bucket refilled to now under a version: at a switch once under the old and once under the new version, so that each
level refills at the rate that held and is cut to the new burst. -/
def Dev.fillAll (d : Dev) (objs : List VObj) : Dev :=
  let now := d.now
  { d with flows := d.flows.mapAll fun _ (f : Flow) => f.fill objs now
           terms := d.terms.mapAll fun _ (t : Term) => t.fill objs now
           chans := d.chans.mapAll fun g (c : Chan) => c.fill objs g now
           ports := d.ports.mapAll fun l (p : Port) => { p with bucket := p.bucket.fill (d.portRate objs l) (tmPort objs l).pbs now } }

/-! ### FLOW_SET (10 R243, R244) -/

/-- Fields of 10 Table 10-2 for a write. -/
def flowForm (p : Bytes) : Bool :=
  decide (ent p 18 2 ≤ 24575) && within (ent p 24 1) 1 3 && bits (ent p 25 1) 7 2 == 0 && decide (ent p 26 2 ≤ 4095)
  && decide (ent p 28 1 ≤ 63) && destOk (ent p 29 1) (ent p 30 2) && counterOk (ent p 32 4) && aligned (bits (ent p 32 4) 20 0) 32
  && zeros 16 p [(36, 63)]

/-- The flow context that a write describes, over what the flow already holds. -/
def flowOf (old : Option Flow) (p : Bytes) : Flow :=
  let x : Flow := { term := ent p 18 2, dnPort := ent p 20 2, upPort := ent p 22 2, cls := ent p 24 1, sealedFlow := bit (ent p 25 1) 0
                    fprof := ent p 26 2, qprof := ent p 28 1, udKind := ent p 29 1, udest := ent p 30 2, cbase := ent p 32 4 }
  match old with
  | none => x
  | some f => { f with term := x.term, dnPort := x.dnPort, upPort := x.upPort, cls := x.cls, sealedFlow := x.sealedFlow, fprof := x.fprof
                       qprof := x.qprof, udKind := x.udKind, udest := x.udest, cbase := x.cbase }

/-- A tenant may rewrite FPROF, QPROF and CLASS of a flow of its own that exists. -/
def flowTenant (d : Dev) (dom : Nat) (p : Bytes) : Bool :=
  d.flowOwner (ent p 16 2) == dom && !bit (ent p 25 1) 1 &&
  match d.flow? (ent p 16 2) with
  | none => false
  | some f =>
    let x := flowOf (some f) p
    decide ({ x with cls := f.cls, fprof := f.fprof, qprof := f.qprof } = f)

/-- Contents whose circuits and Lantern bindings a flow write meets: the running and the open version, frozen or not. -/
def Dev.writeObjs (d : Dev) : List (List VObj) := [d.objs] ++ if d.vers.openNum = 0 then [] else [d.vers.openObjs]

/-- An encapsulation port that a flow or a circuit already holds on the channel and direction. -/
def Dev.portHeld (d : Dev) (h g : Nat) (x : Flow) : Bool :=
  (d.flows.any fun f => f.1 != h && d.termChan? f.2.term == some g
    && ((x.dnPort != 0xFFFF && f.2.dnPort == x.dnPort) || (x.upPort != 0xFFFF && f.2.upPort == x.upPort)))
  || d.writeObjs.any fun o => (circuits o).any fun c => d.termChan? c.term == some g
    && ((x.dnPort != 0xFFFF && c.dnPort == x.dnPort) || (x.upPort != 0xFFFF && c.upPort == x.upPort))

/-- The flow has a Lantern binding in the running or the open version. -/
def Dev.flowBound (d : Dev) (h : Nat) : Bool := d.writeObjs.any fun o => (lflow? o h).isSome

/-- Step 6 of a write. -/
def flowSetForbid (d : Dev) (h : Nat) (old : Option Flow) (x : Flow) : Option (Status × List Nat) :=
  match d.termChan? x.term with
  | none => some (.conflict, [])
  | some g =>
    let moved : Bool := match old with
      | some f => !f.disabled && (f.term != x.term || f.dnPort != x.dnPort || f.upPort != x.upPort)
      | none => false
    if moved ∨ d.portHeld h g x ∨ (shaper? d.objs x.fprof).isNone ∨ (qprof? d.objs x.qprof).isNone
        ∨ d.destLost x.udKind x.udest ∨ (x.sealedFlow ∧ d.flowBound h) then some (.conflict, [])
    else if { d with flows := d.flows.put h x }.cirOver d.objs g then some (.noRoom, []) else none

/-- `FLOW_SET`. -/
def cmdFlowSet : CmdDef where
  op := 0x0901
  kind := fun _ _ _ => .perEntry
  tenant := some flowTenant
  guarded := true
  names := fun _ p => .flow (ent p 16 2) :: if bit (ent p 25 1) 1 then [] else .terminal (ent p 18 2) :: destNames (ent p 29 1) (ent p 30 2)
  form := fun p => if bit (ent p 25 1) 1 then bits (ent p 25 1) 7 2 == 0 && zeros 16 p [(36, 63)] else flowForm p
  forbid := fun d e =>
    let h := ent e.par 16 2
    let old := d.flow? h
    if bit (ent e.par 25 1) 1 then
      match old with
      | none => some (.conflict, [])
      | some f => if !f.disabled ∨ d.flowBound h then some (.conflict, []) else none
    else flowSetForbid d h old (flowOf old e.par)
  run := fun e d =>
    let h := ent e.par 16 2
    if bit (ent e.par 25 1) 1 then
      let d := (d.discardFlows fun i => i == h).1
      { d with flows := d.flows.del h }.ok e
    else
      let now := d.now
      let old := (d.flow? h).map fun f => f.fill d.objs now
      { d with flows := d.flows.put h ((flowOf old e.par).fill d.objs now) }.ok e

/-- The command `FLOW_SET`. -/
def execFlowSet (p : Packet) (s : State) : Host.Outcome State Fault Refusal := command cmdFlowSet p s

/-! ### FLOW_DISABLE, FLOW_ENABLE (10 R247) -/

/-- Step 4 of a command for a flow at entry byte 16. -/
def ownsFlow16 (d : Dev) (dom : Nat) (p : Bytes) : Bool := d.flowOwner (ent p 16 2) == dom

/-- The flow that a command names at entry byte 16. -/
def namesFlow16 (_ : Dev) (p : Bytes) : List DrainObj := [.flow (ent p 16 2)]

/-- `FLOW_DISABLE`. -/
def cmdFlowDisable : CmdDef where
  op := 0x0902
  tenant := some ownsFlow16
  newWork := false
  names := namesFlow16
  form := fun p => limitOk (ent p 20 4) && zeros 16 p [(18, 19), (24, 63)]
  forbid := fun d e =>
    match d.flow? (ent e.par 16 2) with
    | some f => if f.disabled then some (.conflict, []) else none
    | none => some (.conflict, [])
  run := fun e d =>
    let h := ent e.par 16 2
    (d.setFlow h fun f => { f with disabled := true }).startDrain e (.flow h) (ent e.par 20 4)

/-- The command `FLOW_DISABLE`. -/
def execFlowDisable (p : Packet) (s : State) : Host.Outcome State Fault Refusal := command cmdFlowDisable p s

/-- `FLOW_ENABLE`. -/
def cmdFlowEnable : CmdDef where
  op := 0x0903
  tenant := some ownsFlow16
  newWork := false
  guarded := true
  names := namesFlow16
  form := fun p => zeros 16 p [(18, 63)]
  forbid := fun d e =>
    let h := ent e.par 16 2
    match d.flow? h with
    | none => some (.conflict, [])
    | some f =>
      if !f.disabled ∨ d.draining (.flow h) then some (.conflict, [])
      else
        match d.termChan? f.term with
        | some g => if { d with flows := d.flows.put h { f with disabled := false } }.cirOver d.objs g then some (.noRoom, []) else none
        | none => none
  run := fun e d => (d.setFlow (ent e.par 16 2) fun f => { f with disabled := false }).ok e

/-- The command `FLOW_ENABLE`. -/
def execFlowEnable (p : Packet) (s : State) : Host.Outcome State Fault Refusal := command cmdFlowEnable p s

/-! ### Shapers and nodes (10 R248 to R250, R256) -/

/-- A rate field: 0, or 64 to 50,000,000 kb/s. -/
def rateOk (v : Nat) : Bool := v == 0 || within v 64 50000000

/-- A burst field. -/
def burstOk (v : Nat) : Bool := within v 1024 16777215

/-- HOLD: 0 to 1,000 ms, or 0xFFFF. -/
def holdOk (v : Nat) : Bool := decide (v ≤ 1000) || v == 0xFFFF

/-- OVERHEAD: −32 to +64. -/
def overheadOk (v : Nat) : Bool := decide (-32 ≤ signed 8 v) && decide (signed 8 v ≤ 64)

/-- `SHAPE_PROFILE_SET`; profile 0 cannot be removed. -/
def cmdShapeProfileSet : CmdDef :=
  versionedCmd 0x0904 false (fun p => slice p 0 2) (fun p => bit (ent p 18 1) 0)
    (fun p => within (ent p 16 2) 1 4095 && decide (ent p 18 1 ≤ 1) && zeros 16 p [(36, 63)]) fun p =>
    decide (ent p 16 2 ≤ 4095) && decide (ent p 18 1 ≤ 1) && rateOk (ent p 20 4) && rateOk (ent p 28 4) && burstOk (ent p 24 4)
    && burstOk (ent p 32 4) && (ent p 28 4 == 0 || decide (ent p 20 4 ≤ ent p 28 4)) && zeros 16 p [(36, 63)]

/-- The command `SHAPE_PROFILE_SET`. -/
def execShapeProfileSet (p : Packet) (s : State) : Host.Outcome State Fault Refusal := command cmdShapeProfileSet p s

/-- `TERMINAL_SHAPE_SET`. -/
def cmdTerminalShapeSet : CmdDef where
  op := 0x0905
  kind := fun _ _ _ => .perEntry
  guarded := true
  names := namesTerm16
  form := fun p => decide (ent p 16 2 ≤ 24575) && decide (ent p 18 2 ≤ 4095) && zeros 16 p [(20, 63)]
  forbid := fun d e => needTerm d e fun _ => if (shaper? d.objs (ent e.par 18 2)).isNone then some (.conflict, []) else none
  run := fun e d =>
    let now := d.now
    (d.setTerm (ent e.par 16 2) fun t => { t.fill d.objs now with shaper := ent e.par 18 2 }.fill d.objs now).ok e

/-- The command `TERMINAL_SHAPE_SET`. -/
def execTerminalShapeSet (p : Packet) (s : State) : Host.Outcome State Fault Refusal := command cmdTerminalShapeSet p s

/-- `TM_CHANNEL_SET`. -/
def cmdTmChannelSet : CmdDef :=
  versionedCmd 0x0906 false (fun p => slice p 0 2) noRemoval (fun _ => true) fun p =>
    decide (ent p 16 2 ≤ 191) && overheadOk (ent p 18 1) && burstOk (ent p 24 4) && holdOk (ent p 28 2) && zeros 16 p [(19, 19), (30, 63)]

/-- The command `TM_CHANNEL_SET`. -/
def execTmChannelSet (p : Packet) (s : State) : Host.Outcome State Fault Refusal := command cmdTmChannelSet p s

/-- `TM_PORT_SET`. -/
def cmdTmPortSet : CmdDef :=
  versionedCmd 0x0907 false (fun p => slice p 0 1) noRemoval (fun _ => true) fun p =>
    decide (ent p 16 1 ≤ 95) && decide (ent p 17 1 ≤ 1) && overheadOk (ent p 18 1)
    && ((List.range 3).all fun i => decide (1 ≤ ent p (20 + i) 1) && decide (ent p (32 + i) 1 ≤ 63))
    && burstOk (ent p 28 4) && holdOk (ent p 36 2) && zeros 16 p [(19, 19), (23, 23), (35, 35), (38, 63)]

/-- The command `TM_PORT_SET`. -/
def execTmPortSet (p : Packet) (s : State) : Host.Outcome State Fault Refusal := command cmdTmPortSet p s

/-! ### Gate lists (10 R261 to R264) -/

/-- The target of a gate command is in range. -/
def gateTargetOk (kind target : Nat) : Bool := if kind = 0 then decide (target ≤ 191) else kind == 1 && decide (target ≤ 95)

/-- `GATE_LIST_SET`; FLAGS bit 0 removes the list. -/
def cmdGateListSet : CmdDef :=
  versionedCmd 0x0909 true (fun p => slice p 0 1 ++ slice p 2 2) (fun p => bit (field p 1 1) 0)
    (fun p => gateTargetOk (field p 0 1) (field p 2 2) && decide (field p 1 1 ≤ 1) && allZero (slice p 4 4) && allZero (slice p 22 2))
    fun p =>
    let q := gateOf p
    gateTargetOk (field p 0 1) (field p 2 2) && decide (field p 1 1 ≤ 1) && allZero (slice p 4 4) && allZero (slice p 22 2)
    && within q.cycle 1000 1000000000 && within (field p 20 2) 1 256 && (q.entries.all fun e => decide (64 ≤ e.2))
    && sumBy q.entries Prod.snd == q.cycle && allZero (p.drop (24 + 4 * field p 20 2))

/-- The command `GATE_LIST_SET`. -/
def execGateListSet (p : Packet) (s : State) : Host.Outcome State Fault Refusal := command cmdGateListSet p s

/-- A target's gate state. -/
def Dev.gate (d : Dev) (kind target : Nat) : Gate := d.gates.getD (kind * 1024 + target) {}

/-- The list that governs at a time: the waiting one from its realised start on. -/
def Gate.current (q : Gate) (now : Nat) : Option GateList :=
  match q.waiting with
  | some w => if w.start ≤ now then some w else q.inForce
  | none => q.inForce

/-- Entry that covers a place in the cycle, and what is left of it. -/
def entryFrom : (entries : List (Nat × Nat)) → (i pos : Nat) → Nat × Nat
  | [], i, _ => (i, 0)
  | e :: t, i, pos => if pos < e.2 then (i, e.2 - pos) else entryFrom t (i + 1) (pos - e.2)

/-- Place of a time in the list's cycle. -/
def GateList.pos (q : GateList) (now : Nat) : Nat := (((now : Int) - q.start) % (q.cycle : Int)).toNat

/-- Index of the entry in force. -/
def GateList.entryAt (q : GateList) (now : Nat) : Nat := (entryFrom q.entries 0 (q.pos now)).1

/-- Total of the leading entries that hold a class open. -/
def openRun (cls : Nat) : List (Nat × Nat) → Nat
  | [] => 0
  | e :: t => if bit e.1 cls then e.2 + openRun cls t else 0

/-- Time for which a class stays open from now: none for ever. -/
def GateList.openFor (q : GateList) (cls now : Nat) : Option Nat :=
  if q.entries.all fun e => bit e.1 cls then none
  else
    let (i, left) := entryFrom q.entries 0 (q.pos now)
    if bit (q.entries.getD i (0, 0)).1 cls then some (left + openRun cls (q.entries.drop (i + 1) ++ q.entries)) else some 0

/-- The longest continuous open time of a class: none for ever. -/
def GateList.longest (q : GateList) (cls : Nat) : Option Nat :=
  if q.entries.all fun e => bit e.1 cls then none
  else some (maxBy (List.range q.entries.length) fun i => openRun cls (q.entries.drop i ++ q.entries.take i))

/-- Time for which a target's gate of a class stays open; a list whose start falls within it governs from there on. -/
def Gate.openFor (q : Gate) (cls now : Nat) : Option Nat :=
  let cur := match q.current now with
    | some l => l.openFor cls now
    | none => none
  match q.waiting with
  | some w =>
    if w.start ≤ now then cur
    else
      match cur with
      | some n => if now + n < w.start then cur else (w.openFor cls w.start).map fun m => w.start - now + m
      | none => (w.openFor cls w.start).map fun m => w.start - now + m
  | none => cur

/-- Transmission of a frame takes no longer than a time, at a rate in units of 10^-5 Gb/s (10 R263). -/
def fitsIn (len : Nat) (overhead : Int) (rate5 : Nat) : Option Nat → Bool
  | none => true
  | some t => decide (8 * ((len : Int) + overhead) * 100000 ≤ ((t * rate5 : Nat) : Int))

/-- The gate of a class lets a frame start now; `held` asks only that the gate is open. -/
def Gate.allows (q : Gate) (cls now len : Nat) (overhead : Int) (rate5 : Nat) (held : Bool) : Bool :=
  let t := q.openFor cls now
  t != some 0 && (held || fitsIn len overhead rate5 t)

/-- A frame can never meet its gate. -/
def Gate.never (q : Gate) (cls now len : Nat) (overhead : Int) (rate5 : Nat) : Bool :=
  match q.current now with
  | some l => !fitsIn len overhead rate5 (l.longest cls)
  | none => false

/-- The gates after a version's switch at an instant: every list of the version gets its realised start, a carried one too; a list
that is removed opens all gates (10 R262). -/
def switchGates (old new : List VObj) (gates : Tbl Gate) (instant : Nat) : Tbl Gate :=
  let keys := distinct (((objsOf old 0x0909) ++ objsOf new 0x0909).map VObj.key)
  keys.foldl (fun t key =>
    let i := field key 0 1 * 1024 + field key 1 2
    let q : Gate := Tbl.getD t i {}
    match (findObj new 0x0909 key).map gateOf with
    | none => t.put i {}
    | some c =>
      let base := orZero c.base instant
      let start := if 0 ≤ sdiff 64 base instant then base
        else (base + cdiv (wrap 64 ((instant : Int) - base)) c.cycle * c.cycle) % 2 ^ 64
      let l : GateList := { start, cycle := c.cycle, entries := c.entries }
      if start ≤ instant then t.put i { inForce := some l } else t.put i { inForce := q.current instant, waiting := some l }) gates

/-- `GATE_STATUS` (R264). It needs a channel that is on, or the lowest lane of a port or Brynlink (02 R435; log entry 88). -/
def cmdGateStatus : CmdDef where
  op := 0x090A
  read := true
  form := fun p => gateTargetOk (ent p 16 1) (ent p 18 2) && zeros 16 p [(17, 17), (20, 63)]
  forbid := fun d e =>
    let t := ent e.par 18 2
    let there := if ent e.par 16 1 = 0 then d.mode t != 0 else (d.group? t).any fun q => q.kind == 1 || q.kind == 2
    if there then none else some (.conflict, [])
  run := fun e d =>
    let q := d.gate (ent e.par 16 1) (ent e.par 18 2)
    let now := d.now
    match q.waiting.filter fun w => decide (now < w.start), q.current now with
    | some w, _ => d.finish e .done [2, w.start / 2 ^ 32, w.start % 2 ^ 32, 0xFFFFFFFF]
    | none, some l => d.finish e .done [1, l.start / 2 ^ 32, l.start % 2 ^ 32, l.entryAt now]
    | none, none => d.finish e .done [0, 0, 0, 0xFFFFFFFF]

/-- The command `GATE_STATUS`. -/
def execGateStatus (p : Packet) (s : State) : Host.Outcome State Fault Refusal := command cmdGateStatus p s

/-- The event GATE_LIST_START: a waiting list reaches its realised start. -/
def gateListStart (kind target : Nat) (d : Dev) : Dev :=
  match (d.gate kind target).waiting with
  | some w => { d.goTime w.start with gates := d.gates.put (kind * 1024 + target) { inForce := some w } }
  | none => d

/-- See `gateListStart`. -/
def execGateListStart (kind target : Nat) (s : State) : Host.Outcome State Fault Refusal := live (gateListStart kind target) s

/-! ### Sampling (10 R267, R268) -/

/-- `SAMPLE_SET`. -/
def cmdSampleSet : CmdDef where
  op := 0x090B
  form := fun p => decide (ent p 16 4 ≤ 10000) && zeros 16 p [(20, 63)]
  run := fun e d => { d with windowNext := orZero (ent e.par 16 4) 1000 }.ok e

/-- The command `SAMPLE_SET`. -/
def execSampleSet (p : Packet) (s : State) : Host.Outcome State Fault Refusal := command cmdSampleSet p s

/-- A queue at the end of a window. -/
def Queue.endWindow (q : Queue) : Queue := { q with lastDepth := q.maxDepth, lastSojourn := q.maxSojourn, maxDepth := 0, maxSojourn := 0 }

/-- The event SAMPLE_WINDOW_END: the next boundary of the window. -/
def sampleWindowEnd (d : Dev) : Dev :=
  let w := d.window * 1000000
  let passed := roundDown d.now w
  let due := if d.windowEnd < passed then passed else passed + w
  let d := d.goTime due
  { d with
    flows := d.flows.mapAll fun _ (f : Flow) => { f with queue := f.queue.endWindow }
    ports := d.ports.mapAll fun _ (p : Port) => { p with queues := p.queues.map Queue.endWindow }
    chans := d.chans.mapAll fun _ (c : Chan) =>
      { c with lastDepth := c.maxDepth, lastSojourn := c.maxSojourn, maxDepth := 0, maxSojourn := 0 }
    window := d.windowNext, windowEnd := due }

/-- See `sampleWindowEnd`. -/
def execSampleWindowEnd (s : State) : Host.Outcome State Fault Refusal := live sampleWindowEnd s

/-- `QUEUE_SAMPLE_READ`. -/
def cmdQueueSampleRead : CmdDef where
  op := 0x090C
  tenant := some fun d dom p => ent p 16 1 == 0 && d.flowOwner (ent p 18 2) == dom
  read := true
  form := fun p => (match ent p 16 1 with
      | 0 => true
      | 1 => decide (ent p 17 1 ≤ 3) && decide (ent p 18 2 ≤ 95)
      | 2 => decide (ent p 18 2 ≤ 191)
      | _ => false)
    && zeros 16 p [(20, 63)]
  forbid := fun d e =>
    let i := ent e.par 18 2
    match ent e.par 16 1 with
    | 0 => if (d.flow? i).isNone then some (.conflict, []) else none
    | 1 => if d.isGroup i [1, 2] then none else some (.conflict, [])
    | _ => none
  run := fun e d =>
    let i := ent e.par 18 2
    let (depth, last, soj) := match ent e.par 16 1 with
      | 0 => match d.flow? i with
        | some f => (f.queue.depth, f.queue.lastDepth, f.queue.lastSojourn)
        | none => (0, 0, 0)
      | 1 => let q := (d.port i).queue (ent e.par 17 1)
        (q.depth, q.lastDepth, q.lastSojourn)
      | _ => let c := d.chan i
        (bytesOf c.lantern, c.lastDepth, c.lastSojourn)
    d.finish e .done [sat 32 depth, sat 32 last, sat 32 soj, d.windowEnd % 2 ^ 32]

/-- The command `QUEUE_SAMPLE_READ`. -/
def execQueueSampleRead (p : Packet) (s : State) : Host.Outcome State Fault Refusal := command cmdQueueSampleRead p s

/-! ### Frames of a channel -/

/-- Flow handles of a channel. -/
def Dev.flowsOn (d : Dev) (g : Nat) : List Nat := (d.flows.filter fun f => d.termChan? f.2.term == some g).map Prod.fst

/-- Discards frames, each counted in its flow's set. -/
def Dev.loseFrames (d : Dev) (off : Nat) (fs : List Frame) : Dev := fs.foldl (fun d x => d.flowLoss x x.flow off) d

/-! ### Deficit round robin (10 R252, R256; log entry 63) -/

/-- What competes: quantum in bytes, deficit, length of the head frame. -/
structure Drr where
  id      : Nat
  quantum : Nat
  deficit : Int
  len     : Nat
deriving DecidableEq, Repr

/-- The item served next, with every deficit after it. `cur` is the item in its turn, plus one; a turn begins with the quantum
and lasts while the deficit covers the head frame. Items stand in ascending order. -/
def drrPick : (fuel : Nat) → (cur : Nat) → List Drr → Option (Nat × List Drr)
  | 0, _, _ => none
  | fuel + 1, cur, l =>
    match l.find? fun x => x.id + 1 == cur && decide ((x.len : Int) ≤ x.deficit) with
    | some x => some (x.id, l.map fun y => if y.id = x.id then { y with deficit := y.deficit - (y.len : Nat) } else y)
    | none =>
      match (l.find? fun x => decide (cur ≤ x.id)).or l.head? with
      | none => none
      | some x => drrPick fuel (x.id + 1) (l.map fun y => if y.id = x.id then { y with deficit := y.deficit + (y.quantum : Nat) } else y)

/-- Turns that suffice: each whole round adds at least 512 bytes to every deficit. -/
def drrFuel (l : List Drr) : Nat := (l.length + 1) * (maxBy l (fun x => cdiv (x.len + (-x.deficit).toNat) 512) + 3)

/-! ### The choice on a channel (10 R252) -/

/-- Buckets of a channel, its terminals and its flows at now. -/
def Dev.fillChan (d : Dev) (g : Nat) : Dev :=
  let now := d.now
  let objs := d.objs
  { d with
    terms := d.terms.mapAll fun _ (t : Term) => if t.chan = g then t.fill objs now else t
    flows := d.flows.mapAll fun _ (f : Flow) => if d.termChan? f.term = some g then f.fill objs now else f
    chans := d.chans.put g ((d.chan g).fill objs g now) }

/-- A flow of the channel whose head frame its gate allows. -/
def Dev.mayServe (d : Dev) (g : Nat) (f : Flow) : Bool :=
  match f.queue.frames.head? with
  | none => false
  | some x => (d.gate 0 g).allows f.cls d.now x.data.length (tmChan d.objs g).overhead (100 * rDnMb (chanCfg d.objs g)) false

/-- The PIR buckets of a flow and its terminal are at or above 0. -/
def Dev.excessOk (d : Dev) (f : Flow) : Bool :=
  f.pir.ok && match d.term? f.term with
    | some t => t.bucket.ok
    | none => false

/-- The flows of a class of a channel that may be served, in handle order. -/
def Dev.ready (d : Dev) (g cls : Nat) : List (Nat × Flow) :=
  d.flows.filter fun f => f.2.cls == cls && d.termChan? f.2.term == some g && d.mayServe g f.2 && d.excessOk f.2

/-- Length of a flow's head frame. -/
def Flow.headLen (f : Flow) : Nat := ((f.queue.frames.head?).map fun x => x.data.length).getD 0

/-- The committed round: the first committed-eligible flow at or after the class pointer. -/
def Dev.committed (d : Dev) (g cls : Nat) : Option Nat :=
  let l := (d.ready g cls).filter fun f => f.2.cir.used && f.2.cir.ok
  let ptr := (d.chan g).ptr.getD (cls - 1) 0
  ((l.find? fun f => decide (ptr ≤ f.1)).or l.head?).map Prod.fst

/-- A terminal's flow in the excess round of a class, with the deficits of its flows. -/
def Dev.termPick (d : Dev) (l : List (Nat × Flow)) (t cls : Nat) : Option (Nat × List Drr) :=
  let items := (l.filter fun f => f.2.term == t).map fun f => (⟨f.1, 512 * (shaper d.objs f.2.fprof).weight, f.2.deficit, f.2.headLen⟩ : Drr)
  let cur := match d.term? t with
    | some x => x.turns.getD (cls - 1) 0
    | none => 0
  drrPick (drrFuel items) cur items

/-- The excess round of a class: the terminal, its flow, and the device with the deficits and turns after the choice. -/
def Dev.excess (d : Dev) (g cls : Nat) : Option (Nat × Dev) :=
  let l := d.ready g cls
  let picks := (distinct (l.map fun f => f.2.term)).filterMap fun t => (d.termPick l t cls).map fun p => (t, p)
  let items := sortBy Drr.id (picks.map fun p =>
    let t := d.term? p.1
    (⟨p.1, 512 * (shaper d.objs ((t.map Term.shaper).getD 0)).weight, (t.map fun x => x.deficit.getD (cls - 1) 0).getD 0,
      ((d.flow? p.2.1).map Flow.headLen).getD 0⟩ : Drr))
  match drrPick (drrFuel items) ((d.chan g).dwrr.getD (cls - 1) 0) items with
  | none => none
  | some (t, after) =>
    match (picks.find? fun p => p.1 == t).map Prod.snd with
    | none => none
    | some (h, flows) =>
      let d := after.foldl (fun d x => d.setTerm x.id fun y => { y with deficit := y.deficit.set (cls - 1) x.deficit }) d
      let d := flows.foldl (fun d x => d.setFlow x.id fun y => { y with deficit := x.deficit }) d
      let d := d.setTerm t fun y => { y with turns := y.turns.set (cls - 1) (h + 1) }
      some (h, d.setChan g fun c => { c with dwrr := c.dwrr.set (cls - 1) (t + 1) })

/-- A flow or terminal that has nothing left in a class starts its next turn from 0. -/
def Dev.restDeficit (d : Dev) (h cls : Nat) : Dev :=
  match d.flow? h with
  | none => d
  | some f =>
    let d := if f.queue.frames.isEmpty then d.setFlow h fun f => { f with deficit := 0 } else d
    if d.flows.any fun x => x.2.term == f.term && x.2.cls == cls && !x.2.queue.frames.isEmpty then d
    else d.setTerm f.term fun t => { t with deficit := t.deficit.set (cls - 1) 0 }

/-- A flow of a class, chosen under `next_down`: committed rounds first, then excess rounds; the second part tells a committed
choice. -/
def Dev.nextDown (d : Dev) (g : Nat) : Option (Nat × Bool × Dev) :=
  if !(d.chan g).bucket.ok then none
  else
    match [1, 2, 3].findSome? fun c => (d.committed g c).map fun h => (c, h) with
    | some (c, h) => some (h, true, d.setChan g fun x => { x with ptr := x.ptr.set (c - 1) (h + 1) })
    | none => ([1, 2, 3].findSome? fun c => d.excess g c).map fun p => (p.1, false, p.2)

/-- Head frames that their gate can never let pass are discarded (10 R263). -/
def Dev.dropNever (d : Dev) (g : Nat) : Dev :=
  let c := chanCfg d.objs g
  let oh := (tmChan d.objs g).overhead
  let gate := d.gate 0 g
  let now := d.now
  (d.flowsOn g).foldl (fun d h =>
    match d.flow? h with
    | none => d
    | some f =>
      let bad := f.queue.frames.takeWhile fun x => gate.never f.cls now x.data.length oh (100 * rDnMb c)
      if bad.isEmpty then d
      else
        let q := { f.queue with frames := f.queue.frames.drop bad.length }
        (d.loseFrames 12 bad).setFlow h fun f => { f with queue := q.turn (qprof? d.objs f.qprof) d.time.c }) d

/-! ### Sending on a channel (03 R82 to R85) -/

/-- Correction of an Ethernet timestamp in ns by lane rate and FEC (12 Table 12-3). -/
def laneCorrection (tx : Bool) (rate fec : Nat) : Int :=
  match rate with
  | 1 => if tx then 118 else -163
  | 2 => if tx then 172 else -241
  | 3 => if fec = 0 then (if tx then 206 else -311) else if tx then 41 else -58
  | _ => if tx then 66 else -97

/-- Correction of a timestamp at a group's lanes (12 Table 12-3). -/
def Dev.laneFix (d : Dev) (tx : Bool) (l : Nat) : Int :=
  match d.group? l with
  | some q => laneCorrection tx q.rate q.fec
  | none => 0

/-- Correction of a transmit timestamp at an egress: PON by the channel's mode, Ethernet by its lanes (12 Table 12-3). -/
def Dev.txCorrection (d : Dev) (egress : Nat) : Int :=
  match egress / 16384 with
  | 0 => if d.mode (egress % 16384) = 2 then 96 else 131
  | _ => d.laneFix true (egress % 16384)

/-- A timestamp that a unit latches now, with its correction (12 R296). The instant of the row is taken as the instant of the latch
(log entry 165). -/
def Dev.stamp (d : Dev) (correction : Int) : Nat := wrap 64 ((d.now : Int) + correction)

/-- An egress timestamp record of a frame sent with TSREQ (12 R297). -/
def Dev.egressStamp (d : Dev) (x : Frame) (egress : Nat) : Dev :=
  match x.tsReq with
  | none => d
  | some (ring, index) =>
    let t := d.stamp (d.txCorrection egress)
    let rec' : Bytes := beBytes 2 ring ++ beBytes 2 (index % 65536) ++ beBytes 2 egress ++ [0#8, 0#8] ++ beBytes 8 t ++ beBytes 4 d.frac
      ++ List.replicate 12 0#8
    match d.time.tsRing with
    | none => d.count (ctrDev 6)
    | some r =>
      match d.toRing r { data := rec', src := egress, itime := t, reason := 8 } with
      | (d, true) => d
      | (d, false) => d.count (ctrDev 6)

/-- Time that a frame has spent in the device. -/
def Dev.sojourn (d : Dev) (x : Frame) : Nat := d.now - x.itime

/-- A frame starts on a channel: outside the sizes of R82 it is discarded, without its key too; otherwise it is encrypted and its
sojourn recorded. -/
def Dev.startFrame (d : Dev) (g h : Nat) (x : Frame) : Dev :=
  match d.flow? h with
  | none => d.freeFrame x
  | some f =>
    if x.data.length < 64 ∨ (chanCfg d.objs g).maxFrame < x.data.length then (d.freeFrame x).count (ctrChan g 3)
    else
      match d.encryptDown g f x.data with
      | (d, none) => d.freeFrame x
      | (d, some k) =>
        let t := d.sojourn x
        let d := d.flowCount h (16 + sojournBin t) 1
        let d := if x.cls = 0 then d.setChan g fun c => { c with maxSojourn := max c.maxSojourn t }
          else d.setFlow h fun f => { f with queue := { f.queue with maxSojourn := max f.queue.maxSojourn t } }
        let d := d.egressStamp x (srcCode 0 g)
        let s : Sending := { frame := x, sent := 0, keyField := k.keyField, slot := k.slot, key := k.key, payload := k.payload }
        d.setChan g fun c => { c with sending := some (d.fragmentHere g s) }

/-- The frame's FCS is inverted in what is left to send; a sealed payload ends with its tag behind the FCS. -/
def Sending.stomped (s : Sending) (sealedFlow : Bool) : Sending :=
  let n := s.payload.length - (if sealedFlow then 16 else 0)
  { s with payload := stomp (s.payload.take n) ++ s.payload.drop n, frame := { s.frame with bad := false, early := false } }

/-- A frame found bad after its start is stomped, and counted once (01 R19, 03 R85). -/
def Dev.stompSending (d : Dev) (g : Nat) (s : Sending) : Dev × Sending :=
  (d.count (ctrChan g 2), s.stomped (((d.flow? s.frame.flow).map Flow.sealedFlow).getD false))

/-- Objects whose drains count a downstream frame as sent. -/
def Dev.drainSent (d : Dev) (g h : Nat) : Dev :=
  let t := ((d.flow? h).map Flow.term).getD 0xFFFF
  ((d.drainCount (.flow h) 1 0).drainCount (.terminal t) 1 0).drainCount (.channel g) 1 0

/-- A covered Lantern frame that has taken longer than its bound (06 R173). -/
def Dev.checkBound (d : Dev) (x : Frame) : Dev :=
  if x.cls = 0 ∧ x.src / 16384 = 1 ∧ x.pass = 0 then
    match (lflow? (d.objsAt x.slot) x.flow).bind fun l => (d.lanternBound (d.objsAt x.slot) l).dn with
    | some dn => if dn + 2 < d.sojourn x then (d.flowCount x.flow 10 1).alarmOf alLantern (d.flowOwner x.flow) else d
    | none => d
  else d

/-- What a frame sent leaves for its segments and for the mirror: the active reports its head, a standby retains the frame. -/
def Dev.afterSend (d : Dev) (g : Nat) (x : Frame) : Dev :=
  let head : MirrorHead := ⟨if x.cls = 0 then g else x.flow, x.seq, x.ifcs⟩
  if d.follows then
    if x.cls = 0 then { d with prot := { d.prot with lanternRetain := d.prot.lanternRetain ++ [(g, d.time.frame, x)] } }
    else d.setFlow x.flow fun f => { f with retain := f.retain ++ [(d.time.frame, x)] }
  else
    let d := d.freeFrame x
    if d.isProtected then
      if x.cls = 0 then { d with prot := { d.prot with lanternHeads := (d.prot.lanternHeads.filter fun y => y.object != g) ++ [head] } }
      else { d with prot := { d.prot with heads := (d.prot.heads.filter fun y => y.object != x.flow) ++ [head] } }
    else d

/-- The frame being sent ends with its last fragment. -/
def Dev.endSending (d : Dev) (g : Nat) : Dev :=
  match (d.chan g).sending with
  | none => d
  | some s =>
    let (d, s) := if s.frame.bad then d.stompSending g s else (d, s)
    let x := s.frame
    let d := d.sendFragment g s s.payload.length true
    let d := d.setChan g fun c => { c with sending := none }
    let d := (d.flowCount x.flow 0 1).flowCount x.flow 1 x.data.length
    let d := (d.count (ctrChan g 18)).countBy (ctrChan g 19) x.data.length
    ((d.drainSent g x.flow).checkBound x).afterSend g x

/-- A frame that was preempted, or that goes on in a new PHY frame, begins its next fragment; its CTR part is used here again
(11 R282). -/
def Dev.goOn (d : Dev) (g : Nat) (s : Sending) : Dev :=
  let d := match s.slot with
    | some k => d.useSlot k s.key
    | none => d
  d.setChan g fun c => { c with fragment := if c.fragment == some s then none else c.fragment, sending := some (d.fragmentHere g s) }

/-- A PHY frame ends while a frame is being sent: what has left is its fragment, and the rest goes on in the next PHY frame
(03 R84); a frame that has left whole ends. How much has left is a free value (log entry 64). -/
def Dev.phyEnd (d : Dev) (g : Nat) : Dev :=
  match (d.chan g).sending with
  | none => d
  | some s =>
    let left := d.leftNow s
    let d := d.freeNext
    if left = s.payload.length then d.endSending g
    else if left = s.sent then d
    else (d.sendFragment g s left false).setChan g fun c => { c with sending := some { s with sent := left } }

/-- A PHY frame begins: its octets count from 0, and the frame being sent goes on in it. -/
def Dev.phyBegin (d : Dev) (g : Nat) : Dev :=
  let d := d.setChan g fun c => { c with phyPos := 0 }
  match (d.chan g).sending with
  | none => d
  | some s => d.goOn g s

/-- A frame that starts is charged: to its flow's CIR in a committed round, and to the PIR buckets of flow, terminal and channel. -/
def Dev.charge (d : Dev) (g h : Nat) (len : Nat) (committed : Bool) : Dev :=
  let oh := (tmChan d.objs g).overhead
  let d := d.setFlow h fun f => { f with pir := f.pir.charge len oh, cir := if committed then f.cir.charge len oh else f.cir }
  let d := match d.flow? h with
    | some f => d.setTerm f.term fun t => { t with bucket := t.bucket.charge len oh }
    | none => d
  d.setChan g fun c => { c with bucket := c.bucket.charge len oh }

/-- The head of the Lantern queue starts; it is charged and never waits. -/
def Dev.startLantern (d : Dev) (g : Nat) (x : Frame) (rest : List Frame) : Dev :=
  ((d.setChan g fun c => { c with lantern := rest }).charge g x.flow x.data.length false).startFrame g x.flow x

/-- The chosen flow's head frame starts. -/
def Dev.startFlow (d : Dev) (g h : Nat) (committed : Bool) : Dev :=
  match d.flow? h with
  | none => d
  | some f =>
    match f.queue.frames with
    | [] => d
    | x :: rest =>
      let q := { f.queue with frames := rest }
      let d := d.setFlow h fun f => { f with queue := q.turn (qprof? d.objs f.qprof) d.time.c }
      let d := if committed then d else d.restDeficit h f.cls
      (d.charge g h x.data.length committed).startFrame g h x

/-- Non-Lantern frames may start: not from slot 33 of a deciding round on, nor before the incoming device has the flow part of
section 3 (14 R359). -/
def Dev.mayStart (d : Dev) : Bool := d.prot.cutover != .losing && d.prot.cutover != .incoming && d.prot.cutover != .opened

/-- Lantern frames may start: an incoming device needs the channel part of section 3 first (14 R359). -/
def Dev.mayLantern (d : Dev) : Bool := d.prot.cutover != .incoming

/-- A preempted remainder may go on: not at a device that loses the claim, and at an incoming one from the channel part of section 3 on
(14 R359). -/
def Dev.mayGoOn (d : Dev) : Bool := d.prot.cutover != .losing && d.prot.cutover != .incoming

/-- An OMCI message waits for the channel: it goes before every class but Lantern (03 R104). -/
def Dev.omciWaits (d : Dev) (g : Nat) : Bool := d.terms.any fun t => t.2.chan == g && !t.2.omci.isEmpty

/-- The tree unit can take a frame: what was being sent ends; then a Lantern frame, the preempted remainder, or the scheduler's
choice starts. A Lantern frame of the remainder's own port waits for it (03 R84), and the scheduler waits for the OMCI messages of
the channel (03 R104). -/
def downstreamSelect (g : Nat) (d : Dev) : Dev :=
  if 191 < g ∨ d.chanIdle g then d
  else
    let d := d.endSending g
    if !d.chanLink g then d
    else
      let d := (d.dropNever g).fillChan g
      let c := d.chan g
      match if d.mayLantern then c.lantern else [], c.fragment with
      | x :: rest, none => d.startLantern g x rest
      | x :: rest, some s => if s.frame.flow = x.flow then d.goOn g s else d.startLantern g x rest
      | [], some s => if d.mayGoOn then d.goOn g s else d
      | [], none =>
        if !d.mayStart ∨ d.omciWaits g then d
        else
          match d.nextDown g with
          | some (h, committed, d) => d.startFlow g h committed
          | none => d

/-- The event DOWNSTREAM_SELECT: see `downstreamSelect`. -/
def execDownstreamSelect (g : Nat) (s : State) : Host.Outcome State Fault Refusal := live (downstreamSelect g) s

/-- The event TAIL_STOMP: the frame that started by cut-through on a channel is found bad. -/
def tailStomp (g : Nat) (d : Dev) : Dev :=
  let c := d.chan g
  match c.sending.filter fun s => s.frame.early, c.fragment.filter fun s => s.frame.early with
  | some s, _ => let (d, s) := d.stompSending g s
    d.setChan g fun c => { c with sending := some s }
  | none, some s => let (d, s) := d.stompSending g s
    d.setChan g fun c => { c with fragment := some s }
  | none, none => d

/-- See `tailStomp`. -/
def execTailStomp (g : Nat) (s : State) : Host.Outcome State Fault Refusal := live (tailStomp g) s

/-! ### OMCI (03 R104) -/

/-- The event OMCI_SENT: the oldest message of the terminal has left, behind what was being sent; not while a Lantern frame or a
preempted remainder waits, nor while the link is down. Its encapsulation port is the terminal's ONU-ID, as the standard has it (log
entry 54). -/
def omciSent (h : Nat) (d : Dev) : Dev :=
  match d.term? h with
  | none => d
  | some t =>
    match t.omci with
    | [] => d
    | (dom, seq, msg) :: rest =>
      let c := d.chan t.chan
      if !d.chanLink t.chan ∨ !c.lantern.isEmpty ∨ c.fragment.isSome ∨ !d.mayStart then d
      else
        let d := d.endSending t.chan
        let d := d.setTerm h fun t => { t with omci := rest }
        (d.sendPon t.chan t.onu 0 true msg).finishId dom seq .done [d.time.frame * frameNs % 2 ^ 32]

/-- See `omciSent`. -/
def execOmciSent (term : Nat) (s : State) : Host.Outcome State Fault Refusal := live (omciSent term) s

/-! ### Ports (10 R257, R263; 15 R379, R380) -/

/-- Preemption is active on a port. -/
def Dev.portPreempts (d : Dev) (q : Group) : Bool := q.kind == 1 && q.preempt && (d.port q.lane).preempt == 2

/-- A class goes on the port's express path; the Lantern class always does (15 Table 15-4). -/
def Group.expressClass (q : Group) (cls : Nat) : Bool := cls == 0 || bit q.exptx cls

/-- The gate of a port lets the head frame of a class start. -/
def Dev.portGate (d : Dev) (q : Group) (cls : Nat) (x : Frame) : Bool :=
  (d.gate 1 q.lane).allows cls d.now x.data.length (tmPort d.objs q.lane).overhead (d.laneGroupRate5 q.lane)
    (d.portPreempts q && !q.expressClass cls)

/-- A class of a port whose head frame may start. -/
def Dev.portReady (d : Dev) (q : Group) (cls : Nat) : Bool :=
  match ((d.port q.lane).queue cls).frames.head? with
  | some x => d.portGate q cls x
  | none => false

/-- The class that a port serves next, with the device after the choice: Lantern first; the others by MODE, with the port bucket
at or above 0. Behind a fragment only express classes are served. -/
def Dev.portPick (d : Dev) (q : Group) (expressOnly : Bool) : Option (Nat × Dev) :=
  let l := q.lane
  let p := d.port l
  let t := tmPort d.objs l
  if d.portReady q 0 then some (0, d)
  else if !p.bucket.ok then none
  else
    let cs := [1, 2, 3].filter fun c => d.portReady q c && (!expressOnly || q.expressClass c)
    if !t.drr then cs.head?.map fun c => (c, d)
    else
      let items := cs.map fun c => (⟨c, 512 * t.weights.getD (c - 1) 1, p.deficits.getD (c - 1) 0, (((p.queue c).frames.head?).map fun x => x.data.length).getD 0⟩ : Drr)
      (drrPick (drrFuel items) p.turn items).map fun r =>
        (r.1, d.setPort l fun p => { p with turn := r.1 + 1, deficits := r.2.foldl (fun a x => a.set (x.id - 1) x.deficit) p.deficits })

/-- Head frames that a port's gate can never let pass. -/
def Dev.dropNeverPort (d : Dev) (q : Group) : Dev :=
  let l := q.lane
  [0, 1, 2, 3].foldl (fun d c =>
    let u := (d.port l).queue c
    let bad := u.frames.takeWhile fun x =>
      !(d.portPreempts q && !q.expressClass c) && (d.gate 1 l).never c d.now x.data.length (tmPort d.objs l).overhead (d.laneGroupRate5 l)
    if bad.isEmpty then d
    else
      let u := { u with frames := u.frames.drop bad.length }
      ((d.freeFrames bad).countBy (ctrLane l 7) bad.length).setPortQueue l c fun _ => u.turn (d.portProf l c) d.time.c) d

/-- The carriage header of a frame on a Brynlink (15 R368). -/
def carriage (devId : Nat) (x : Frame) : Bytes :=
  beBytes 1 (128 * b2n x.express + 16 * (devId % 8) + x.cls % 4) ++ [0#8] ++ beBytes 2 x.src ++ beBytes 4 (x.itime % 2 ^ 32)

/-- A frame's start on a port or Brynlink: its egress timestamp and its sojourn. -/
def Dev.portStart (d : Dev) (q : Group) (cls : Nat) (x : Frame) : Dev :=
  let t := d.sojourn x
  (d.egressStamp x (srcCode q.kind q.lane)).setPortQueue q.lane cls fun u => { u with maxSojourn := max u.maxSojourn t }

/-- A frame's end on a port or Brynlink: it is counted and its segments are freed, and the active reports an upstream frame. -/
def Dev.portEnd (d : Dev) (q : Group) (x : Frame) : Dev :=
  let l := q.lane
  let d := (d.count (ctrLane l 11)).countBy (ctrLane l 12) x.data.length
  let d := (d.freeFrame x).drainCount (.port l) 1 0
  if d.isProtected ∧ !d.follows ∧ q.kind = 1 ∧ x.src / 16384 = 0 then
    { d with prot := { d.prot with confirms := (d.prot.confirms.filter fun y => y.object != x.flow) ++ [⟨x.flow, x.seq, x.ifcs⟩] } }
  else d

/-- Source code of the Keepers' own messages, which no table of the manual uses. -/
def srcKeepers : Nat := 0xFFFF

/-- First byte of the PTP header of a port's messages: behind the Ethernet header in profile 1, behind IP and UDP in profile 2. -/
def PtpPort.header (q : PtpPort) : Nat := if q.profile = 1 then 14 else if bit q.flags.toNat 3 then 62 else 42

/-- A port sends one-step (12 R298). -/
def PtpPort.oneStep (q : PtpPort) : Bool := bit q.flags.toNat 0

/-- An event message: Sync, Delay_Req or one of the two peer-delay messages (the codes are IEEE 1588's, PRESUMED, log entry 168). -/
def ptpEvent (q : PtpPort) (data : Bytes) : Bool := decide (q.header + 44 ≤ data.length) && decide (field data q.header 1 % 16 < 4)

/-- A message of a port with some bytes of its PTP part replaced: a UDP checksum follows the change, and so does the FCS. -/
def PtpPort.patch (q : PtpPort) (data : Bytes) (off : Nat) (new : Bytes) : Bytes :=
  let out := Machine.patch data (q.header + off) new
  let sum := field data (q.header - 2) 2
  refcs (if q.profile = 1 ∨ sum = 0 then out else Machine.patch out (q.header - 2) (beBytes 2 (csumOver sum data out q.header)))

/-- An event message of the Keepers at its start on a port: it is timestamped, and a one-step Sync carries its own timestamp (12
R299). -/
def Dev.ptpOut (d : Dev) (q : Group) (x : Frame) : Dev × Frame :=
  match d.time.ptp.find? q.lane with
  | none => (d, x)
  | some p =>
    if x.src ≠ srcKeepers ∨ !ptpEvent p x.data then (d, x)
    else
      let t := d.stamp (d.laneFix true q.lane)
      let d := { d with time := { d.time with ptp := d.time.ptp.put q.lane { p with txStamp := some (t, d.frac) } } }
      if p.oneStep ∧ field x.data p.header 1 % 16 = 0 then
        (d, { x with data := p.patch x.data 34 (beBytes 6 (t / 1000000000) ++ beBytes 4 (t % 1000000000)) })
      else (d, x)

/-- The bytes of a frame on the wire: a bad one has its FCS inverted (15 R379). -/
def Frame.wire (x : Frame) : Bytes := if x.bad then stomp x.data else x.data

/-- A frame leaves on a port whole. -/
def Dev.sendPort (d : Dev) (q : Group) (cls : Nat) (x : Frame) : Dev :=
  let d := d.portStart q cls x
  (d.emit (.uplink q.lane (d.portPreempts q && q.expressClass cls) x.wire)).portEnd q x

/-- Bytes of a block of a Brynlink: 256b/257b, or Clause 82's 64 bits at RATE 3 and 4 (15 R368). -/
def Group.blockBytes (q : Group) : Nat := if q.rate ≤ 2 then 32 else 8

/-- A control block leaves on a Brynlink or tender link: at a block boundary of the frame on the wire, if there is one (15 R368).
Which boundary is a free value (log entry 180). -/
def Dev.sendControl (d : Dev) (l kind : Nat) (words : List Int) : Dev :=
  let d := match d.group? l, (d.port l).sending with
    | some q, some s =>
      let n := q.blockBytes * (d.freeNow % ((s.data.length - s.sent) / q.blockBytes + 1))
      let d := d.freeNext
      if q.kind ≠ 2 ∨ n = 0 ∨ s.data.length ≤ s.sent + n then d
      else (d.emit (.blocks l (s.sent == 0) false (slice s.data s.sent n))).setPort l fun p => { p with sending := some { s with sent := s.sent + n } }
    | _, _ => d
  d.emit (.control l kind words)

/-- The preemptable frame on a port's wire, or the frame on a Brynlink, ends: whole, or with its last piece. -/
def Dev.endPort (d : Dev) (q : Group) : Dev :=
  match (d.port q.lane).sending with
  | none => d
  | some s =>
    let d := d.setPort q.lane fun p => { p with sending := none }
    let d := if q.kind = 2 then
        if s.sent = 0 then d.emit (.brynlink q.lane (s.data.take 8) (s.data.drop 8)) else d.emit (.blocks q.lane false true (s.data.drop s.sent))
      else if s.sent = 0 then d.emit (.uplink q.lane false s.data) else d.emit (.mpacket q.lane false true (s.data.drop s.sent))
    d.portEnd q s.frame

/-- The MAC ends the fragment of the preemptable frame on the wire, when both parts are long enough: a fragment holds at least
64 × (1 + ADDFRAG) bytes and the rest at least 64 (15 R380). How much has left is a free value (log entry 64). A frame that cannot be
cut ends. -/
def Dev.cutPort (d : Dev) (q : Group) : Dev :=
  match (d.port q.lane).sending with
  | none => d
  | some s =>
    let left := s.sent + d.freeNow % (s.data.length - s.sent + 1)
    let d := d.freeNext
    if s.sent + 64 * (1 + q.addFrag) ≤ left ∧ left + 64 ≤ s.data.length then
      (d.emit (.mpacket q.lane (s.sent == 0) false (slice s.data s.sent (left - s.sent)))).setPort q.lane fun p =>
        { p with sending := none, fragment := some { s with sent := left } }
    else d.endPort q

/-- What the MAC does with the preemptable frame on the wire before it takes another: it is cut while its gate is closed, or for an
express frame that may start (10 R263, 15 R380); otherwise it ends. -/
def Dev.yieldPort (d : Dev) (q : Group) : Dev :=
  match (d.port q.lane).sending with
  | none => d
  | some s =>
    let held := (d.gate 1 q.lane).openFor s.cls d.now == some 0
    let express := (d.portPick q true).isSome
    if d.portPreempts q ∧ (held ∨ express) then d.cutPort q else d.endPort q

/-- The head frame of a class leaves its queue and starts. A preemptable frame, or a frame on a Brynlink, stays on the wire until the
MAC takes another frame. -/
def Dev.startPort (d : Dev) (q : Group) (c : Nat) : Dev :=
  let l := q.lane
  let u := (d.port l).queue c
  match u.frames with
  | [] => d
  | x :: rest =>
    let v := { u with frames := rest }.turn (d.portProf l c) d.time.c
    let (d, x) := (d.setPortQueue l c fun _ => v).ptpOut q x
    let d := d.setPort l fun p =>
      { p with bucket := p.bucket.charge x.data.length (tmPort d.objs l).overhead
               deficits := if v.frames.isEmpty ∧ c ≠ 0 then p.deficits.set (c - 1) 0 else p.deficits }
    if q.kind = 2 ∨ (d.portPreempts q ∧ !q.expressClass c) then
      let data := if q.kind = 2 then carriage d.sys.devId.toNat x ++ x.wire else x.wire
      (d.portStart q c x).setPort l fun p => { p with sending := some { frame := x, cls := c, data } }
    else d.sendPort q c x

/-- The port scheduler chooses the next frame, and the MAC sends it. A fragment goes on before any other preemptable frame, once its
gate is open. -/
def portSchedule (l : Nat) (d : Dev) : Dev :=
  match d.group? l with
  | none => d
  | some q =>
    if (q.kind ≠ 1 ∧ q.kind ≠ 2) ∨ !d.portUp l ∨ !d.groupLit q then d
    else
      let now := d.now
      let d := d.releaseLantern
      let d := d.setPort l fun p => { p with bucket := p.bucket.fill (d.portRate d.objs l) (tmPort d.objs l).pbs now }
      let d := (d.dropNeverPort q).yieldPort q
      match (d.port l).fragment with
      | some s =>
        match d.portPick q true with
        | some (c, d) => d.startPort q c
        | none =>
          if d.portPreempts q ∧ (d.gate 1 l).openFor s.cls now = some 0 then d
          else d.setPort l fun p => { p with fragment := none, sending := some s }
      | none =>
        match d.portPick q false with
        | some (c, d) => d.startPort q c
        | none => d

/-- The event PORT_SCHEDULE: see `portSchedule`. -/
def execPortSchedule (lane : Nat) (s : State) : Host.Outcome State Fault Refusal := live (portSchedule lane) s

/-! ### Link down (10 R265, R266; 06 R172) -/

/-- A flow's frames are held with its channel's: not those of a disabled flow or of a terminal that drains (10 R266). -/
def Dev.heldFlow (d : Dev) (f : Flow) : Bool := !f.disabled && !d.draining (.terminal f.term)

/-- A channel's held frames are flushed: every frame of its flows, and a preempted remainder. -/
def Dev.flushChan (d : Dev) (g : Nat) : Dev :=
  let d := (d.flowsOn g).foldl (fun d h =>
    match d.flow? h with
    | some f => if d.heldFlow f then (d.loseFrames 7 f.queue.all).setFlow h fun f => { f with queue := f.queue.empty } else d
    | none => d) d
  let d := match (d.chan g).fragment with
    | some s => d.flowLoss s.frame s.frame.flow 7
    | none => d
  d.setChan g fun c => { c with fragment := none, hold := none, flushed := true }

/-- A channel's queued Lantern frames are discarded (06 R172). -/
def Dev.dropLantern (d : Dev) (g : Nat) : Dev := (d.loseFrames 9 (d.chan g).lantern).setChan g fun c => { c with lantern := [] }

/-- A channel's link goes down. A channel whose disable drains holds nothing (10 R266). -/
def Dev.chanDown (d : Dev) (g : Nat) : Dev :=
  let d := d.dropLantern g
  if (d.chan g).disabled then d.setChan g fun c => { c with linkUp := false, flushed := false, hold := none }
  else
    let hold := (tmChan d.objs g).hold
    let d := d.setChan g fun c => { c with linkUp := false, flushed := false, hold := some (d.inNs (hold * 1000000)) }
    if hold = 0 then d.flushChan g else d

/-- The channel's link as its rules now have it: a hold starts when the link goes down, ends when it returns, and never runs on
an off or disabled channel. -/
def Dev.relinkChan (d : Dev) (g : Nat) : Dev :=
  let c := d.chan g
  let up := d.chanLink g
  if d.chanIdle g then
    if c.linkUp then (d.dropLantern g).setChan g fun c => { c with linkUp := false, hold := none, flushed := false }
    else if c.hold.isSome ∨ c.flushed then d.setChan g fun c => { c with hold := none, flushed := false } else d
  else if c.linkUp ∧ !up then d.chanDown g
  else if !c.linkUp ∧ up then d.setChan g fun c => { c with linkUp := true, hold := none, flushed := false }
  else d

/-- Every channel's link as its rules now have it. -/
def Dev.relink (d : Dev) : Dev := (List.range 192).foldl Dev.relinkChan d

/-- A port's held frames are flushed, the rest of a preempted frame with them. -/
def Dev.flushPort (d : Dev) (l : Nat) : Dev :=
  let qs := [1, 2, 3].map fun c => (d.port l).queue c
  let fs := ((d.port l).fragment.map PortSend.frame).toList ++ qs.flatMap Queue.all
  let d := (d.freeFrames fs).countBy (ctrLane l 6) fs.length
  d.setPort l fun p => { p with queues := p.queue 0 :: qs.map Queue.empty, fragment := none, hold := none, flushed := true }

/-- A port's link goes down: the frame on the wire ends, Lantern frames are discarded, and the hold of the others starts; a disabled
port holds nothing (10 R266). -/
def Dev.portDown (d : Dev) (l : Nat) : Dev :=
  let d := match d.group? l with
    | some q => d.endPort q
    | none => d
  let d := (d.loseFrames 9 ((d.port l).queue 0).frames).setPortQueue l 0 fun q => { q with frames := [] }
  if (d.port l).disabled.isSome then d
  else
    let hold := (tmPort d.objs l).hold
    let d := d.setPort l fun p => { p with hold := some (d.inNs (hold * 1000000)), flushed := false }
    if hold = 0 then d.flushPort l else d

/-- The event LINK_DOWN_HOLD_EXPIRY: kind 0 a channel, 1 a port. -/
def linkDownHoldExpiry (kind target : Nat) (d : Dev) : Dev :=
  if kind = 0 then
    match (d.chan target).hold with
    | some due => (d.goCounter due).flushChan target
    | none => d
  else
    match (d.port target).hold with
    | some due => (d.goCounter due).flushPort target
    | none => d

/-- See `linkDownHoldExpiry`. -/
def execLinkDownHoldExpiry (kind target : Nat) (s : State) : Host.Outcome State Fault Refusal := live (linkDownHoldExpiry kind target) s

end Sys2Proof.Machine
end

