-- ==== Sys2Proof/Machine/Ingress.lean ====
section
/-!
DEFINITION. Frames from uplink ports and Brynlinks at their receive MACs (15 R368, R378, R380, R381).
-/
namespace Sys2Proof.Machine

/-! ### Ethernet ports -/

/-- A group that receives: of the kind, up, and not turned away by a disable. -/
def Dev.receives? (d : Dev) (l kind : Nat) : Option Group :=
  (d.group? l).filter fun q => q.kind == kind && d.portUp l && (d.port l).disabled.isNone

/-- PCP of the outer tag, when its TPID is enabled; an untagged frame counts as PCP 0 (15 R381). -/
def outerPcp (data : Bytes) (tpids : Nat) : Nat :=
  match byEtype tpids (field data 12 2) with
  | some .tag => field data 14 1 / 32
  | _ => 0

/-- What the receive MAC makes of a frame; one whose header was handed over early goes on as bad when its tail fails. -/
inductive RxVerdict where
  | codeError
  | fcsError
  | runt
  | giant
  | accept
deriving DecidableEq, Repr

/-- The checks of the receive MAC (15 R378, R380). -/
def Group.check (q : Group) (rx : UplinkRx) : RxVerdict :=
  let n := rx.data.length
  if rx.path = .preemptable ∧ !q.preempt then .codeError
  else if rx.pcsError then .fcsError
  else if n < 64 then .runt
  else if !fcsGood rx.data then .fcsError
  else if q.maxFrame < n then .giant
  else .accept

/-- An erroneous frame that ERRDELIV sends to reason 6, with its descriptor flag. -/
def Dev.deliverError (d : Dev) (q : Group) (data : Bytes) (flag itime : Nat) : Dev :=
  if q.errDeliv then d.ingress { data, src := srcCode 1 q.lane, itime, reason := 6, dflags := flag } else d

/-- The event UPLINK_FRAME_RECEIVE: a frame at an Ethernet port's receive MAC, timestamped with the correction of its lanes (12
R296). A frame that was handed over early cannot be taken back: with an error it goes on as bad, and a giant is cut at MAXFRAME (03
R85). -/
def uplinkFrameReceive (rx : UplinkRx) (d : Dev) : Dev :=
  match d.receives? rx.lane 1 with
  | none => d
  | some q =>
    let l := q.lane
    let itime := d.stamp (laneCorrection false q.rate q.fec)
    let express := (rx.path == .express && q.preempt) || bit q.exprx (outerPcp rx.data (bits q.flags 6 4))
    let x : Frame := { data := rx.data, src := srcCode 1 l, itime, express, early := rx.early }
    match q.check rx with
    | .codeError => d.count (ctrLane l 3)
    | .runt => (d.count (ctrLane l 1)).deliverError q rx.data 16 itime
    | .fcsError => if rx.early ∧ 64 ≤ rx.data.length then d.ingress { x with bad := true, rxErr := 1 } else d.count (ctrLane l 0)
    | .giant =>
      let d := d.count (ctrLane l 2)
      let cut := rx.data.take q.maxFrame
      if rx.early then d.ingress { x with data := cut, bad := true, rxErr := 2 } else d.deliverError q cut 8 itime
    | .accept => ((d.count (ctrLane l 9)).countBy (ctrLane l 10) rx.data.length).ingress x

/-- See `uplinkFrameReceive`. -/
def execUplinkFrameReceive (rx : UplinkRx) (s : State) : Host.Outcome State Fault Refusal := live (uplinkFrameReceive rx) s

/-! ### Brynlinks -/

/-- The ingress timestamp that a carriage header gives by its low 32 bits: the latest one not after now (log entry 67). -/
def fullTime (now low : Nat) : Nat := now - (now + 2 ^ 32 - low % 2 ^ 32) % 2 ^ 32

/-- The event BRYNLINK_FRAME_RECEIVE: a frame behind its carriage header of 8 bytes, which is stripped. A frame with a bad FCS, as
one that was stomped on its way, is discarded and counted, or goes on as bad where its header was handed over early (03 R85; log
entry 67). -/
def brynlinkFrameReceive (l : Nat) (early : Bool) (data : Bytes) (d : Dev) : Dev :=
  match d.receives? l 2 with
  | none => d
  | some q =>
    if data.length < 8 then d
    else
      let frame := data.drop 8
      let x : Frame := { data := frame, src := srcCode 2 q.lane, itime := fullTime d.now (field data 4 4), express := bit (field data 0 1) 7
                         early }
      if fcsGood frame then ((d.count (ctrLane l 9)).countBy (ctrLane l 10) frame.length).ingress x
      else if early ∧ 64 ≤ frame.length then d.ingress { x with bad := true, rxErr := 1 }
      else d.count (ctrLane l 0)

/-- See `brynlinkFrameReceive`. -/
def execBrynlinkFrameReceive (lane : Nat) (early : Bool) (data : Bytes) (s : State) : Host.Outcome State Fault Refusal :=
  live (brynlinkFrameReceive lane early data) s

end Sys2Proof.Machine
end

