-- ==== Sys2Proof/Machine/Rings.lean ====
section
/-!
DEFINITION. Host frame rings: RX_RING_SET, TX_RING_SET, RING_DISABLE, and what the device reads and writes in them (09 R238 to
R242).
-/
namespace Sys2Proof.Machine

/-! ### Setting rings (09 R238) -/

/-- Fields of 09 Table 9-8; `tx` for a transmit ring. -/
def ringForm (tx : Bool) (p : Bytes) : Bool :=
  decide (ent p 16 2 ≤ 63) && decide (ent p 19 1 ≤ 1) && zeros 16 p [(38, 63)]
  && (bit (ent p 19 1) 0 || (within (ent p 18 1) 6 15 && aligned (ent p 20 8) 4096 && aligned (ent p 28 8) 8
    && (if tx then decide (ent p 36 2 ≤ 1000) else ent p 36 2 == 0)))

/-- The ring that a write describes. -/
def ringOf (p : Bytes) (now : Nat) : FrameRing :=
  { log2 := ent p 18 1, base := ent p 20 8, prodWord := ent p 28 8, poll := orZero (ent p 36 2) 10
    nextPoll := now + 1000 * orZero (ent p 36 2) 10 }

/-- Setting a ring that is set, or removing one that is not disabled. -/
def ringForbid (t : Tbl FrameRing) (p : Bytes) : Option (Status × List Nat) :=
  match Tbl.find? t (ent p 16 2) with
  | none => if bit (ent p 19 1) 0 then some (.conflict, []) else none
  | some q => if bit (ent p 19 1) 0 ∧ q.disabled then none else some (.conflict, [])

/-- The table after a write. -/
def ringWrite (t : Tbl FrameRing) (p : Bytes) (now : Nat) : Tbl FrameRing :=
  if bit (ent p 19 1) 0 then t.del (ent p 16 2) else t.put (ent p 16 2) (ringOf p now)

/-- `RX_RING_SET`. -/
def cmdRxRingSet : CmdDef where
  op := 0x0806
  names := fun _ p => [.rxRing (ent p 16 2)]
  form := ringForm false
  forbid := fun d e => ringForbid d.sw.rx e.par
  run := fun e d => { d with sw := { d.sw with rx := ringWrite d.sw.rx e.par d.time.c } }.ok e

/-- The command `RX_RING_SET`. -/
def execRxRingSet (p : Packet) (s : State) : Host.Outcome State Fault Refusal := command cmdRxRingSet p s

/-- `TX_RING_SET`. -/
def cmdTxRingSet : CmdDef where
  op := 0x0807
  names := fun _ p => [.txRing (ent p 16 2)]
  form := ringForm true
  forbid := fun d e => ringForbid d.sw.tx e.par
  run := fun e d => { d with sw := { d.sw with tx := ringWrite d.sw.tx e.par d.time.c } }.ok e

/-- The command `TX_RING_SET`. -/
def execTxRingSet (p : Packet) (s : State) : Host.Outcome State Fault Refusal := command cmdTxRingSet p s

/-! ### RING_DISABLE (09 R242) -/

/-- The ring that a disable names. -/
def ringNamed (p : Bytes) : DrainObj := if ent p 18 1 = 0 then .rxRing (ent p 16 2) else .txRing (ent p 16 2)

/-- `RING_DISABLE`. -/
def cmdRingDisable : CmdDef where
  op := 0x0808
  newWork := false
  names := fun _ p => [ringNamed p]
  form := fun p => decide (ent p 16 2 ≤ 63) && decide (ent p 18 1 ≤ 1) && limitOk (ent p 20 4) && zeros 16 p [(19, 19), (24, 63)]
  forbid := fun d e =>
    match Tbl.find? (if ent e.par 18 1 = 0 then d.sw.rx else d.sw.tx) (ent e.par 16 2) with
    | some q => if q.disabled then some (.conflict, []) else none
    | none => some (.conflict, [])
  run := fun e d =>
    let off := fun (q : FrameRing) => { q with disabled := true }
    let i := ent e.par 16 2
    let d := if ent e.par 18 1 = 0 then { d with sw := { d.sw with rx := d.sw.rx.adjust i off } }
      else { d with sw := { d.sw with tx := d.sw.tx.adjust i off } }
    d.startDrain e (ringNamed e.par) (ent e.par 20 4)

/-- The command `RING_DISABLE`. -/
def execRingDisable (p : Packet) (s : State) : Host.Outcome State Fault Refusal := command cmdRingDisable p s

/-! ### Receive rings (09 R239, R240) -/

/-- Changes a receive ring. -/
def Dev.setRx (d : Dev) (r : Nat) (f : FrameRing → FrameRing) : Dev := { d with sw := { d.sw with rx := d.sw.rx.adjust r f } }

/-- Changes a transmit ring. -/
def Dev.setTx (d : Dev) (r : Nat) (f : FrameRing → FrameRing) : Dev := { d with sw := { d.sw with tx := d.sw.tx.adjust r f } }

/-- Entries between two free-running 16-bit indices. -/
def FrameRing.ahead (q : FrameRing) (producer : Nat) : Nat := (producer % 65536 + 65536 - q.index % 65536) % 65536

/-- A frame's bytes over the posted buffers: each buffer used with its part, and what is left. -/
def spread : List RxPosted → Bytes → List (RxPosted × Bytes) × Bytes
  | [], data => ([], data)
  | b :: t, data =>
    if data.isEmpty then ([], [])
    else
      let r := spread t (data.drop b.len)
      ((b, data.take b.len) :: r.1, r.2)

/-- Bytes 10 to 31 of a receive entry (09 Table 9-9). -/
def rxEntry (x : Frame) (len dflags phase : Nat) : Bytes :=
  beBytes 2 len ++ beBytes 1 dflags ++ beBytes 1 x.reason ++ beBytes 2 (if 6 ≤ x.reason then 0 else x.pflags) ++ beBytes 2 x.src
  ++ beBytes 2 (flowWord x.flow) ++ beBytes 8 x.itime ++ [0#8, 0#8, 0#8] ++ beBytes 1 phase

/-- Writes a frame into buffers, then its entries; an abandoned frame's entries carry LEN 0. TRUNC and RUNT stand in each entry of
a frame (log entry 68). -/
def Dev.writeRx (d : Dev) (q : FrameRing) (x : Frame) (used : List (RxPosted × Bytes)) (abandoned : Bool) : Dev :=
  let d := used.foldl (fun d u => d.hostWrite u.1.addr u.2) d
  let n := 2 ^ q.log2
  used.zipIdx.foldl (fun d u =>
    let k := q.index + u.2
    let first := u.2 == 0
    let last := u.2 + 1 == used.length
    let fl := if abandoned then b2n first + 2 * b2n last + 4 else b2n first + 2 * b2n last + x.dflags
    d.hostWrite (q.base + 32 * (k % n) + 10) (rxEntry x (if abandoned then 0 else u.1.2.length) fl (phaseOf k n))) d

/-- The event HOST_RX_WRITE: the oldest frame of a receive ring. `producer` is what the producer word holds, read only when the
device knows of no posted buffer; `posted` are the entries from the ring's index on. -/
def hostRxWrite (r producer : Nat) (posted : List RxPosted) (d : Dev) : Dev :=
  match d.sw.rx.find? r with
  | none => d
  | some q =>
    match q.queue with
    | [] => d
    | x :: rest =>
      let q := if q.ahead q.producer = 0 then { q with producer := producer % 65536 } else q
      if q.ahead q.producer = 0 then
        ((d.setRx r fun _ => { q with queue := rest }).freeFrame x).count (ctrRx r 0)
      else
        let known := spread (posted.take (q.ahead q.producer)) x.data
        let q := if known.2.isEmpty then q else { q with producer := producer % 65536 }
        let (used, left) := if known.2.isEmpty then known else spread (posted.take (q.ahead q.producer)) x.data
        let d := d.writeRx q x used (!left.isEmpty)
        let d := (d.setRx r fun _ => { q with queue := rest, index := q.index + used.length }).freeFrame x
        if left.isEmpty then ((d.count (ctrRx r 2)).countBy (ctrRx r 3) x.data.length).drainCount (.rxRing r) 1 0
        else d.count (ctrRx r 1)

/-- See `hostRxWrite`. -/
def execHostRxWrite (ring producer : Nat) (posted : List RxPosted) (s : State) : Host.Outcome State Fault Refusal :=
  live (hostRxWrite ring producer posted) s

/-! ### Transmit rings (09 R241) -/

/-- Writes bytes 16 to 31 of the entries of a chain that ends before an index. TIME and STATUS are valid in a LAST entry alone; in
another entry they are free values (log entry 70), but for STATUS 3 of a disabled ring's entries (R242). -/
def Dev.writeTx (d : Dev) (q : FrameRing) (chain : List TxPosted) (stop status : Nat) : Dev :=
  let n := 2 ^ q.log2
  let now := d.now
  chain.zipIdx.foldl (fun d e =>
    let k := stop - chain.length + e.2
    let last := bit e.1.flags.toNat 1
    let time := if last then now else d.freeNow % 2 ^ 64
    let st := if last ∨ status = 3 then status else d.freeNow / 2 ^ 64 % 256
    (if last then d else d.freeNext).hostWrite (q.base + 32 * (k % n) + 16)
      (beBytes 8 time ++ beBytes 1 st ++ List.replicate 6 0#8 ++ beBytes 1 (phaseOf k n))) d

/-- The frame of a chain. -/
def chainData (chain : List TxPosted) : Bytes := chain.flatMap fun e => slice e.data 0 e.len

/-- STATUS of a chain that ends with its LAST entry. -/
def chainStatus (chain : List TxPosted) : Nat :=
  let n := (chainData chain).length
  if !(chain.head?.any fun e => bit e.flags.toNat 0) ∨ 64 < chain.length then 2 else if n < 64 ∨ 16000 < n then 1 else 0

/-- A chain is complete: its entries are written, and its frame enters pipeline (ring mod 8). -/
def Dev.takeChain (d : Dev) (r : Nat) (q : FrameRing) (chain : List TxPosted) (stop : Nat) : Dev :=
  let st := chainStatus chain
  let d := d.writeTx q chain stop st
  if st ≠ 0 then d.count (ctrTx r 2)
  else
    let data := chainData chain
    let ts := if chain.any fun e => bit e.flags.toNat 2 then some (r, stop - 1) else none
    (((d.count (ctrTx r 0)).countBy (ctrTx r 1) data.length).drainCount (.txRing r) 1 0).ingress
      { data, src := srcCode 3 r, itime := d.now, tsReq := ts }

/-- One fetched entry. A FIRST within a chain shows that the chain lacks its LAST. -/
def Dev.fetchTx (d : Dev) (r : Nat) (e : TxPosted) : Dev :=
  match d.sw.tx.find? r with
  | none => d
  | some q =>
    let broken := bit e.flags.toNat 0 && !q.chain.isEmpty
    let d := if broken then (d.writeTx q q.chain q.index 2).count (ctrTx r 2) else d
    let chain := (if broken then [] else q.chain) ++ [e]
    let q := { q with index := q.index + 1, chain := if bit e.flags.toNat 1 then [] else chain }
    let d := d.setTx r fun _ => q
    if bit e.flags.toNat 1 then d.takeChain r q chain q.index else d

/-- The event TX_RING_POLL: `producer` is what the producer word holds, `entries` are the ring's entries from its index on. -/
def txRingPoll (r producer : Nat) (entries : List TxPosted) (d : Dev) : Dev :=
  match d.sw.tx.find? r with
  | none => d
  | some q =>
    if q.disabled then d
    else
      let d := d.goCounter q.nextPoll
      let d := d.setTx r fun q => { q with producer := producer % 65536, nextPoll := d.time.c + 1000 * q.poll }
      (entries.take (q.ahead producer)).foldl (fun d e => d.fetchTx r e) d

/-- See `txRingPoll`. -/
def execTxRingPoll (ring producer : Nat) (entries : List TxPosted) (s : State) : Host.Outcome State Fault Refusal :=
  live (txRingPoll ring producer entries) s

/-- The end of a transmit ring's drain: entries fetched and not taken complete with STATUS 3. -/
def Dev.stopTx (d : Dev) (r : Nat) : Dev :=
  match d.sw.tx.find? r with
  | some q => if q.chain.isEmpty then d else
    ((d.writeTx q q.chain q.index 3).count (ctrTx r 2)).setTx r fun q => { q with chain := [] }
  | none => d

end Sys2Proof.Machine
end

