-- ==== Sys2Proof/Machine/Planner.lean ====
section
/-!
DEFINITION. The grant planner (05): demand, quiet windows, the stages of a plan, placement, and the commands of group
0x05 but `LANTERN_FLOW_SET` and `LANTERN_BOUND_READ`.
-/
namespace Sys2Proof.Machine

/-! ### Lengths on the receive axis (05 R126) -/

/-- Tenths of a ns in whole bytes at r_up, rounded up. -/
def axisBytes (c : ChanCfg) (tenths : Nat) : Nat := cdiv (tenths * upRate5 c) 8000000

/-- Bytes from a ranging window's start to its grant's start, a multiple of 4: 2,512 ns and T_eq − RTD_c, which is 0 for a terminal
that is already equalised (05 R143). -/
def rangeLead (objs : List VObj) (g rtd : Nat) : Nat :=
  let r := upRate5 (chanCfg objs g)
  let away : Int := if rtd = teqNs objs g then 0 else (teqBits objs g * 100000 : Nat) - (rtd * r : Nat)
  roundUp (cdiv ((2512 * r : Nat) + away).toNat 800000) 4

/-- Δ of R142 in tenths of a ns. -/
def discDelta10 (objs : List VObj) (g : Nat) : Nat :=
  let x := discCfg objs g
  98 * (x.dmax - x.dmin) + 20000

/-- Δ of R142 in whole bytes, rounded up. -/
def discDelta (objs : List VObj) (g : Nat) : Nat := axisBytes (chanCfg objs g) (discDelta10 objs g)

/-- The commit whose version will run at the instant of frame `n`, as far as is known (R125). -/
def Dev.commitFor (d : Dev) (n : Nat) : Option Commit :=
  d.vers.commit.filter fun c =>
    match c.phase with
    | .waiting i => decide (i ≤ n * frameNs)
    | .armed b => decide ((d.beacon b).state = .armed) && decide (tdiff (d.beacon b).instant (n * frameNs) ≤ 0)
    | _ => false

/-- The version content that will run at the instant of frame `n`. -/
def Dev.objsFor (d : Dev) (n : Nat) : List VObj := if (d.commitFor n).isSome then d.vers.openObjs else d.objs

/-- The characteristic of that version (R134). -/
def Dev.placesFor (d : Dev) (n : Nat) : List (Nat × Nat × Nat) :=
  match d.commitFor n with
  | some c => c.places
  | none => (d.vers.running.map Version.places).getD []

/-- The channel is planned under a version: on, and not disabled with its drain ended (03 R77, R78). -/
def Dev.planned (d : Dev) (objs : List VObj) (g : Nat) : Bool :=
  (chanCfg objs g).mode != 0 && (!(d.chan g).disabled || (d.chan g).restart || d.draining (.channel g))

/-- What a build reads. -/
structure PlanCtx where
  objs  : List VObj
  g     : Nat
  n     : Nat
  cc    : ChanCfg
  pc    : PlanCfg
  /-- Terminals of the channel that may be granted, in handle order; none where the version changes MODE or UPRATE (R155). -/
  terms : List (Nat × Term)
  /-- The channel's characteristic (R134), and the profiles that the plan may not assign yet (03 R88). -/
  placed : List Placed
  late  : List Nat

/-- The inputs of a build. -/
def Dev.planCtx (d : Dev) (g n : Nat) : PlanCtx :=
  let objs := d.objsFor n
  let a := chanCfg d.objs g
  let b := chanCfg objs g
  { objs, g, n, cc := b, pc := planCfg objs g, placed := placedOf objs (d.placesFor n) g, late := d.lateProfiles objs g
    terms := if a.mode = b.mode ∧ a.upRate = b.upRate then d.terms.filter fun t => t.2.chan == g && !t.2.draining else [] }

/-- U of the channel. -/
def PlanCtx.u (x : PlanCtx) : Nat := rxFrameBytes x.cc

/-- A terminal of the channel. -/
def PlanCtx.term? (x : PlanCtx) (h : Nat) : Option Term := (x.terms.find? fun t => t.1 == h).map Prod.snd

/-- Profile that a terminal's next burst uses. -/
def PlanCtx.prof (x : PlanCtx) (h : Nat) : Nat × Profile :=
  match x.term? h with
  | some t => let i := termProfile x.objs x.late t; (i, profileOr0 x.objs x.g i)
  | none => (0, profileOr0 x.objs x.g 0)

/-- Extra guard before and after a terminal's bursts in bytes (R145, 04 R118). -/
def PlanCtx.guard (x : PlanCtx) (h : Nat) : Nat :=
  match x.term? h with
  | some t => if t.guardFrames = 0 then 0 else roundUp (cdiv t.guardBits 8) 4
  | none => 0

/-! ### Demand (R137 to R141) -/

/-- The last report counts: reports are requested, one has come, and the last 8 bursts were not all without one (R156). -/
def Alloc.reportOk (a : Alloc) : Bool := bit a.flags.toNat 0 && a.reported && decide (a.distrust < 8)

/-- Outstanding bytes O (R137). -/
def Alloc.outstanding (a : Alloc) : Nat := sumBy a.grants Prod.snd

/-- The detector's period for a list of event frames, newest first; 0 for none (R139). -/
def detect (ev : List Nat) : Nat :=
  let n := ev.length
  if n < 4 then 0
  else
    let gaps := (ev.zip (ev.drop 1)).map fun p => p.1 - p.2
    let lo := gaps.foldl min 1000
    let hi := maxBy gaps id
    let p := (ev.headD 0 - ev.getLastD 0 + (n - 1) / 2) / (n - 1)
    if p < 2 ∨ 64 < p ∨ lo + 1 < p ∨ p + 1 < hi then 0 else p

/-- The detector runs for the allocation: PREDICT, and the channel's detector on. -/
def Alloc.detecting (a : Alloc) (pc : PlanCfg) : Bool := bit a.flags.toNat 1 && pc.detector

/-- The pre-grant that the plan of frame `n` holds (R140). -/
def Alloc.preGrant (a : Alloc) (pc : PlanCfg) (n : Nat) : Nat :=
  match a.events with
  | (f, s) :: t => if a.period ≠ 0 ∧ a.detecting pc ∧ n = f + a.period + pc.preAdv then (t.take 2).foldl (fun m e => min m e.2) s else 0
  | [] => 0

/-- Forecast bytes for a frame (R141). -/
def Alloc.forecast (a : Alloc) (n : Nat) : Nat :=
  sumBy a.forecasts fun f => if f.1 ≤ n ∧ (n - f.1) % f.2.2.1 = 0 ∧ (n - f.1) / f.2.2.1 < f.2.1 then f.2.2.2 else 0

/-- Demand of an allocation in the plan for a frame (R141). -/
def Alloc.demand (a : Alloc) (pc : PlanCfg) (n : Nat) : Nat :=
  let base :=
    if a.reportOk then a.report - a.outstanding
    else if !bit a.flags.toNat 0 ∧ !bit a.flags.toNat 2 then pc.minGrant else a.fill
  base + a.preGrant pc n + a.forecast n

/-- The largest grant per frame. -/
def Alloc.cap (a : Alloc) (v : Nat) : Nat := if a.maxGrant = 0 then v else min v a.maxGrant

/-- Two consecutive misses unlock the allocation (R140); `rx` is the last receive frame that has wholly passed. -/
def Alloc.judge (a : Alloc) (rx : Nat) : Alloc :=
  match a.events with
  | (f, _) :: _ =>
    if a.period ≠ 0 ∧ f + (a.misses + 1) * a.period + 1 ≤ rx then
      if a.misses = 0 then { a with misses := 1 } else { a with misses := 0, period := 0, events := [] }
    else a
  | [] => a

/-- Credit and PRATE bucket rise at each build (R148, R149), and what has passed is dropped. -/
def Alloc.rise (a : Alloc) (n : Nat) : Alloc :=
  { a with
    credit := if a.cls = 1 then min (a.credit + a.arate) (8 * a.arate) else 0
    bucket := min (a.bucket + a.prate) (2 * a.prate)
    grants := if a.reportOk then a.grants else a.grants.filter fun x => decide (n ≤ x.1 + 16)
    forecasts := a.forecasts.filter fun f => decide (n ≤ f.1 + (f.2.1 - 1) * f.2.2.1 + 16) }

/-! ### Grants and bursts (R146) -/

/-- A grant being planned. -/
structure Grant where
  handle  : Option Nat
  term    : Nat
  allocId : Nat
  kind    : Nat
  size    : Nat
  /-- Bytes of the size that the Assured stage gave (R148). -/
  assured : Nat := 0
  report  : Bool := false
  ploamu  : Bool := false
  pre     : Bool := false
  fore    : Bool := false
deriving DecidableEq, Repr

/-- Order of a grant within its burst: the default grant first, then ascending handles. -/
def Grant.order (x : Grant) : Nat :=
  match x.handle with
  | none => 0
  | some h => h + 1

/-- Order of bursts by their first grant's stage, then handle (R150). -/
def Grant.rank (x : Grant) : Nat :=
  match x.handle with
  | none => x.term
  | some h => x.kind * 65536 + h

/-- Content of a burst: header and trailer, PLOAMu, sizes and reports (Table 5-7). -/
def contentOf (gs : List Grant) : Nat :=
  8 + (if gs.any Grant.ploamu then 48 else 0) + sumBy gs fun x => x.size + if x.report then 4 else 0

/-- A terminal's grants in burst order. -/
def burstOf (gs : List Grant) (h : Nat) : List Grant := sortBy Grant.order (gs.filter fun x => x.term == h)

/-- Air length of a burst with its extra guard. -/
def PlanCtx.air (x : PlanCtx) (h : Nat) (gs : List Grant) : Nat :=
  airOf x.cc x.pc (x.prof h).2 (contentOf gs) + 2 * x.guard h

/-- Terminals that hold a burst. -/
def burstTerms (gs : List Grant) : List Nat := distinct (gs.map Grant.term)

/-- Air that the bursts take. -/
def PlanCtx.used (x : PlanCtx) (gs : List Grant) : Nat := sumBy (burstTerms gs) fun h => x.air h (burstOf gs h)

/-- The budget S of a stage that would add grants to bursts (R149). `reps` names for each terminal the reports added. -/
def PlanCtx.budget (x : PlanCtx) (total : Nat) (gs adds : List Grant) : Nat :=
  let q0 := qOf x.cc (profileOr0 x.objs x.g 0)
  let k := parityK x.cc
  let fixed := sumBy (burstTerms adds) fun h =>
    let p := (x.prof h).2
    let ovh := if gs.any fun y => y.term == h then 0 else ovhOf x.pc p + 2 * x.guard h
    let reps := (adds.filter fun y => y.term == h && y.report).length
    ovh + 8 + 4 * reps + qOf x.cc p
  floor4 ((total - x.used gs - fixed) * k / (k + q0))

/-- First element at or after the rotation pointer, by handle. -/
def fromPointer (ptr : Nat) (l : List (Nat × Nat × Nat)) : List (Nat × Nat × Nat) :=
  (l.filter fun x => decide (ptr ≤ x.1)) ++ l.filter fun x => decide (x.1 < ptr)

/-- Water-filling (R149) over handle, weight and capped demand: the size that each gets. -/
def waterFill (ptr : Nat) : Nat → Nat → List (Nat × Nat × Nat) → List (Nat × Nat)
  | 0, _, _ => []
  | fuel + 1, s, l =>
    let w := sumBy l fun x => x.2.1
    let leave := l.filter fun x => decide (x.2.2 * w ≤ s * x.2.1)
    if l.isEmpty then []
    else if leave.isEmpty then
      let sizes := l.map fun x => (x.1, floor4 (s * x.2.1 / w))
      let rest := s - sumBy sizes Prod.snd
      let first := ((fromPointer ptr l).headD (0, 0, 0)).1
      sizes.map fun y => if y.1 = first then (y.1, min (y.2 + rest) (((l.find? fun x => x.1 == y.1).map fun x => x.2.2).getD 0)) else y
    else
      leave.map (fun x => (x.1, x.2.2))
      ++ waterFill ptr fuel (s - sumBy leave fun x => x.2.2) (l.filter fun x => !(leave.any fun y => y.1 == x.1))

/-- Serves wants whole in order until the budget ends, and cuts the last one to fit (R148). -/
def serve : Nat → List (Nat × Nat) → List (Nat × Nat)
  | _, [] => []
  | s, (h, v) :: t => (h, floor4 (min v s)) :: serve (s - min v s) t

/-! ### Stages (R147) -/

/-- The default grant of a terminal (R131, R132). -/
def PlanCtx.defaultGrant (x : PlanCtx) (h : Nat) (t : Term) : List Grant :=
  let due := fun k => decide (t.lastPloamu + k ≤ x.n)
  let base : Grant := { handle := none, term := h, allocId := t.onu, kind := 4, size := 0, ploamu := true }
  if t.state = 3 then [base]
  else if t.state = 4 then
    let waiting := min (roundUp t.mgmtBacklog 4) 2048
    if t.needPloamu ∨ due x.pc.keepInt then [{ base with size := waiting, report := decide (waiting ≠ 0) }]
    else if waiting ≠ 0 then [{ base with size := waiting, report := true, ploamu := false }] else []
  else if t.state = 5 ∧ due 8 then [{ base with kind := 7, size := x.pc.minGrant }]
  else []

/-- Allocations of the channel that the stages may serve: the terminal is OPERATING, and no delete waits. -/
def PlanCtx.served (x : PlanCtx) (allocs : List (Nat × Alloc)) : List (Nat × Alloc) :=
  allocs.filter fun a => !a.2.deleting && match x.term? a.2.term with
    | some t => t.state == 4
    | none => false

/-- The grant that gives an allocation a size. -/
def PlanCtx.grantOf (x : PlanCtx) (h : Nat) (a : Alloc) (kind size : Nat) : Grant :=
  { handle := some h, term := a.term, allocId := a.allocId, kind, size, assured := if kind = 1 then size else 0, report := bit a.flags.toNat 0
    pre := decide (a.preGrant x.pc x.n ≠ 0), fore := decide (a.forecast x.n ≠ 0) }

/-- Changes an allocation's grant, or adds one. -/
def addGrant (gs : List Grant) (y : Grant) : List Grant :=
  if gs.any fun z => z.handle == y.handle then
    gs.map fun z => if z.handle == y.handle then { z with size := z.size + y.size, assured := z.assured + y.assured } else z
  else gs ++ [y]

/-- Adds what a stage has sized. -/
def PlanCtx.addSizes (x : PlanCtx) (kind : Nat) (allocs : List (Nat × Alloc)) (sizes : List (Nat × Nat)) (gs : List Grant) : List Grant :=
  sizes.foldl (fun gs v =>
    match List.find? (fun a : Nat × Alloc => a.1 == v.1) allocs with
    | some a => if v.2 = 0 then gs else addGrant gs (x.grantOf a.1 a.2 kind v.2)
    | none => gs) gs

/-- The Assured stage (R148). -/
def PlanCtx.assured (x : PlanCtx) (total ptr : Nat) (allocs : List (Nat × Alloc)) (gs : List Grant) : List Grant :=
  let wants := (allocs.filter fun a => a.2.cls == 1).filterMap fun a =>
    let v := floor4 (a.2.cap (min (a.2.demand x.pc x.n) (a.2.credit / 64)))
    if v = 0 then none else some (a, v)
  let s := x.budget total gs (wants.map fun w => x.grantOf w.1.1 w.1.2 1 0)
  let l := wants.map fun w => (w.1.1, w.2)
  let l := if sumBy l Prod.snd ≤ s then l
    else serve s ((fromPointer ptr (l.map fun y => (y.1, 0, y.2))).map fun y => (y.1, y.2.2))
  x.addSizes 1 allocs l gs

/-- Weight and capped demand of an allocation in a fill stage: what is left of its demand, of its PRATE bucket and of
MAXGRANT (R148, R149). -/
def PlanCtx.fillWant (x : PlanCtx) (gs : List Grant) (shared : Bool) (h : Nat) (a : Alloc) : Option (Nat × Nat × Nat) :=
  let given := sumBy (gs.filter fun y => y.handle == some h) Grant.size
  let demand := a.demand x.pc x.n
  let enters := if shared then a.cls == 2 || (a.cls == 1 && (a.prate == 0 || decide (a.arate < a.prate))) else a.cls == 3
  let left := if a.cls = 1 then demand - a.credit / 64 else demand
  let byRate := if a.prate = 0 then roundUp left 4 else min (roundUp left 4) (floor4 (a.bucket / 64 - given))
  let v := if a.maxGrant = 0 then byRate else min byRate (a.maxGrant - given)
  if enters ∧ v ≠ 0 then some (h, if shared then a.weight else 1, v) else none

/-- A fill stage (R149). -/
def PlanCtx.fillStage (x : PlanCtx) (shared : Bool) (total ptr : Nat) (allocs : List (Nat × Alloc)) (gs : List Grant) : List Grant :=
  let l := allocs.filterMap fun a => x.fillWant gs shared a.1 a.2
  let kind := if shared then 2 else 3
  let adds := allocs.filterMap fun a =>
    if l.any fun y => y.1 == a.1 then
      let y := x.grantOf a.1 a.2 kind 0
      some (if gs.any fun z => z.handle == some a.1 then { y with report := false } else y)
    else none
  x.addSizes kind allocs (waterFill ptr (l.length + 1) (x.budget total gs adds) l) gs

/-- Removes grants beyond the limit of a plan (R127, 06 R169) in reverse order of the stages, the highest handle first. -/
def limitGrants (room : Nat) (gs : List Grant) : List Grant × Nat :=
  let sorted := sortBy Grant.rank gs
  (sorted.take room, sorted.length - room)

/-! ### Placement (R150) -/

/-- Free gaps of the receive frame: start and length, between occupied intervals in order. -/
def gapsOf (u : Nat) (occupied : List (Nat × Nat)) : List (Nat × Nat) :=
  let r := (sortBy Prod.fst occupied).foldl (fun (r : List (Nat × Nat) × Nat) o =>
    (if r.2 < min o.1 u then r.1 ++ [(r.2, min o.1 u - r.2)] else r.1, max r.2 (o.1 + o.2))) ([], 0)
  if r.2 < u then r.1 ++ [(r.2, u - r.2)] else r.1

/-- Largest content whose air length fits `room` bytes after the overhead. -/
def contentFits (q k room : Nat) : Nat := room / (k + q) * k + (room % (k + q) - q)

/-- Takes `len` bytes at the start of the gap at `s` (from its first multiple of 4 on). -/
def takeGap (gaps : List (Nat × Nat)) (s len : Nat) : List (Nat × Nat) :=
  gaps.flatMap fun x =>
    if x.1 = s then
      let at' := roundUp s 4
      (if at' = s then [] else [(s, at' - s)]) ++ if at' + len < x.1 + x.2 then [(at' + len, x.1 + x.2 - at' - len)] else []
    else [x]

/-- A burst cut to fit the largest gap, or none where its last grant would be below MINGRANT. -/
def PlanCtx.cut (x : PlanCtx) (h : Nat) (gs : List Grant) (room : Nat) : Option (List Grant) :=
  let p := (x.prof h).2
  let content := contentFits (qOf x.cc p) (parityK x.cc) (room - 2 * x.guard h - ovhOf x.pc p)
  match gs.reverse with
  | [] => none
  | last :: before =>
    let fixed := contentOf gs - last.size
    let size := floor4 (content - fixed)
    if size < x.pc.minGrant ∨ last.size < size then none
    else some (({ last with size, assured := min last.assured size } :: before).reverse)

/-- A placed burst: its start and its grants. -/
structure Burst where
  start  : Nat
  term   : Nat
  grants : List Grant

/-- Places one burst: at the earliest gap that holds it, otherwise cut to the largest gap, otherwise it waits. -/
def PlanCtx.placeOne (x : PlanCtx) (st : List (Nat × Nat) × List Burst) (h : Nat) (gs : List Grant) : List (Nat × Nat) × List Burst :=
  let holds := fun (need : Nat) (y : Nat × Nat) => decide (roundUp y.1 4 + need ≤ y.1 + y.2)
  let put := fun (y : Nat × Nat) (gs : List Grant) =>
    (takeGap st.1 y.1 (x.air h gs), st.2 ++ [⟨roundUp y.1 4 + x.guard h, h, gs⟩])
  match st.1.find? (holds (x.air h gs)) with
  | some y => put y gs
  | none =>
    let size := maxBy st.1 fun y => y.1 + y.2 - roundUp y.1 4
    match st.1.find? fun y => y.1 + y.2 - roundUp y.1 4 == size with
    | none => st
    | some y =>
      match x.cut h gs size with
      | some gs' => put y gs'
      | none => st

/-- Places every burst (R150). -/
def PlanCtx.place (x : PlanCtx) (gaps : List (Nat × Nat)) (gs : List Grant) : List (Nat × Nat) × List Burst :=
  let bursts := (burstTerms gs).map fun h => (h, burstOf gs h)
  (sortBy (fun b : Nat × List Grant => ((b.2.head?).map Grant.rank).getD 0) bursts).foldl (fun st b => x.placeOne st b.1 b.2) (gaps, [])

/-- Flags of Table 5-11. -/
def Grant.flags (x : Grant) (first : Bool) : Byte :=
  BitVec.ofNat 8 (b2n x.report + 2 * b2n x.ploamu + 4 * b2n first + 16 * b2n x.pre + 32 * b2n x.fore)

/-- Entries of a burst: the first at the burst's start, each other at its own first byte. -/
def PlanCtx.entries (x : PlanCtx) (b : Burst) : List PlanEntry :=
  let p := x.prof b.term
  let at0 := b.start + ovhOf x.pc p.2 + 4 + if b.grants.any Grant.ploamu then 48 else 0
  (b.grants.foldl (fun (r : List PlanEntry × Nat) y =>
    let first := r.1.isEmpty
    (r.1 ++ [{ allocId := y.allocId, term := b.term, start := if first then b.start else r.2, size := y.size
               kind := y.kind, profile := p.1, flags := y.flags first }],
     r.2 + y.size + if y.report then 4 else 0)) ([], at0)).1

/-! ### Lantern bursts and windows (R136, R142 to R145) -/

/-- A Lantern burst of a frame: its allocation, nominal offset, profile, air length at that profile. -/
structure LBurst where
  alloc : LAlloc
  nominal : Nat
  profile : Nat
  air   : Nat
  guard : Nat

/-- Lantern bursts that a frame grants, in nominal order: OPERATING and LOST terminals (R132). -/
def PlanCtx.lanterns (x : PlanCtx) (n : Nat) : List LBurst :=
  (frameBursts x.placed n).filterMap fun p =>
    match x.term? p.alloc.term with
    | some t =>
      if t.state = 4 ∨ t.state = 5 then
        let q := x.prof p.alloc.term
        some { alloc := p.alloc, nominal := p.offset, profile := q.1, air := airOf x.cc x.pc q.2 (8 + p.alloc.b)
               guard := min (x.guard p.alloc.term) x.cc.win }
      else none
    | none => none

/-- The window that holds an absolute position. -/
def windowAt (ws : List Window) (p : Nat) : Option Window := ws.find? fun w => decide (w.first ≤ p) && decide (p < w.first + w.len)

/-- Absolute positions of Lantern bursts in nominal order, moved out of windows and behind moved bursts (R144). -/
def displace (base : Nat) (ws : List Window) : Nat → List LBurst → List (LBurst × Nat)
  | _, [] => []
  | prev, b :: t =>
    let nom := base + b.nominal
    let p := match windowAt ws nom with
      | some w => max (max nom (roundUp (w.first + w.len) 4)) prev
      | none => max nom prev
    let p := roundUp p 4
    (b, if p = roundUp nom 4 then nom else p) :: displace base ws (p + b.air) t

/-- End of the last displaced burst; 0 when none is. -/
def displacedEnd (base : Nat) (l : List (LBurst × Nat)) : Nat :=
  match (l.filter fun x => x.2 != base + x.1.nominal).getLast? with
  | some x => x.2 + x.1.air
  | none => 0

/-- The earliest point from `p` on, in steps of 4, that lies in no interval of the list; `fuel` bounds the jumps. -/
def clearPoint (busy : List (Nat × Nat)) : Nat → Nat → Nat
  | 0, p => p
  | fuel + 1, p =>
    match busy.find? fun b => decide (b.1 ≤ p) && decide (p < b.1 + b.2) with
    | some b => clearPoint busy fuel (p + roundUp (b.1 + b.2 - p) 4)
    | none => p

/-- Intervals stretched to the left by a length: a start outside them keeps an interval of that length clear of each. -/
def stretch (len : Nat) (l : List (Nat × Nat)) : List (Nat × Nat) :=
  l.map fun b => (b.1 - (len - 1), b.2 + min b.1 (len - 1))

/-- Whole bytes that W_rng touches, and that the discovery window of W touches which starts Δ before a byte. -/
def PlanCtx.windowLen (x : PlanCtx) (ranging : Bool) : Nat :=
  if ranging then axisBytes x.cc (10 * windowRng x.objs x.g)
  else discDelta x.objs x.g + axisBytes x.cc (10 * windowW x.objs x.g - discDelta10 x.objs x.g)

/-- The next frame whose plan carries a discovery grant, after the last one that was granted (R142). -/
def PlanCtx.nextDisc (x : PlanCtx) (last period : Nat) : Nat :=
  let m := max (last + 1) x.n
  m + (x.g % period + period - m % period) % period

/-- Reserves at most one new window that starts in the frame being built (R142 to R144). -/
def PlanCtx.reserve (x : PlanCtx) (c : Chan) : Chan :=
  let u := x.u
  let base := x.n * u
  let dc := discCfg x.objs x.g
  let ws := c.windows
  let here := x.lanterns x.n
  let blocked := decide (base < c.displacedTo) || (displace base ws c.displacedTo here).any (fun p => p.2 != base + p.1.nominal)
    || ws.any fun w => w.first / u == x.n
  let delta := discDelta x.objs x.g
  let due := x.nextDisc ((ws.filter fun w => w.kind == 5).foldl (fun m w => max m w.grantFrame) 0) dc.dperiod
  let dueNow := dc.on && decide (due * u < base + u + delta)
  let busyL := here.map fun b => (base + b.nominal, b.air)
  let busyW := fun len => stretch len (ws.map fun w => (w.first, w.len))
  let fuel := here.length + ws.length + 1
  let len := x.windowLen false
  let q := clearPoint (busyL ++ busyW len) fuel (max (if dueNow then due * u - delta else 0) (roundUp (base + delta) 4 - delta))
  let wants := dc.on && (dueNow || c.discDue)
  if wants ∧ !blocked ∧ q < base + u then
    { c with discDue := false
             windows := ws ++ [{ first := q, len, kind := 5, term := 0xFFFF, grantFrame := (q + delta) / u, grantStart := (q + delta) % u }] }
  else
    let c := { c with discDue := wants }
    match c.ranging with
    | [] => c
    | (h, rtd) :: rest =>
      if !dc.on then c else
      let len := x.windowLen true
      let near := [0, 1, 2].flatMap fun i => (x.lanterns (x.n + i)).map fun b => (base + i * u + b.nominal, b.air)
      let p1 := clearPoint (stretch len near ++ busyW len) (near.length + ws.length + 1) base
      let p := if p1 < base + u then p1 else clearPoint (busyL ++ busyW len) fuel base
      let spent := sumBy (ws.filter fun w => w.kind == 6 && decide (x.n < w.first / u + dc.dperiod)) Window.len
      if blocked ∨ base + u ≤ p ∨ x.windowLen false < spent + len then c
      else
        let s := p + rangeLead x.objs x.g rtd
        { c with ranging := rest
                 windows := ws ++ [{ first := p, len, kind := 6, term := h, grantFrame := s / u, grantStart := s % u }] }

/-- Entries that open windows in this plan (R142, R143). A ranging whose terminal has gone opens none. -/
def PlanCtx.windowEntries (x : PlanCtx) (d : Dev) (ws : List Window) : List PlanEntry :=
  (ws.filter fun w => w.grantFrame == x.n && !w.sent).filterMap fun w =>
    if w.kind = 5 then some { allocId := Config.broadcastAllocId, term := 0xFFFF, start := w.grantStart, size := 0, kind := 5, profile := 0, flags := 6#8 }
    else
      match x.term? w.term with
      | some t =>
        if t.state = 2 ∨ (d.rerange? w.term).isSome then
          some { allocId := t.onu, term := w.term, start := w.grantStart, size := 0, kind := 6, profile := 0, flags := 6#8 }
        else none
      | none => none

/-- An interval of absolute positions with a guard on either side, as it falls into the frame; none outside it. -/
def PlanCtx.inFrame (x : PlanCtx) (first len guard : Nat) : List (Nat × Nat) :=
  let base := x.n * x.u
  let lo := max base (first - guard)
  let hi := first + len + guard
  if lo < hi then [(lo - base, hi - lo)] else []

/-- Parts of a window list that fall into the frame. -/
def PlanCtx.windowBusy (x : PlanCtx) (ws : List Window) : List (Nat × Nat) :=
  ws.flatMap fun w => x.inFrame w.first w.len 0

/-- Displaced Lantern bursts of the last plans that reach into the frame, with their extra guard (R145). -/
def PlanCtx.carried (x : PlanCtx) (ps : List Plan) : List (Nat × Nat) :=
  (ps.filter fun p => decide (p.frame < x.n)).flatMap fun p =>
    (p.entries.filter fun e => e.kind == 0 && e.flags.getLsbD 3).flatMap fun e =>
      x.inFrame (p.frame * x.u + e.start) (airOf x.cc x.pc (p.prof e.profile) (8 + e.size)) (min (x.guard e.term) x.cc.win)

/-! ### Building a plan (R147) -/

/-- What a build decides. -/
structure Built where
  chan    : Chan
  plan    : Plan
  bursts  : List Burst
  removed : Nat

/-- Builds the plan for a frame of a channel. -/
def PlanCtx.build (x : PlanCtx) (d : Dev) (c : Chan) (allocs : List (Nat × Alloc)) : Built :=
  let u := x.u
  let base := x.n * u
  let c := { c with windows := c.windows.filter fun w => decide (x.n ≤ w.first / u + max (discCfg x.objs x.g).dperiod 16) }
  let c := x.reserve c
  let lans := displace base c.windows c.displacedTo (x.lanterns x.n)
  let moved := lans.filter fun p => p.2 != base + p.1.nominal
  let lanEntries : List PlanEntry := lans.map fun p =>
    { allocId := p.1.alloc.allocId, term := p.1.alloc.term, start := p.2 - base, size := p.1.alloc.b, kind := 0, profile := p.1.profile
      flags := if p.2 = base + p.1.nominal then 4#8 else 12#8 }
  let opens := x.windowEntries d c.windows
  let occupied := lans.flatMap (fun p => x.inFrame p.2 p.1.air p.1.guard) ++ x.windowBusy c.windows ++ x.carried (c.plans.take 4)
  let least := ((profiles x.objs x.g).map fun p => airOf x.cc x.pc p.2 8).foldl min u
  let gaps := (gapsOf u occupied).filter fun y => decide (least ≤ y.2)
  let total := sumBy gaps Prod.snd
  let serve := x.served allocs
  let gs := x.terms.flatMap fun t => x.defaultGrant t.1 t.2
  let gs := x.assured total c.pointer serve gs
  let gs := x.fillStage true total c.pointer serve gs
  let gs := x.fillStage false total c.pointer serve gs
  let (gs, removed) := limitGrants (d.gMax x.objs x.g - lanEntries.length - opens.length) gs
  let (gaps, bursts) := x.place gaps gs
  let entries := sortBy PlanEntry.start (opens ++ lanEntries ++ bursts.flatMap x.entries)
  let handles := allocs.map Prod.fst
  { chan := { c with
      windows := c.windows.map fun w =>
        if w.grantFrame = x.n then { w with sent := true, regChk := (x.term? w.term).any Term.regChk } else w
      displacedTo := max (displacedEnd base lans) (if base + u < c.displacedTo then c.displacedTo else 0)
      pointer := ((handles.find? fun h => decide (c.pointer < h)).getD (handles.headD 0)) }
    plan := { frame := x.n, entries, idle := sumBy gaps Prod.snd, displaced := moved.length, profs := profiles x.objs x.g }
    bursts, removed }

/-- An allocation after its plan: the Assured grant leaves the credit (R148), all that was granted leaves the bucket and is
outstanding. -/
def Alloc.granted (a : Alloc) (n size assured : Nat) : Alloc :=
  if size = 0 then a
  else { a with
    credit := a.credit - 64 * assured, bucket := a.bucket - 64 * size, lastPlan := n
    grants := a.grants ++ [(n, size)] }

/-- A terminal after a build. -/
def Term.afterBuild (t : Term) (n : Nat) (own : List Grant) : Term :=
  { t with
    lastPloamu := if own.any Grant.ploamu then n else t.lastPloamu
    needPloamu := t.needPloamu && !own.any Grant.ploamu
    mgmtBacklog := t.mgmtBacklog - sumBy (own.filter fun y => y.handle.isNone) Grant.size
    guardFrames := t.guardFrames - 1 }

/-- The last receive frame of a channel that has wholly passed at the instant of a frame. -/
def lastReceived (objs : List VObj) (g cur : Nat) : Nat := cur - 1 - cdiv (teqNs objs g) frameNs

/-- Builds the plan for frame `n` of a channel and books it (R125, R147); a channel that is not planned gets none. -/
def Dev.buildPlan (d : Dev) (g n : Nat) : Dev :=
  let x := d.planCtx g n
  if !d.planned x.objs g then
    d.setChan g fun c => { c with windows := [], displacedTo := 0, discDue := false,
                                  plans := ({ frame := n, entries := [], idle := 0, displaced := 0 } :: c.plans).take 18 }
  else
    let rx := lastReceived d.objs g (n - 2)
    let on := fun (a : Alloc) => d.termChan? a.term == some g
    let d := { d with allocs := d.allocs.mapAll fun _ (a : Alloc) => if on a then (a.judge rx).rise n else a }
    let b := x.build d (d.chan g) (d.chanAllocs g)
    let gs := b.bursts.flatMap Burst.grants
    let d := d.setChan g fun _ => { b.chan with plans := (b.plan :: b.chan.plans).take 18 }
    let d := { d with
      allocs := d.allocs.mapAll fun h (a : Alloc) =>
        let own := gs.filter fun y => y.handle == some h
        if on a then a.granted n (sumBy own Grant.size) (sumBy own Grant.assured) else a
      terms := d.terms.mapAll fun h (t : Term) => if t.chan = g then t.afterBuild n (gs.filter fun y => y.term == h) else t }
    if b.removed = 0 then d else d.countBy (ctrChan g 7) b.removed

/-- Builds the plans for a frame of every channel that its version turns on, and of those with a plan (R125). -/
def Dev.buildPlans (d : Dev) (n : Nat) : Dev :=
  let objs := d.objsFor n
  let gs := (List.range 192).filter fun g => (chanCfg objs g).mode != 0 || !(d.chan g).plans.isEmpty
  gs.foldl (fun d g => d.buildPlan g n) d

/-- A kept plan of a channel. -/
def Chan.plan? (c : Chan) (n : Nat) : Option Plan := c.plans.find? fun p => p.frame == n

/-! ### PLANNER_SET, LANTERN_ALLOC_SET (R128, R130) -/

/-- `PLANNER_SET`. -/
def cmdPlannerSet : CmdDef :=
  versionedCmd 0x0501 false (fun p => slice p 0 2) noRemoval (fun _ => true) fun p =>
    decide (ent p 16 2 ≤ 191) && decide (ent p 18 1 ≤ 60) && decide (ent p 19 1 ≤ 48)
    && (ent p 20 2 == 0 || (within (ent p 20 2) 64 4096 && aligned (ent p 20 2) 8)) && decide (ent p 22 1 ≤ 2)
    && decide (ent p 23 1 ≤ 1) && (ent p 24 4 == 0 || (within (ent p 24 4) 16 4096 && aligned (ent p 24 4) 4))
    && decide (ent p 28 1 ≤ 64) && zeros 16 p [(29, 63)]

/-- The command `PLANNER_SET`. -/
def execPlannerSet (p : Packet) (s : State) : Host.Outcome State Fault Refusal := command cmdPlannerSet p s

/-- `LANTERN_ALLOC_SET`; FLAGS bit 0 removes the allocation. -/
def cmdLanternAllocSet : CmdDef :=
  { versionedCmd 0x0502 false (fun p => slice p 0 2) (fun p => bit (ent p 32 1) 0)
      (fun p => decide (ent p 32 1 ≤ 1) && zeros 16 p [(33, 63)]) fun p =>
        decide (ent p 18 2 ≤ 24575) && within (ent p 20 2) 1024 16383 && within (ent p 22 1) 1 16
        && decide (ent p 23 1 < ent p 22 1) && within (ent p 24 4) 16 32768 && aligned (ent p 24 4) 4
        && (ent p 28 4 == 0xFFFFFFFF || aligned (ent p 28 4) 4) && decide (ent p 32 1 ≤ 1) && zeros 16 p [(33, 63)] with
    names := fun _ p => [.terminal (ent p 18 2)]
    forbid := fun d e => if (d.alloc? (ent e.par 16 2)).isSome then some (.conflict, []) else none }

/-- The command `LANTERN_ALLOC_SET`. -/
def execLanternAllocSet (p : Packet) (s : State) : Host.Outcome State Fault Refusal := command cmdLanternAllocSet p s

/-! ### Per-entry allocations (R129, R155) -/

/-- The terminal of the allocation that a handle holds, per-entry or Lantern. -/
def Dev.allocTerm? (d : Dev) (h : Nat) : Option Nat :=
  match d.alloc? h with
  | some a => some a.term
  | none => (lalloc? d.objs h).map LAlloc.term

/-- Step 4 for an allocation's handle at entry byte 16. -/
def ownsAlloc16 (d : Dev) (dom : Nat) (p : Bytes) : Bool :=
  match d.allocTerm? (ent p 16 2) with
  | some t => d.termOwner t == dom
  | none => false

/-- Step 4 of `ALLOC_SET`: the terminal named, and that of an allocation that the handle holds. -/
def ownsAllocSet (d : Dev) (dom : Nat) (p : Bytes) : Bool :=
  d.termOwner (ent p 18 2) == dom && match d.allocTerm? (ent p 16 2) with
    | some t => d.termOwner t == dom
    | none => true

/-- The allocation that `ALLOC_SET` writes. -/
def allocOf (base : Alloc) (p : Bytes) : Alloc :=
  let same := base.cls == ent p 22 1
  let arate := ent p 24 4
  let a := { base with
    term := ent p 18 2, allocId := ent p 20 2, cls := ent p 22 1, flags := BitVec.ofNat 8 (ent p 23 1), arate
    prate := ent p 28 4, weight := orZero (ent p 32 1) 1, maxGrant := ent p 36 4, repCap := orZero (ent p 40 4) 16777216 }
  { a with credit := if same then min a.credit (8 * arate) else 0
           bucket := if same then min a.bucket (2 * a.prate) else 0 }

/-- A new allocation before its fields are written: F starts at MINGRANT (R138). -/
def freshAlloc (minGrant : Nat) : Alloc :=
  { term := 0, allocId := 0, cls := 0, flags := 0#8, arate := 0, prate := 0, weight := 1, maxGrant := 0, repCap := 0, fill := minGrant }

/-- The allocations after `ALLOC_SET`; a handle given to another terminal starts anew. -/
def Dev.allocsAfter (d : Dev) (p : Bytes) : Tbl Alloc :=
  let t := ent p 18 2
  let fresh := freshAlloc (planCfg d.objs ((d.termChan? t).getD 0)).minGrant
  let base := match d.alloc? (ent p 16 2) with
    | some a => if a.term = t then a else fresh
    | none => fresh
  d.allocs.put (ent p 16 2) (allocOf base p)

/-- Step 6 of `ALLOC_SET` (R129, R155). -/
def allocSetForbid (d : Dev) (e : Exec) : Option (Status × List Nat) :=
  let p := e.par
  let h := ent p 16 2
  match d.termChan? (ent p 18 2) with
  | none => some (.conflict, [])
  | some g =>
    let lan := d.chanLallocs d.objs g
    let own := d.chanAllocs g
    let id := ent p 20 2
    let others := own.filter fun a => a.1 != h
    if (d.alloc? h).any Alloc.deleting ∨ others.any (fun a => a.2.allocId == id && a.2.deleting) then some (.busy, [])
    else if (lalloc? d.objs h).isSome ∨ (lalloc? d.vers.openObjs h).isSome then some (.conflict, [])
    else if others.any (fun a => a.2.allocId == id) ∨ lan.any (fun a => a.allocId == id) then some (.conflict, [])
    else if 1024 ≤ others.length + lan.length
        ∨ 64 ≤ (others.filter fun a => a.2.term == ent p 18 2).length + (lan.filter fun a => a.term == ent p 18 2).length then
      some (.noRoom, [])
    else if ent p 22 1 = 1 ∧ !d.assuredFits d.objs g (({ d with allocs := d.allocsAfter p } : Dev).chanAllocs g) then some (.noRoom, [])
    else none

/-- `ALLOC_SET`. -/
def cmdAllocSet : CmdDef where
  op := 0x0503
  kind := fun _ _ _ => .perEntry
  tenant := some ownsAllocSet
  guarded := true
  names := fun _ p => [.terminal (ent p 18 2)]
  form := fun p =>
    decide (ent p 18 2 ≤ 24575) && within (ent p 20 2) 1024 16383 && within (ent p 22 1) 1 3 && decide (ent p 23 1 ≤ 7)
    && (ent p 22 1 == 1 || ent p 24 4 == 0) && (ent p 28 4 == 0 || decide (ent p 24 4 ≤ ent p 28 4))
    && aligned (ent p 36 4) 4 && zeros 16 p [(33, 35), (44, 63)]
  forbid := allocSetForbid
  run := fun e d => { d with allocs := d.allocsAfter e.par }.ok e

/-- The command `ALLOC_SET`. -/
def execAllocSet (p : Packet) (s : State) : Host.Outcome State Fault Refusal := command cmdAllocSet p s

/-- `CONFLICT` unless the handle at entry byte 16 holds a per-entry allocation that no delete removes. -/
def needAlloc (d : Dev) (e : Exec) (f : Alloc → Option (Status × List Nat)) : Option (Status × List Nat) :=
  match d.alloc? (ent e.par 16 2) with
  | some a => if a.deleting then some (.conflict, []) else f a
  | none => some (.conflict, [])

/-- The instant after which every burst of a receive frame has been received or found missing. -/
def Dev.rxFrameEnd (d : Dev) (g n : Nat) : Nat := (n + 1) * frameNs + teqNs d.objs g

/-- Nothing planned for the allocation is still to come. -/
def Dev.allocQuiet (d : Dev) (a : Alloc) : Bool :=
  a.lastPlan == 0 || decide (d.rxFrameEnd ((d.termChan? a.term).getD 0) a.lastPlan ≤ d.now)

/-- `ALLOC_DELETE`: replies when the last planned burst has been received or found missing. -/
def cmdAllocDelete : CmdDef where
  op := 0x0504
  kind := fun _ _ _ => .perEntry
  tenant := some ownsAlloc16
  form := fun p => zeros 16 p [(18, 63)]
  forbid := fun d e => needAlloc d e fun _ => none
  run := fun e d => (d.setAlloc (ent e.par 16 2) fun a => { a with deleting := true, forecasts := [] }).park e

/-- The command `ALLOC_DELETE`. -/
def execAllocDelete (p : Packet) (s : State) : Host.Outcome State Fault Refusal := command cmdAllocDelete p s

/-- The event ALLOC_DELETE_COMPLETE: the last planned burst has been received or found missing. -/
def allocDeleteComplete (h : Nat) (d : Dev) : Dev :=
  match d.alloc? h with
  | none => d
  | some a =>
    if !a.deleting ∨ !d.allocQuiet a then d
    else
      let d := { d with allocs := d.allocs.del h }
      match d.execs.find? fun e => e.op == 0x0504 && e.started && e.armed.isNone && ent e.par 16 2 == h with
      | some e => d.ok e
      | none => d

/-- See `allocDeleteComplete`. -/
def execAllocDeleteComplete (handle : Nat) (s : State) : Host.Outcome State Fault Refusal := live (allocDeleteComplete handle) s

/-! ### PLANNER_FORECAST, ALLOC_STATUS, PLAN_READ (R141, R153, R154) -/

/-- Signed difference of a 32-bit frame number from the current frame. -/
def Dev.frameDiff (d : Dev) (f : Nat) : Int := sdiff 32 f d.time.frame

/-- Forecasts whose last frame's build has not started. -/
def Dev.openForecasts (d : Dev) (a : Alloc) : Nat :=
  (a.forecasts.filter fun f => decide (d.time.frame + 2 < f.1 + (f.2.1 - 1) * f.2.2.1)).length

/-- `PLANNER_FORECAST`. FLAGS bit 0 clears the allocation's forecasts and adds none. It is taken as a removal of 00 R433, which ignores
the other fields: a 0 in REPEAT, INTERVAL or BYTES is then no BAD_PARAM (DESIGN CHOICE, log entry 161: R432 and R433 leave it open). -/
def cmdPlannerForecast : CmdDef where
  op := 0x0505
  tenant := some ownsAlloc16
  form := fun p =>
    decide (ent p 28 1 ≤ 1) && zeros 16 p [(29, 63)]
    && (bit (ent p 28 1) 0 || (within (ent p 18 1) 1 64 && within (ent p 19 1) 1 64 && within (ent p 24 4) 4 1048576))
  bad := fun d e => if !bit (ent e.par 28 1) 0 ∧ 16000 < d.frameDiff (ent e.par 20 4) then some [] else none
  forbid := fun d e => needAlloc d e fun a =>
    if bit (ent e.par 28 1) 0 then none
    else if d.frameDiff (ent e.par 20 4) < 3 then some (.late, [])
    else if 8 ≤ d.openForecasts a then some (.noRoom, [])
    else none
  run := fun e d =>
    let p := e.par
    let first := ((d.time.frame : Int) + d.frameDiff (ent p 20 4)).toNat
    (d.setAlloc (ent p 16 2) fun a =>
      { a with forecasts := if bit (ent p 28 1) 0 then []
                            else a.forecasts ++ [(first, ent p 18 1, ent p 19 1, roundUp (ent p 24 4) 4)] }).ok e

/-- The command `PLANNER_FORECAST`. -/
def execPlannerForecast (p : Packet) (s : State) : Host.Outcome State Fault Refusal := command cmdPlannerForecast p s

/-- Detector state: 3 reports distrusted, 2 locked, 1 learning, 0 off (R154, R156). -/
def Alloc.detector (a : Alloc) (pc : PlanCfg) : Nat :=
  if bit a.flags.toNat 0 ∧ 8 ≤ a.distrust then 3 else if !a.detecting pc then 0 else if a.period ≠ 0 then 2 else 1

/-- Bytes that the last plan built grants an Alloc-ID of a terminal. -/
def Dev.lastGranted (d : Dev) (g term id : Nat) : Nat :=
  match (d.chan g).plans with
  | p :: _ => sumBy (p.entries.filter fun e => e.allocId == id && e.term == term) PlanEntry.size
  | [] => 0

/-- `ALLOC_STATUS`. -/
def cmdAllocStatus : CmdDef where
  op := 0x0506
  tenant := some ownsAlloc16
  read := true
  form := fun p => zeros 16 p [(18, 63)]
  forbid := fun d e => if (d.allocTerm? (ent e.par 16 2)).isNone then some (.conflict, []) else none
  run := fun e d =>
    let h := ent e.par 16 2
    match d.alloc? h with
    | some a =>
      let g := (d.termChan? a.term).getD 0
      let pc := planCfg d.objs g
      d.finish e .done [a.cls * 2 ^ 24 + a.detector pc * 65536 + (if a.detecting pc then a.period else 0) * 256, sat 32 a.report,
                        d.lastGranted g a.term a.allocId, a.credit / 64]
    | none =>
      match lalloc? d.objs h with
      | some a => d.finish e .done [0, 0, d.lastGranted ((d.termChan? a.term).getD 0) a.term a.allocId, 0]
      | none => d.finish e .conflict []

/-- The command `ALLOC_STATUS`. -/
def execAllocStatus (p : Packet) (s : State) : Host.Outcome State Fault Refusal := command cmdAllocStatus p s

/-- The 16 bytes of a plan entry (Table 5-11). -/
def planEntryBytes (e : PlanEntry) : Bytes :=
  beBytes 2 e.allocId ++ beBytes 2 e.term ++ beBytes 4 e.start ++ beBytes 4 e.size ++ beBytes 1 e.kind ++ beBytes 1 e.profile
  ++ [e.flags, 0#8]

/-- `PLAN_READ`; a frame in range without a plan gives no entries. -/
def cmdPlanRead : CmdDef where
  op := 0x0507
  read := true
  names := fun _ p => [.channel (ent p 16 2)]
  form := fun p => decide (ent p 16 2 ≤ 191) && aligned (ent p 24 8) 8 && zeros 16 p [(18, 19), (32, 63)]
  forbid := fun d e =>
    let x := d.frameDiff (ent e.par 20 4)
    if x < -13 ∨ 1 < x then some (.conflict, []) else none
  run := fun e d =>
    let p := e.par
    let n := ((d.time.frame : Int) + d.frameDiff (ent p 20 4)).toNat
    let q := ((d.chan (ent p 16 2)).plan? n).getD { frame := n, entries := [], idle := 0, displaced := 0 }
    (d.hostWrite (ent p 24 8) (q.entries.flatMap planEntryBytes ++ List.replicate 16 0#8)).finish e .done
      [q.entries.length, sumBy q.entries PlanEntry.size, q.idle, q.displaced]

/-- The command `PLAN_READ`. -/
def execPlanRead (p : Packet) (s : State) : Host.Outcome State Fault Refusal := command cmdPlanRead p s

end Sys2Proof.Machine
end

