-- ==== Sys2Proof/Machine/Lantern.lean ====
section
/-!
DEFINITION. The Lantern flow commands (06 R163, R171).
-/
namespace Sys2Proof.Machine

/-- `LANTERN_FLOW_SET`; FLAGS bit 0 removes the binding. SMAX is held against the MAXFRAME that the open version gives the
flow's channel, where the flow has one. -/
def cmdLanternFlowSet : CmdDef :=
  { versionedCmd 0x0508 false (fun p => slice p 0 2) (fun p => bit (ent p 32 1) 0)
      (fun p => decide (ent p 32 1 ≤ 1) && zeros 16 p [(33, 63)]) fun p =>
        (if ent p 18 2 = 0xFFFF then ent p 20 1 == 0xFF && ent p 21 1 != 0 else decide (ent p 20 1 ≤ 95))
        && decide (ent p 21 1 ≤ 64) && within (ent p 22 2) 64 16000 && decide (ent p 32 1 ≤ 1) && zeros 16 p [(33, 63)] with
    names := fun _ p => [.flow (ent p 16 2)]
    bad := fun d e =>
      match d.flowChan? (ent e.par 16 2) with
      | some g =>
        if !bit (ent e.par 32 1) 0 ∧ (chanCfg d.vers.openObjs g).maxFrame < ent e.par 22 2 then some [] else none
      | none => none }

/-- The command `LANTERN_FLOW_SET`. -/
def execLanternFlowSet (p : Packet) (s : State) : Host.Outcome State Fault Refusal := command cmdLanternFlowSet p s

/-- The version content that `LANTERN_BOUND_READ` evaluates: the open version with OPEN 1, none when none is open. -/
def Dev.boundObjs (d : Dev) (opened : Bool) : Option (List VObj) :=
  if !opened then some d.objs else if d.vers.openNum = 0 then none else some d.vers.openObjs

/-- `LANTERN_BOUND_READ`. -/
def cmdLanternBoundRead : CmdDef where
  op := 0x0509
  tenant := some fun d dom p => d.flowOwner (ent p 16 2) == dom
  read := true
  names := namesFlow16
  form := fun p => decide (ent p 18 1 ≤ 1) && zeros 16 p [(19, 63)]
  forbid := fun d e =>
    match (d.boundObjs (bit (ent e.par 18 1) 0)).bind fun objs => lflow? objs (ent e.par 16 2) with
    | some _ => none
    | none => some (.conflict, [])
  run := fun e d =>
    match d.boundObjs (bit (ent e.par 18 1) 0) with
    | none => d.finish e .conflict []
    | some objs =>
      match lflow? objs (ent e.par 16 2) with
      | none => d.finish e .conflict []
      | some x =>
        let b := d.lanternBound objs x
        d.finish e .done [b.up.getD 0xFFFFFFFF, b.dn.getD 0xFFFFFFFF, b.k * 65536 + sat 16 b.n, b.wc]

/-- The command `LANTERN_BOUND_READ`. -/
def execLanternBoundRead (p : Packet) (s : State) : Host.Outcome State Fault Refusal := command cmdLanternBoundRead p s

end Sys2Proof.Machine
end

