-- ==== Sys2Proof/Machine/TimeBase.lean ====
section
/-!
DEFINITION. The time base (12): source and role, steps, re-bases, beacons and their pins, captures, PTP, SyncE, PPS_OUT.
-/
namespace Sys2Proof.Machine

/-- The signed reading of a 64-bit or 32-bit field of an entry. -/
def entSigned (p : Bytes) (byte len : Nat) : Int := signed (8 * len) (ent p byte len)

/-! ### State of the time base (R436) -/

/-- Ports in PTP slave state. -/
def Time.slaves (t : Time) : List Nat := (t.ptp.filter fun p => p.2.slave).map Prod.fst

/-- The state that `TIME_STATUS` reports (Table 12-2A): 0 free-run, 1 acquiring, 2 locked, 3 holdover. -/
def Time.state (t : Time) : Nat :=
  if t.role = 3 then if t.folLocked then 2 else if t.wasLocked ∧ t.source.isNone then 3 else 1
  else if t.role = 2 then
    if t.ppsLocked ∧ t.pllLocked then 2 else if t.wasLocked ∧ (t.ppsLost ∨ t.pllLost) then 3 else 1
  else if t.role = 1 ∧ !t.slaves.isEmpty then if t.ptpLocked then 2 else if t.ptpLost then 3 else 1
  else if t.freq = 2 ∧ !t.synceQualified then 0
  else if t.pllLocked then 2 else if t.pllLost then 3 else 1

/-- A rate change: the time stays continuous (R286). -/
def Time.setRate (t : Time) (rate : Int) : Time := { t with t0 := t.raw t.c, c0 := t.c, rate }

/-- Changes the time base. -/
def Dev.setTime (d : Dev) (f : Time → Time) : Dev := { d with time := f d.time }

/-- A RATE within the limit of R286. -/
def clampRate (rate : Int) : Int := max (-1759218604) (min rate 1759218604)

/-- A grandmaster that both its sources lock has been locked in its role (R436). -/
def Time.noteLock (t : Time) : Time := { t with wasLocked := t.wasLocked || (t.role == 2 && t.ppsLocked && t.pllLocked) }

/-! ### SyncE selection (R300) -/

/-- A candidate that may be used: its QL is known and not DNU, and no hold-off or wait-to-restore runs. -/
def SyncePort.usable (s : SyncePort) : Bool :=
  bit s.flags.toNat 1 && s.waitTo.isNone && !s.failed && match s.ql with
    | some q => decide (q < 15)
    | none => false

/-- Order of candidates: best QL, then lowest priority value, then lowest lane (option 1 codes rise as quality falls). -/
def synceRank (s : Nat × SyncePort) : Nat := ((s.2.ql.getD 15) * 256 + s.2.prio) * 256 + s.1

/-- The selected port. -/
def Dev.synceSource (d : Dev) : Option Nat :=
  (sortBy synceRank (d.time.synce.filter fun s => s.2.usable && d.portUp s.1)).head?.map Prod.fst

/-- The port that the time base takes its frequency from. -/
def Dev.freqPort (d : Dev) : Option Nat := if d.time.freq = 2 then d.synceSource else none

/-- QL of the time base: EEC1 in holdover and free-run, otherwise that of the source. -/
def Dev.timeQl (d : Dev) : Nat :=
  if d.time.state = 0 ∨ d.time.state = 3 then 0xB
  else
    match d.freqPort.bind fun s => d.time.synce.find? s with
    | some s => s.ql.getD 0xB
    | none => Config.refQl

/-- QL that a port sends: DNU on the selected port, otherwise the time base's. -/
def Dev.qlFor (d : Dev) (l : Nat) : Nat := if d.synceSource = some l then 15 else d.timeQl

/-- Ports that run ESMC. -/
def SyncePort.esmc (s : SyncePort) : Bool := bit s.flags.toNat 0

/-- An information PDU, or an event PDU. -/
def Dev.sendEsmc (d : Dev) (l : Nat) (event : Bool) : Dev :=
  let q := d.qlFor l
  (d.emit (.esmc l q event)).setTime fun t => { t with synce := t.synce.adjust l fun (s : SyncePort) => { s with sentQl := q } }

/-- After a change of source or state: a candidate that is usable counts as qualified, and every port whose QL has changed sends
an event PDU. -/
def Dev.esmcUpdate (d : Dev) : Dev :=
  let d := if d.synceSource.isSome then d.setTime fun t => { t with synceQualified := true } else d
  (d.time.synce.filter fun s => s.2.esmc && d.portUp s.1 && d.qlFor s.1 != s.2.sentQl).foldl (fun d s => d.sendEsmc s.1 true) d

/-! ### Beacons across a step (R291, R294) -/

/-- The first firing of a periodic beacon at or after an instant, as R287 compares. -/
def Beacon.firstFrom (b : Beacon) (x : Nat) : Nat :=
  if tdiff x b.base ≤ 0 then b.base else wrap 64 (b.base + cdiv (tdiff x b.base).toNat b.period * b.period : Nat)

/-- One beacon across a step, with the limit 250 µs after the value that the time base reads; the second part says that it became
MISSED. -/
def Dev.moveBeacon (d : Dev) (limit b : Nat) : Dev × Bool :=
  let x := d.beacon b
  let put := fun (d : Dev) (y : Beacon) => d.setTime fun t => { t with beacons := t.beacons.put b y }
  if x.state ≠ .set ∧ x.state ≠ .armed then (d, false)
  else if x.period ≠ 0 then (put d { x with instant := x.firstFrom limit }, false)
  else if 0 ≤ tdiff x.instant limit then (d, false)
  else ((put d { x with state := .missed }).endAll (fun e => e.armed == some b) .late, true)

/-- Every beacon across a step, and how many became MISSED. -/
def Dev.moveBeacons (d : Dev) (limit : Nat) : Dev × Nat :=
  d.time.beacons.foldl (fun (r : Dev × Nat) e =>
    let x := r.1.moveBeacon limit e.1
    (x.1, r.2 + b2n x.2)) (d, 0)

/-! ### Steps -/

/-- A number moved by a signed step. -/
def moved (v : Nat) (j : Int) : Nat := ((v : Int) + j).toNat

/-- A channel's frame numbers moved by `j` frames; `u` is U. -/
def Chan.shift (c : Chan) (j : Int) (u : Nat) : Chan :=
  { c with
    plans := c.plans.map fun p => { p with frame := moved p.frame j }
    losFrame := moved c.losFrame j
    windows := c.windows.map fun w => { w with first := moved w.first (j * u), grantFrame := moved w.grantFrame j }
    displacedTo := if c.displacedTo = 0 then 0 else moved c.displacedTo (j * u) }

/-- An allocation's frame numbers moved; forecasts keep the numbers that their host gave. -/
def Alloc.shift (a : Alloc) (j : Int) : Alloc :=
  { a with
    grants := a.grants.map fun x => (moved x.1 j, x.2)
    events := a.events.map fun x => (moved x.1 j, x.2)
    lastPlan := if a.lastPlan = 0 then 0 else moved a.lastPlan j }

/-- A key slot's frame numbers moved. -/
def KeySlot.shift (k : KeySlot) (j : Int) : KeySlot :=
  { k with lastUp := k.lastUp.map fun f => moved f j, countedDn := k.countedDn.map fun f => moved f j
           countedUp := k.countedUp.map fun f => moved f j }

/-- What the device has noted by frame number moves with the numbers (R294): frames start on time. -/
def Dev.shiftFrames (d : Dev) (j : Int) : Dev :=
  { d with
    chans := d.chans.mapAll fun g (c : Chan) => c.shift j (rxFrameBytes (chanCfg d.objs g))
    terms := d.terms.mapAll fun _ (t : Term) => { t with lastPloamu := moved t.lastPloamu j, graceTo := moved t.graceTo j }
    allocs := d.allocs.mapAll fun _ (a : Alloc) => a.shift j
    keys := d.keys.mapAll fun _ (k : KeySlot) => k.shift j
    flows := d.flows.mapAll fun _ (f : Flow) => { f with retain := f.retain.map fun r => (moved r.1 j, r.2) }
    prot := { d.prot with
      applied := d.prot.applied.map fun f => moved f j
      lanternRetain := d.prot.lanternRetain.map fun r => (r.1, moved r.2.1 j, r.2.2) }
    time := { d.time with frame := moved d.time.frame j, sfOffset := d.time.sfOffset - j } }

/-- The instants of a waiting commit and of waiting re-bases are physical: they move with the time, to a frame instant. -/
def Dev.shiftInstants (d : Dev) (step : Int) : Dev :=
  let at' := fun (i : Nat) => roundUp (moved i step) frameNs
  { d with
    vers := { d.vers with commit := d.vers.commit.map fun c =>
      match c.phase with
      | .waiting i => { c with phase := .waiting (at' i) }
      | _ => c }
    time := { d.time with rebases := d.time.rebases.map fun r => { r with at_ := at' r.at_ } } }

/-- A performance entity whose bins that hold the instant `x` are suspect (13 R335): the current ones, or those that follow them, which
begin before the current ones close. -/
def Pm.suspect (p : Pm) (x : Nat) : Pm :=
  let p := if p.cur15.start + 900000000000 ≤ x then { p with next15 := true } else { p with cur15 := { p.cur15 with suspect := true } }
  if p.cur24.start + 86400000000000 ≤ x then { p with next24 := true } else { p with cur24 := { p.cur24 with suspect := true } }

/-- Every performance bin that holds the instant is suspect. -/
def Dev.suspectBins (d : Dev) (x : Nat) : Dev := { d with tdm := { d.tdm with pms := d.tdm.pms.map fun p => (p.1, p.2.suspect x) } }

/-- The time base reads `v` ns now, with fraction 0. The bins of the instant before and of the instant after are suspect. -/
def Dev.readNow (d : Dev) (v : Int) : Dev :=
  ((d.suspectBins d.now).suspectBins v.toNat).setTime fun t => { t with t0 := v * 4294967296, c0 := t.c }

/-- A step that sets the time (R291, 17 R409): frame numbers start anew from the value. -/
def Dev.setStep (d : Dev) (v : Nat) : Dev :=
  let step := (v : Int) - d.now
  let d := (d.readNow v).shiftInstants step
  let d := d.setTime fun t => { t with frame := (v - 1) / frameNs, isSet := true }
  (d.moveBeacons (v + 250000)).1

/-- A re-base at F (R293, R294), and the number of beacons made MISSED. -/
def Dev.rebaseNow (d : Dev) (step : Int) : Dev × Nat :=
  let v := (d.now : Int) + step
  let d := (d.readNow v).shiftInstants step
  let d := d.shiftFrames (step / frameNs)
  let d := if step % frameNs = 0 then d else d.setTime fun t => { t with frame := d.now / frameNs }
  d.moveBeacons (d.now + 250000)

/-! ### TIME_SOURCE_SET, TIME_SET, TIME_RATE_SET (R288, R291, R292) -/

/-- `TIME_SOURCE_SET`. Another frequency source has to be acquired anew, and so has another role. -/
def cmdTimeSourceSet : CmdDef where
  op := 0x0B01
  form := fun p => decide (ent p 16 1 ≤ 4) && decide (ent p 17 1 ≤ 2) && decide (6 ≤ ent p 18 1) && zeros 16 p [(19, 63)]
  forbid := fun d e => if ent e.par 16 1 = 3 ∧ d.time.role ≠ 3 ∧ !d.sys.dark then some (.conflict, []) else none
  run := fun e d =>
    let p := e.par
    let d := d.setTime fun t =>
      let t := if t.freq = ent p 17 1 then t else { t with pllLocked := false, pllLost := false }
      let t := if t.role = ent p 16 1 then t
        else { t with ppsLocked := false, ppsLost := false, ptpLocked := false, ptpLost := false, folLocked := false, wasLocked := false
                      good := 0, source := none, hops := 0, master := none, offset := 0, paths := [], conflict := false
                      ptp := t.ptp.mapAll fun _ (q : PtpPort) => { q with slave := false, locked := false } }
      { t with role := ent p 16 1, freq := ent p 17 1, clockClass := ent p 18 1 }.noteLock
    d.esmcUpdate.ok e

/-- The command `TIME_SOURCE_SET`. -/
def execTimeSourceSet (p : Packet) (s : State) : Host.Outcome State Fault Refusal := command cmdTimeSourceSet p s

/-- `TIME_SET`: MODE 1 steps at once, MODE 0 waits for PPS_IN. -/
def cmdTimeSet : CmdDef where
  op := 0x0B02
  form := fun p => decide (ent p 24 1 ≤ 1) && zeros 16 p [(25, 63)]
  forbid := fun d _ =>
    if d.time.stepped ∨ d.time.waiting.isSome ∨ d.vers.committed ∨ d.time.role = 3 ∨ d.time.role = 1 then some (.conflict, []) else none
  run := fun e d =>
    let v := ent e.par 16 8
    if ent e.par 24 1 = 1 then ((d.setStep v).setTime fun t => { t with stepped := true }).ok e
    else (d.setTime fun t => { t with waiting := some (e.dom, e.seq, v, d.inNs 2000000000) }).park e

/-- The command `TIME_SET`. -/
def execTimeSet (p : Packet) (s : State) : Host.Outcome State Fault Refusal := command cmdTimeSet p s

/-- The event TIME_SET_TIMEOUT: no PPS_IN edge has come within 2 s. -/
def timeSetTimeout (d : Dev) : Dev :=
  match d.time.waiting with
  | none => d
  | some (dom, seq, _, due) =>
    ((d.goCounter due).setTime fun t => { t with waiting := none }).finishId dom seq .late []

/-- See `timeSetTimeout`. -/
def execTimeSetTimeout (s : State) : Host.Outcome State Fault Refusal := live timeSetTimeout s

/-- Largest RATE: 100 ppm (R286). -/
def rateLimit : Nat := 1759218604

/-- `TIME_RATE_SET`. -/
def cmdTimeRateSet : CmdDef where
  op := 0x0B03
  form := fun p => decide ((entSigned p 16 4).natAbs ≤ rateLimit) && zeros 16 p [(20, 63)]
  forbid := fun d _ => if d.time.role ≠ 2 ∧ d.time.role ≠ 4 then some (.conflict, []) else none
  run := fun e d => (d.setTime fun t => t.setRate (entSigned e.par 16 4)).ok e

/-- The command `TIME_RATE_SET`. -/
def execTimeRateSet (p : Packet) (s : State) : Host.Outcome State Fault Refusal := command cmdTimeRateSet p s

/-! ### TIME_REBASE (R293) -/

/-- M: least common multiple of CHARLEN over the channels that are not off. -/
def charMultiple (objs : List VObj) : Nat :=
  ((List.range 192).filter fun g => (chanCfg objs g).mode != 0).foldl (fun m g => Nat.lcm m (planCfg objs g).charLen) 1

/-- Lowest lanes of Brynlinks and tender links that are up. -/
def Dev.timeLinks (d : Dev) : List Nat := ((groups d.objs).filter fun q => (q.kind == 2 || q.kind == 3) && d.portUp q.lane).map Group.lane

/-- `TIME_REBASE`: the step falls at F, and the followers hear of it. -/
def cmdTimeRebase : CmdDef where
  op := 0x0B04
  form := fun p => zeros 16 p [(24, 63)]
  forbid := fun d e =>
    if d.time.role = 3 ∨ (!d.sys.dark ∧ entSigned e.par 16 8 % (frameNs * charMultiple d.objs : Nat) ≠ 0) then some (.conflict, []) else none
  run := fun e d =>
    let f := d.frameAfter 250000
    let step := entSigned e.par 16 8
    let d := d.timeLinks.foldl (fun (d : Dev) l => d.sendControl l 4 [(f : Int), step]) d
    (d.setTime fun t => { t with rebases := t.rebases ++ [(⟨e.dom, e.seq, f, step, false⟩ : Rebase)] }).park e

/-- The command `TIME_REBASE`. -/
def execTimeRebase (p : Packet) (s : State) : Host.Outcome State Fault Refusal := command cmdTimeRebase p s

/-- The re-base whose instant comes first. -/
def Time.nextRebase (t : Time) : Option Rebase := (sortBy Rebase.at_ t.rebases).head?

/-- The event REBASE_STEP: at F the time base steps, and `TIME_REBASE` replies with F as it was read. -/
def rebaseStep (d : Dev) : Dev :=
  match d.time.nextRebase with
  | none => d
  | some r =>
    let d := d.goTime r.at_
    let d := d.setTime fun t => { t with rebases := t.rebases.erase r }
    let (d, n) := d.rebaseNow r.step
    if r.remote then d else d.finishId r.dom r.seq .done [r.at_ / 2 ^ 32, r.at_ % 2 ^ 32, n, 0]

/-- See `rebaseStep`. -/
def execRebaseStep (s : State) : Host.Outcome State Fault Refusal := live rebaseStep s

/-! ### TIME_STATUS (R295) -/

/-- Lowest lane of the link or port that is the source. -/
def Dev.timeSource (d : Dev) : Nat :=
  let src := if d.time.role = 3 then d.time.source
    else if d.time.role = 1 ∧ !d.time.slaves.isEmpty then d.time.slaves.head?
    else if d.time.freq = 2 then d.synceSource else none
  src.getD 0xFFFFFFFF

/-- `TIME_STATUS`. -/
def cmdTimeStatus : CmdDef where
  op := 0x0B05
  read := true
  form := fun p => zeros 16 p [(16, 63)]
  run := fun e d =>
    let t := d.time
    d.finish e .done [t.role * 2 ^ 24 + t.state * 65536 + t.hops * 256 + b2n (t.isSet || t.folLocked), d.timeSource, wrap 32 t.offset, wrap 32 t.rate]

/-- The command `TIME_STATUS`. -/
def execTimeStatus (p : Packet) (s : State) : Host.Outcome State Fault Refusal := command cmdTimeStatus p s

/-! ### Following (R289, 17 R409) -/

/-- The path to a master with the fewest hops, then the lowest lane. -/
def bestPath (paths : List (Nat × Nat × Nat)) (master : Nat) : Option (Nat × Nat × Nat) :=
  (sortBy (fun p : Nat × Nat × Nat => p.2.1 * 256 + p.1) (paths.filter fun p => p.2.2 == master)).head?

/-- The master that a follower follows: the one it has while a path to it is left, otherwise that of the best path. -/
def Time.choose (t : Time) : Option (Nat × Nat × Nat) :=
  match t.master.bind fun m => bestPath t.paths m with
  | some p => some p
  | none => (sortBy (fun p : Nat × Nat × Nat => p.2.1 * 256 + p.1) t.paths).head?

/-- The follower's source after a change of its paths; with no path left it is no longer locked (R290). -/
def Time.reselect (t : Time) : Time :=
  match t.choose with
  | some (l, h, m) => { t with source := some l, hops := h + 1, master := some m, conflict := t.paths.any fun p => p.2.2 != m }
  | none => { t with source := none, hops := 0, folLocked := false, good := 0, conflict := false }

/-- What the device's time words announce: its hops to the master and the master's DEV_ID. A master announces itself; a follower
without a path announces nothing. -/
def Dev.announced (d : Dev) : Option (Nat × Nat) :=
  if d.time.role ≠ 3 then some (0, d.sys.devId.toNat)
  else
    match d.time.source, d.time.master with
    | some _, some m => some (d.time.hops, m)
    | _, _ => none

/-- The device's time words on its Brynlinks and tender links: hops to the master, the master, and the time. The model sends one at
each frame instant for the words of that frame (DESIGN CHOICE, log entry 167). -/
def Dev.sendTimeWords (d : Dev) : Dev :=
  match d.announced with
  | none => d
  | some (hops, master) => d.timeLinks.foldl (fun (d : Dev) l => d.sendControl l 1 [(hops : Int), (master : Int), (d.now : Int)]) d

/-- The event TIME_WORD: a follower notes the path, and disciplines its time base from the word of its source. A re-base that the
word announces is passed on to the device's own followers. -/
def timeWord (rx : TimeWordRx) (d : Dev) : Dev :=
  if d.time.role ≠ 3 ∨ !d.isGroup rx.lane [2, 3] ∨ !d.portUp rx.lane then d
  else
    let d := d.setTime fun t =>
      ({ t with paths := (t.paths.filter fun p => p.1 != rx.lane) ++ [(rx.lane, rx.hops, rx.master)] } : Time).reselect
    if d.time.source ≠ some rx.lane then d
    else
      let inside := rx.offset.natAbs ≤ 128 * d.time.hops
      let d := d.setTime fun t =>
        { t.setRate (clampRate rx.rate) with
          offset := rx.offset, good := if inside then t.good + 1 else 0, folLocked := t.folLocked && inside }
      match rx.step with
      | some (f, step) =>
        let d := (d.timeLinks.filter fun l => l != rx.lane).foldl (fun (d : Dev) l => d.sendControl l 4 [(f : Int), step]) d
        d.setTime fun t => { t with rebases := t.rebases ++ [(⟨0, 0, f, step, true⟩ : Rebase)] }
      | none => d

/-- See `timeWord`. -/
def execTimeWord (rx : TimeWordRx) (s : State) : Host.Outcome State Fault Refusal := live (timeWord rx) s

/-- The event FOLLOWER_LOCK: 1,000 consecutive measurements were within the limit. The first lock since reset steps the time base
to the master's time, at a frame instant of the master. -/
def followerLock (masterTime : Nat) (d : Dev) : Dev :=
  if d.time.role ≠ 3 ∨ d.time.good < 1000 ∨ d.time.folLocked then d
  else
    let d := if d.time.folEver then d else d.setStep masterTime
    (d.setTime fun t => { t with folLocked := true, folEver := true, wasLocked := true, isSet := true }).esmcUpdate

/-- See `followerLock`. -/
def execFollowerLock (masterTime : Nat) (s : State) : Host.Outcome State Fault Refusal := live (followerLock masterTime) s

/-- Holdover at the average frequency of the last 10 s (R290), where the device itself steers RATE. -/
def Time.holdover (t : Time) (avg : Int) : Time := if t.role = 0 ∨ t.role = 4 then t else t.setRate (clampRate avg)

/-- The event TIME_SOURCE_LOSS (R290, R436). -/
def timeSourceLoss (cause : TimeLoss) (avg : Int) (d : Dev) : Dev :=
  let d := d.setTime fun t =>
    match cause with
    | .frequency => if t.pllLocked then { t.holdover avg with pllLocked := false, pllLost := true } else t
    | .pps => if t.role = 2 ∧ t.ppsLocked then { t.holdover avg with ppsLocked := false, ppsLost := true } else t
    | .ptpMaster => if t.role = 1 ∧ t.ptpLocked then { t.holdover avg with ptpLocked := false, ptpLost := true } else t
    | .path l =>
      let u := ({ t with paths := t.paths.filter fun p => p.1 != l } : Time).reselect
      if t.role ≠ 3 then t else if u.source.isNone ∧ t.source.isSome then u.holdover avg else u
  d.esmcUpdate

/-- See `timeSourceLoss`. -/
def execTimeSourceLoss (cause : TimeLoss) (averageRate : Int) (s : State) : Host.Outcome State Fault Refusal :=
  live (timeSourceLoss cause averageRate) s

/-- The event TIME_BASE_PLL_LOCK: in a master role, the PLL locks to its FREQ source. -/
def timeBasePllLock (d : Dev) : Dev :=
  if d.time.role = 3 ∨ (d.time.freq = 2 ∧ d.synceSource.isNone) then d
  else (d.setTime fun t => { t with pllLocked := true, pllLost := false }.noteLock).esmcUpdate

/-- See `timeBasePllLock`. -/
def execTimeBasePllLock (s : State) : Host.Outcome State Fault Refusal := live timeBasePllLock s

/-! ### Captures (R309) -/

/-- A corrected capture: 4 ns before the latch (Table 12-3), the event's own fraction of a ns added. -/
def Dev.capture (d : Dev) (pin : Nat) (rising : Bool) (frac : Nat) : Dev :=
  let q := d.time.inputs.getD pin {}
  if !q.mask.getLsbD (if rising then 0 else 1) then d
  else if 64 ≤ q.caps.length then d.count (ctrDev (32 + pin))
  else d.setTime fun t => { t with inputs := t.inputs.put pin { q with caps := q.caps ++ [⟨rising, d.stamp (-4), frac % 2 ^ 32⟩] } }

/-- The event PPS_IN_EDGE: it is captured; a rising edge applies a waiting `TIME_SET` and disciplines a grandmaster. -/
def ppsInEdge (rising : Bool) (frac : Nat) (rate offset : Int) (locked : Bool) (d : Dev) : Dev :=
  let d := d.capture 8 rising frac
  if !rising then d
  else
    let d := match d.time.waiting with
      | some (dom, seq, v, _) =>
        ((d.setStep v).setTime fun t => { t with stepped := true, waiting := none }).finishId dom seq .done []
      | none => d
    if d.time.role = 2 then
      (d.setTime fun t =>
        { t.setRate (clampRate rate) with offset, ppsLocked := locked, ppsLost := t.ppsLost && !locked }.noteLock).esmcUpdate
    else d

/-- See `ppsInEdge`. -/
def execPpsInEdge (rising : Bool) (frac : Nat) (rate offset : Int) (locked : Bool) (s : State) : Host.Outcome State Fault Refusal :=
  live (ppsInEdge rising frac rate offset locked) s

/-- The event TE_IN_EDGE. -/
def teInEdge (pin : Nat) (rising : Bool) (frac : Nat) (d : Dev) : Dev := if pin < 8 then d.capture pin rising frac else d

/-- See `teInEdge`. -/
def execTeInEdge (pin : Nat) (rising : Bool) (frac : Nat) (s : State) : Host.Outcome State Fault Refusal := live (teInEdge pin rising frac) s

/-- `TE_INPUT_SET`. -/
def cmdTeInputSet : CmdDef where
  op := 0x0B0C
  form := fun p => decide (ent p 16 1 ≤ 8) && decide (ent p 17 1 ≤ 3) && zeros 16 p [(18, 63)]
  run := fun e d =>
    (d.setTime fun t => { t with inputs := t.inputs.alter (ent e.par 16 1) {} fun (q : TeInput) =>
      { q with mask := BitVec.ofNat 2 (ent e.par 17 1) } }).ok e

/-- The command `TE_INPUT_SET`. -/
def execTeInputSet (p : Packet) (s : State) : Host.Outcome State Fault Refusal := command cmdTeInputSet p s

/-- The 16 bytes of a capture. -/
def Capture.bytes (pin : Nat) (c : Capture) : Bytes :=
  beBytes 1 pin ++ beBytes 1 (if c.rising then 1 else 2) ++ [0#8, 0#8] ++ beBytes 4 c.frac ++ beBytes 8 c.ns

/-- `TE_CAPTURE_READ`; a DRY one keeps the list. -/
def cmdTeCaptureRead : CmdDef where
  op := 0x0B0D
  read := true
  form := fun p => decide (ent p 16 1 ≤ 8) && aligned (ent p 24 8) 8 && zeros 16 p [(17, 23), (32, 63)]
  run := fun e d =>
    let pin := ent e.par 16 1
    let q : TeInput := d.time.inputs.getD pin {}
    let d := d.hostWrite (ent e.par 24 8) (q.caps.flatMap (Capture.bytes pin) ++ List.replicate 16 0#8)
    let d := if Packet.dry e.pkt then d else d.setTime fun t => { t with inputs := t.inputs.adjust pin fun (q : TeInput) => { q with caps := [] } }
    d.finish e .done [q.caps.length]

/-- The command `TE_CAPTURE_READ`. -/
def execTeCaptureRead (p : Packet) (s : State) : Host.Outcome State Fault Refusal := command cmdTeCaptureRead p s

/-! ### PPS_OUT (R310) -/

/-- The event PPS_OUT_RISE: the next whole second of the time base, once the time is set. -/
def ppsOutRise (d : Dev) : Dev :=
  if d.time.ppsHigh ∨ !d.time.isSet then d
  else
    let d := d.goTime (roundUp d.now 1000000000)
    d.setTime fun t => { t with ppsHigh := true, ppsFall := t.c + 100000000 }

/-- See `ppsOutRise`. -/
def execPpsOutRise (s : State) : Host.Outcome State Fault Refusal := live ppsOutRise s

/-- The event PPS_OUT_FALL: 100 ms after the rise. -/
def ppsOutFall (d : Dev) : Dev :=
  if d.time.ppsHigh then (d.goCounter d.time.ppsFall).setTime fun t => { t with ppsHigh := false } else d

/-- See `ppsOutFall`. -/
def execPpsOutFall (s : State) : Host.Outcome State Fault Refusal := live ppsOutFall s

/-! ### Beacons (R302 to R306) -/

/-- `BEACON_SET`. -/
def cmdBeaconSet : CmdDef where
  op := 0x0B06
  form := fun p =>
    let act := ent p 18 1
    let per := ent p 32 8
    decide (ent p 16 2 ≤ 511) && decide (act ≤ 3) && decide (ent p 19 1 ≤ 7)
    && (if act = 3 then within (ent p 20 4) 10 1000000000 else ent p 20 4 == 0)
    && (per == 0 || (within per 1000 3600000000000 && act != 0 && (act != 3 || decide (ent p 20 4 < per)))) && zeros 16 p [(40, 63)]
  bad := fun d e => if 86400000000000 < tdiff (ent e.par 24 8) d.now then some [] else none
  forbid := fun d e =>
    let s := (d.beacon (ent e.par 16 2)).state
    if s = .set ∨ s = .armed then some (.conflict, [])
    else if tdiff (ent e.par 24 8) d.now < 10000 then some (.late, []) else none
  run := fun e d =>
    let p := e.par
    let b : Beacon :=
      { state := if ent p 18 1 = 0 then .set else .armed, pinAct := ent p 18 1, pin := ent p 19 1, width := ent p 20 4
        instant := ent p 24 8, base := ent p 24 8, period := ent p 32 8 }
    (d.setTime fun t => { t with beacons := t.beacons.put (ent p 16 2) b }).ok e

/-- The command `BEACON_SET`. -/
def execBeaconSet (p : Packet) (s : State) : Host.Outcome State Fault Refusal := command cmdBeaconSet p s

/-- `BEACON_CLEAR`: a pulse that is high still completes. -/
def cmdBeaconClear : CmdDef where
  op := 0x0B07
  form := fun p => decide (ent p 16 2 ≤ 511) && zeros 16 p [(18, 63)]
  run := fun e d =>
    let b := ent e.par 16 2
    let d := d.setTime fun t => { t with beacons := t.beacons.del b }
    (d.endAll (fun x => x.armed == some b && !(x.dom == e.dom && x.seq == e.seq)) .abandoned).ok e

/-- The command `BEACON_CLEAR`. -/
def execBeaconClear (p : Packet) (s : State) : Host.Outcome State Fault Refusal := command cmdBeaconClear p s

/-- State code of a beacon (R303, R306). -/
def BeaconState.code : BeaconState → Nat
  | .unset => 0
  | .set => 1
  | .armed => 2
  | .fired => 3
  | .missed => 4

/-- `BEACON_STATUS`. -/
def cmdBeaconStatus : CmdDef where
  op := 0x0B08
  read := true
  form := fun p => decide (ent p 16 2 ≤ 511) && zeros 16 p [(18, 63)]
  run := fun e d =>
    let b := ent e.par 16 2
    let x := d.beacon b
    d.finish e .done [x.state.code * 2 ^ 24 + (d.armedOn b).length, x.instant / 2 ^ 32, x.instant % 2 ^ 32, sat 32 x.firings]

/-- The command `BEACON_STATUS`. -/
def execBeaconStatus (p : Packet) (s : State) : Host.Outcome State Fault Refusal := command cmdBeaconStatus p s

/-- A beacon's pin action (R304, R305): while the outputs are dark it leaves the pin low; any action ends an earlier pulse's hold
on the pin. -/
def Dev.pinAction (d : Dev) (b : Nat) : Dev :=
  let x := d.beacon b
  if x.pinAct = 0 ∨ d.sys.dark then d
  else
    d.setTime fun t =>
      { t with
        teHigh := if x.pinAct = 2 then t.teHigh.filter (fun p => p != x.pin) else if t.teHigh.contains x.pin then t.teHigh else t.teHigh ++ [x.pin]
        pulses := t.pulses.filter (fun p => p.1 != x.pin) ++ if x.pinAct = 3 then [(x.pin, b, t.c + x.width)] else [] }

/-- A beacon's own bookkeeping at a firing: a one-shot one is FIRED, a periodic one goes to its next instant. -/
def Dev.noteFiring (d : Dev) (b : Nat) : Dev :=
  d.setTime fun t => { t with beacons := t.beacons.adjust b fun (x : Beacon) =>
    if x.period = 0 then { x with state := .fired, firings := x.firings + 1 }
    else { x with instant := (x.instant + x.period) % 2 ^ 64, firings := x.firings + 1 } }

/-- The event PULSE_END: the pulse on a pin ends WIDTH after its firing. -/
def pulseEnd (pin : Nat) (d : Dev) : Dev :=
  match d.time.pulses.find? fun p => p.1 == pin with
  | none => d
  | some p =>
    (d.goCounter p.2.2).setTime fun t => { t with pulses := t.pulses.erase p, teHigh := t.teHigh.filter fun q => q != pin }

/-- See `pulseEnd`. -/
def execPulseEnd (pin : Nat) (s : State) : Host.Outcome State Fault Refusal := live (pulseEnd pin) s

/-! ### TS_RING_SET, TOD_QUERY (R297, R301) -/

/-- `TS_RING_SET`; 0xFFFF names no ring. -/
def cmdTsRingSet : CmdDef where
  op := 0x0B0E
  names := fun _ p => if ent p 16 2 = 0xFFFF then [] else [.rxRing (ent p 16 2)]
  form := fun p => (decide (ent p 16 2 ≤ 63) || ent p 16 2 == 0xFFFF) && zeros 16 p [(18, 63)]
  forbid := fun d e => if ent e.par 16 2 ≠ 0xFFFF ∧ (d.sw.rx.find? (ent e.par 16 2)).isNone then some (.conflict, []) else none
  run := fun e d => (d.setTime fun t => { t with tsRing := if ent e.par 16 2 = 0xFFFF then none else some (ent e.par 16 2) }).ok e

/-- The command `TS_RING_SET`. -/
def execTsRingSet (p : Packet) (s : State) : Host.Outcome State Fault Refusal := command cmdTsRingSet p s

/-- Launch latency in ns (R296). -/
def launchNs (mode : Nat) : Nat := if mode = 2 then 1728 else 1344

/-- Launch advance of a tree in ns (14 R356). -/
def Dev.launchAdvance (d : Dev) (tree : Nat) : Int :=
  match d.prot.shadows.find? tree with
  | some s => s.advance
  | none => 0

/-- Signed difference of a 32-bit superframe count from the current one. -/
def Dev.sfDiff (d : Dev) (c : Nat) : Int := sdiff 32 c (d.superframe d.time.frame)

/-- `TOD_QUERY`; a channel that is off sends no PSBd. -/
def cmdTodQuery : CmdDef where
  op := 0x0B0B
  read := true
  names := fun _ p => [.channel (ent p 16 2)]
  form := fun p => decide (ent p 16 2 ≤ 191) && zeros 16 p [(18, 19), (24, 63)]
  bad := fun d e => if 16000 < (d.sfDiff (ent e.par 20 4)).natAbs then some [] else none
  forbid := fun d e => if d.mode (ent e.par 16 2) = 0 then some (.conflict, []) else none
  run := fun e d =>
    let g := ent e.par 16 2
    let n := (d.time.frame : Int) + d.sfDiff (ent e.par 20 4)
    let at' := wrap 64 (n * frameNs + launchNs (d.mode g) - d.launchAdvance (g / 4))
    d.finish e .done [at' / 2 ^ 32, at' % 2 ^ 32, 0, wrap 32 n]

/-- The command `TOD_QUERY`. -/
def execTodQuery (p : Packet) (s : State) : Host.Outcome State Fault Refusal := command cmdTodQuery p s

/-! ### PTP (R298, R299) -/

/-- `CONFLICT` unless the lane at entry byte 16 is an Ethernet port's lowest lane in the running version. -/
def needPort (d : Dev) (e : Exec) : Option (Status × List Nat) := if d.isGroup (ent e.par 16 1) [1] then none else some (.conflict, [])

/-- `PTP_PORT_SET`; with PROFILE 0 only the port, PROFILE and the reserved fields are checked. Bytes 26 and 27, which R298 neither
lists nor reserves, may hold any value (DESIGN CHOICE, log entry 35). -/
def cmdPtpPortSet : CmdDef where
  op := 0x0B09
  guarded := true
  names := fun _ p => [.port (ent p 16 1)]
  form := fun p =>
    decide (ent p 16 1 ≤ 95) && decide (ent p 17 1 ≤ 2) && zeros 16 p [(24, 24), (44, 63)]
    && (ent p 17 1 == 0
      || (decide (ent p 18 1 ≤ 15) && !(bit (ent p 18 1) 1 && bit (ent p 18 1) 2) && decide (1 ≤ ent p 25 1)
          && (if ent p 17 1 = 1 then within (ent p 19 1) 24 43 else within (ent p 19 1) 44 63)))
  forbid := needPort
  run := fun e d =>
    let p := e.par
    let q : PtpPort := { profile := ent p 17 1, flags := BitVec.ofNat 8 (ent p 18 1), domain := ent p 19 1, asym := w32 (ent p 20 4)
                         prio := ent p 25 1, addr := ent p 28 16 }
    (d.setTime fun t => { t with ptp := if ent p 17 1 = 0 then t.ptp.del (ent p 16 1) else t.ptp.put (ent p 16 1) q }).ok e

/-- The command `PTP_PORT_SET`. -/
def execPtpPortSet (p : Packet) (s : State) : Host.Outcome State Fault Refusal := command cmdPtpPortSet p s

/-- A port may take the slave state: only in ROLE 1, and not on a master-only port (R299). -/
def PtpPort.maySlave (q : PtpPort) (role : Nat) : Bool := role == 1 && !bit q.flags.toNat 1

/-- The event PTP_MESSAGE: what the BMCA and the servo made of it. An event message is timestamped at its reception. A ROLE 1
device follows the servo of its slave port. -/
def ptpMessage (rx : PtpRx) (d : Dev) : Dev :=
  match d.time.ptp.find? rx.lane with
  | none => d
  | some q =>
    let slave := rx.slave && q.maySlave d.time.role
    let rxStamp := if ptpEvent q rx.data then some (d.stamp (d.laneFix false rx.lane), d.frac) else q.rxStamp
    let d := d.setTime fun t => { t with ptp := t.ptp.put rx.lane { q with slave, locked := slave && rx.locked, rxStamp } }
    let d := d.setTime fun t =>
      if slave then
        { t.setRate (clampRate rx.rate) with ptpLocked := rx.locked, ptpLost := t.ptpLost && !rx.locked, offset := rx.offset }
      else if t.role = 1 ∧ t.slaves.isEmpty then { t with ptpLocked := false, ptpLost := false }
      else t
    d.esmcUpdate

/-- See `ptpMessage`. -/
def execPtpMessage (rx : PtpRx) (s : State) : Host.Outcome State Fault Refusal := live (ptpMessage rx) s

/-- The clockClass that a device announces: CLASS in ROLE 2, what its BMCA has in ROLE 1, otherwise that of its own state, whose
code the manual does not give (R299). -/
def Dev.announceClass (d : Dev) (own : Nat) : Nat :=
  if d.time.role = 2 then d.time.clockClass else if d.time.role = 1 then own else Config.stateClass d.time.state % 256

/-- A message of the Keepers as the port's settings complete it: the two-step flag of a Sync, and the clockClass of an Announce
(R299; the places of both are IEEE 1588's, PRESUMED, log entry 168). -/
def Dev.ptpFill (d : Dev) (q : PtpPort) (data : Bytes) : Bytes :=
  let b := q.header
  if data.length < b + 64 ∧ !ptpEvent q data then data
  else
    match field data b 1 % 16 with
    | 0 =>
      let f := field data (b + 6) 1
      q.patch data 6 (beBytes 1 (if q.oneStep then f - 2 * b2n (bit f 1) else f + 2 * b2n (!bit f 1)))
    | 11 => q.patch data 48 (beBytes 1 (d.announceClass (field data (b + 48) 1)))
    | _ => data

/-- The event PTP_MESSAGE_SEND: at most 256 bytes, and one message at a time in a port's Lantern queue. A standby sends too (14 Table
14-4). -/
def ptpMessageSend (l : Nat) (data : Bytes) (d : Dev) : Dev :=
  match d.time.ptp.find? l with
  | none => d
  | some q =>
    if 256 < data.length ∨ (((d.port l).queue 0).frames.any fun x => x.src == srcKeepers) then d
    else d.enqueuePort l { data := d.ptpFill q data, src := srcKeepers, cls := 0, slot := d.runSlot, itime := d.now }

/-- See `ptpMessageSend`. -/
def execPtpMessageSend (lane : Nat) (data : Bytes) (s : State) : Host.Outcome State Fault Refusal := live (ptpMessageSend lane data) s

/-! ### SyncE and ESMC (R300) -/

/-- `SYNCE_PORT_SET`. -/
def cmdSyncePortSet : CmdDef where
  op := 0x0B0A
  names := fun _ p => [.port (ent p 16 1)]
  form := fun p => decide (ent p 16 1 ≤ 95) && decide (ent p 17 1 ≤ 3) && decide (1 ≤ ent p 18 1) && zeros 16 p [(19, 63)]
  forbid := needPort
  run := fun e d =>
    let l := ent e.par 16 1
    let old : SyncePort := d.time.synce.getD l { flags := 0#8, prio := 0, sentQl := d.qlFor l }
    let d := d.setTime fun t => { t with synce := t.synce.put l { old with flags := BitVec.ofNat 8 (ent e.par 17 1), prio := ent e.par 18 1 } }
    d.esmcUpdate.ok e

/-- The command `SYNCE_PORT_SET`. -/
def execSyncePortSet (p : Packet) (s : State) : Host.Outcome State Fault Refusal := command cmdSyncePortSet p s

/-- A source that has failed waits for hold-off and wait-to-restore before it is used again. -/
def restoreNs : Nat := 300300000000

/-- A port's QL after a PDU: a usable QL after a failure starts the wait, a DNU of a candidate that was usable is a failure. -/
def SyncePort.hear (s : SyncePort) (ql due : Nat) : SyncePort :=
  let ql := ql % 16
  if ql = 15 then { s with ql := some ql, waitTo := none, failed := s.failed || s.usable }
  else if s.failed ∧ s.waitTo.isNone then { s with ql := some ql, waitTo := some due }
  else { s with ql := some ql }

/-- The event ESMC_PDU. -/
def esmcPdu (l ql : Nat) (d : Dev) : Dev :=
  match d.time.synce.find? l with
  | some s =>
    if !s.esmc ∨ !d.portUp l then d
    else (d.setTime fun t => { t with synce := t.synce.put l (s.hear ql (d.inNs restoreNs)) }).esmcUpdate
  | none => d

/-- See `esmcPdu`. -/
def execEsmcPdu (lane ql : Nat) (s : State) : Host.Outcome State Fault Refusal := live (esmcPdu lane ql) s

/-- The event ESMC_INFORMATION_SEND. -/
def esmcInformationSend (l : Nat) (d : Dev) : Dev :=
  match d.time.synce.find? l with
  | some s => if s.esmc ∧ d.portUp l then d.sendEsmc l false else d
  | none => d

/-- See `esmcInformationSend`. -/
def execEsmcInformationSend (lane : Nat) (s : State) : Host.Outcome State Fault Refusal := live (esmcInformationSend lane) s

/-- The event SYNCE_WAIT_TO_RESTORE_EXPIRY. -/
def synceRestore (l : Nat) (d : Dev) : Dev :=
  match (d.time.synce.find? l).bind SyncePort.waitTo with
  | some due =>
    ((d.goCounter due).setTime fun t => { t with synce := t.synce.adjust l fun (s : SyncePort) => { s with waitTo := none, failed := false } }).esmcUpdate
  | none => d

/-- See `synceRestore`. -/
def execSynceWaitToRestoreExpiry (lane : Nat) (s : State) : Host.Outcome State Fault Refusal := live (synceRestore lane) s

/-- A port that goes down fails as a SyncE source. -/
def Dev.synceDown (d : Dev) (l : Nat) : Dev :=
  match d.time.synce.find? l with
  | some s =>
    (d.setTime fun t => { t with synce := t.synce.put l { s with ql := none, waitTo := none, failed := s.failed || s.ql.isSome } }).esmcUpdate
  | none => d

end Sys2Proof.Machine
end

