-- ==== Sys2Proof/Machine/Links.lean ====
section
/-!
DEFINITION. The links of groups as events see them: lanes up and down, recovery, training that does not end, preemption
verification (15 R371, R372, R380), and the identities of Brynlinks and tender links (17 R411).
-/
namespace Sys2Proof.Machine

/-- The group's lanes have block lock, and FEC alignment where the group has FEC; or they have lost both. -/
def Dev.lockLanes (d : Dev) (q : Group) (on : Bool) : Dev :=
  (List.range q.width).foldl (fun d i =>
    d.setLane 1 (q.lane + i) fun x => { x with blockLock := on, fecAlign := on && q.fec == 0 && q.rate != 4 }) d

/-- The link is up, and any hold ends (10 R265); with PREEMPT set, verification starts unless NOVERIFY leaves it out (15 R380). -/
def Dev.bringUp (d : Dev) (q : Group) : Dev :=
  (d.setPort q.lane fun p =>
    { p with link := 2, changed := d.now, retryAt := none, hold := none, flushed := false, conflict := none
             preempt := if q.kind = 1 ∧ q.preempt then (if q.noVerify then 2 else 1) else 0 }).esmcUpdate

/-- The group can come up: configured, and not disabled with its drain ended. -/
def Dev.linkGroup? (d : Dev) (l : Nat) : Option Group := (d.group? l).filter fun q => d.groupLit q

/-- What a start-up training that has ended leaves on the lanes of a group that starts (15 R371). -/
def Dev.trained (d : Dev) (q : Group) (training : List LaneTraining) : Dev :=
  if (d.port q.lane).link = 5 then d.trainLanes q q.train training else d

/-- The event LINK_UP: a port's link is up with its lanes. A Brynlink or tender link sends its identity, and is up once the
peer's identity has been accepted (17 R411). -/
def linkUp (l : Nat) (training : List LaneTraining) (d : Dev) : Dev :=
  match d.linkGroup? l with
  | some q =>
    if d.portUp l then d
    else
      let d := (d.trained q training).lockLanes q true
      if q.kind = 1 then d.bringUp q
      else
        let d := d.emit (.control l 3 [d.sys.devId.toNat, Config.serial.toNat])
        if (d.port l).peer.isSome then d.bringUp q else d
  | none => d

/-- See `linkUp`. -/
def execLinkUp (lane : Nat) (training : List LaneTraining) (s : State) : Host.Outcome State Fault Refusal :=
  live (linkUp lane training) s

/-- The identity conflicts: the device's own DEV_ID, or that of a peer on another link that is up (17 R411). -/
def Dev.idConflict (d : Dev) (l id : Nat) : Bool :=
  id == d.sys.devId.toNat
    || (groups d.objs).any fun q => (q.kind == 2 || q.kind == 3) && q.lane != l && d.portUp q.lane && (d.port q.lane).peer.any fun p => p.1 == id

/-- The event BRYNLINK_IDENTITY: the link comes up with its lanes, or is held down for a conflict and retries (17 R411). -/
def brynlinkIdentity (l id : Nat) (serial : BitVec 64) (d : Dev) : Dev :=
  match (d.linkGroup? l).filter fun q => q.kind == 2 || q.kind == 3 with
  | some q =>
    if d.portUp l then d
    else if d.idConflict l (id % 8) then
      d.setPort l fun p =>
        { p with link := 1, changed := d.now, peer := none, conflict := some (id % 8)
                 retryAt := some (p.retryAt.getD (d.inNs (q.recov * 1000000))) }
    else
      let d := d.setPort l fun p => { p with peer := some (id % 8, serial.toNat), conflict := none }
      if (d.lane 1 l).blockLock then d.bringUp q else d
  | none => d

/-- See `brynlinkIdentity`. -/
def execBrynlinkIdentity (lane devId : Nat) (serial : BitVec 64) (s : State) : Host.Outcome State Fault Refusal :=
  live (brynlinkIdentity lane devId serial) s

/-- What a group's queues and its role as a SyncE source lose with the link (10 R265, 12 R300); the hold does not apply to a
disabled port (10 R266). -/
def Dev.linkLost (d : Dev) (q : Group) : Dev :=
  let d := if q.kind ≠ 3 ∧ (d.port q.lane).disabled.isNone then d.portDown q.lane else d
  d.synceDown q.lane

/-- The event LINK_DOWN (15 R372): the link is down, reception restarts with the taps in force, and recovery is due after RECOV
ms. Loss of time words takes down Brynlinks and tender links alone. -/
def linkDown (l : Nat) (cause : LinkCause) (d : Dev) : Dev :=
  match d.group? l with
  | some q =>
    if cause = .timeWords ∧ q.kind = 1 then d
    else
      let wasUp := d.portUp l
      let d := if cause = .lossOfLock then d.lockLanes q false else d
      let d := d.setPort l fun p => { p with peer := none, preempt := 0 }
      if wasUp then
        (d.setPort l fun p =>
          { p with link := 1, downs := p.downs + 1, changed := d.now, retryAt := some (d.inNs (q.recov * 1000000)) }).linkLost q
      else d
  | none => d

/-- See `linkDown`. -/
def execLinkDown (lane : Nat) (cause : LinkCause) (s : State) : Host.Outcome State Fault Refusal := live (linkDown lane cause) s

/-- The event LINK_RECOVERY_RETRY: RECOV ms have passed without the link, and the lanes start again (15 R372). -/
def linkRecoveryRetry (l : Nat) (d : Dev) : Dev :=
  match d.linkGroup? l, (d.port l).retryAt with
  | some q, some due =>
    if d.portUp l then d else ((d.goCounter due).setPort l fun p => { p with peer := none }).startLanes q
  | _, _ => d

/-- See `linkRecoveryRetry`. -/
def execLinkRecoveryRetry (lane : Nat) (s : State) : Host.Outcome State Fault Refusal := live (linkRecoveryRetry lane) s

/-- The event TRAINING_TIMEOUT on a lane of a group with TRAIN: the group stays down, the failure is counted at the lane, and the
device tries again after RECOV ms (15 R371). -/
def trainingTimeout (l : Nat) (d : Dev) : Dev :=
  match (d.groupOfLane? l).filter fun q => q.train && d.groupLit q with
  | some q =>
    if d.portUp q.lane then d
    else (d.count (ctrLane l 8)).setPort q.lane fun p =>
      { p with link := 1, changed := d.now, retryAt := some (d.inNs (q.recov * 1000000)) }
  | none => d

/-- See `trainingTimeout`. -/
def execTrainingTimeout (lane : Nat) (s : State) : Host.Outcome State Fault Refusal := live (trainingTimeout lane) s

/-- The event PREEMPTION_VERIFY_END: preemption is active, or failed until a verification succeeds (15 R380). -/
def preemptionVerifyEnd (l : Nat) (ok : Bool) (d : Dev) : Dev :=
  match (d.group? l).filter fun q => q.kind == 1 && q.preempt && !q.noVerify && d.portUp l with
  | some _ => d.setPort l fun p => { p with preempt := if ok then 2 else 3 }
  | none => d

/-- See `preemptionVerifyEnd`. -/
def execPreemptionVerifyEnd (lane : Nat) (ok : Bool) (s : State) : Host.Outcome State Fault Refusal := live (preemptionVerifyEnd lane ok) s

end Sys2Proof.Machine
end

