-- ==== Sys2Proof/Machine/Section.lean ====
section
/-!
DEFINITION. Heritage line signals (13 R314 to R318): the framing pattern, scrambling, BIP, the J0 trace, AU and TU pointers, the TU
multiframe and path overhead. Byte places, the scrambler and the pointer coding are those of ITU-T G.707 and G.783, which the manual
names and does not repeat (PRESUMED, log entry 171).
-/
namespace Sys2Proof.Machine

/-! ### Bits and bytes of a frame -/

/-- Ones among the low 16 bits of a number. -/
def onesIn (v : Nat) : Nat := ((List.range 16).filter fun i => bit v i).length

/-- Bytes of an STM-N or STS-3N frame. -/
def frameLen (n : Nat) : Nat := 2430 * n

/-- The framing pattern: the last three A1 bytes and the first three A2 bytes (R314). -/
def framing : Nat := 0xF6F6F6282828

/-- The pattern stands at bit `p`. -/
def patternBit (s : Bytes) (p : Nat) : Bool := beNat (slice s (p / 8) 7) / 2 ^ (8 - p % 8) % 2 ^ 48 == framing

/-- Bit positions, from `pos` on, at which the pattern starts in the next `k` bytes. -/
def patternsFrom : (k : Nat) → Bytes → (pos : Nat) → List Nat
  | 0, _, _ => []
  | k + 1, s, pos => ((List.range 8).filter fun r => patternBit s r).map (fun r => pos + r) ++ patternsFrom k s.tail (pos + 8)

/-- The pattern of a frame that starts at bit `f`. -/
def framed (n : Nat) (s : Bytes) (f : Nat) : Bool := patternBit s (f + 24 * (n - 1))

/-- Every bit position in one frame time at which a frame may start (R314). -/
def frameStarts (n : Nat) (s : Bytes) : List Nat := patternsFrom (frameLen n) (s.drop (3 * (n - 1))) 0

/-- The bytes of the frame that starts at bit `f`. -/
def frameAt (n : Nat) (s : Bytes) (f : Nat) : Bytes :=
  let t := slice s (f / 8) (frameLen n + 1)
  if f % 8 = 0 then t.take (frameLen n) else (t.zip t.tail).map fun p => BitVec.ofNat 8 ((p.1.toNat * 256 + p.2.toNat) / 2 ^ (8 - f % 8))

/-- The 127 bits of the scrambler 1 + x^6 + x^7 from all ones, twice. -/
def scramblerBits : Nat := 0x7F020C28F22CEA7D0E24DADEC697732A * (2 ^ 127 + 1)

/-- The scrambler's byte `j` after the first row of overhead, which is sent as it is. -/
def scramblerByte (j : Nat) : Byte := BitVec.ofNat 8 (scramblerBits / 2 ^ (246 - 8 * j % 127))

/-- A frame scrambled or descrambled. -/
def scramble (n : Nat) (f : Bytes) : Bytes := f.take (9 * n) ++ (f.drop (9 * n)).zipIdx.map fun p => p.1 ^^^ scramblerByte p.2

/-- BIP-8 of bytes. -/
def parity8 (bs : Bytes) : Byte := bs.foldl (fun a b => a ^^^ b) 0#8

/-- BIP-24 of each STM-1 equivalent of a descrambled frame, by columns; the RSOH is left out (Table 13-4). -/
def parity24 (n : Nat) (f : Bytes) : Bytes :=
  (List.range 810).foldl (fun a i => if i < 270 ∧ i % 90 < 3 then a else xorBytes a (slice f (3 * n * i) (3 * n))) (List.replicate (3 * n) 0#8)

/-! ### The J0 trace (Tables 13-3 and 13-4) -/

/-- CRC-7 of G.707 over bytes: x^7 + x^3 + 1. -/
def crc7 (bs : Bytes) : Nat :=
  (bs.flatMap fun b => (List.range 8).map fun i => b.getLsbD (7 - i)).foldl (fun r b =>
    let v := r * 2 % 128
    if bit r 6 = b then v else v ^^^ 9) 0

/-- The 16 bytes of a trace sent: the CRC-7 byte, and 15 characters. -/
def traceBytes (chars : Bytes) : Bytes :=
  let cs := (slice chars 0 15).map fun b => b &&& 0x7F#8
  BitVec.ofNat 8 (128 + crc7 (0x80#8 :: cs)) :: cs

/-- A received J0 byte: a set first bit starts a trace, and a trace is accepted when it has come three times running. -/
def Heritage.hearJ0 (h : Heritage) (b : Byte) : Heritage :=
  let t := if b.getLsbD 7 then [b] else if h.trace.isEmpty then [] else h.trace ++ [b]
  if t.length < 16 then { h with trace := t }
  else
    let ts := (t :: h.traces).take 3
    { h with trace := [], traces := ts, j0 := if ts.length = 3 ∧ ts.all (fun x => x == t) then some (t.drop 1) else h.j0 }

/-! ### Section overhead received (Table 13-4) -/

/-- A window of B2 errors moves on by a frame. It ends when 100 errors would have fallen at the threshold, and shows whether the ratio
lies above 10^-thr or below 10^-(thr + 1) (DESIGN CHOICE, log entry 172). -/
def Ratio.note (r : Ratio) (thr n errors : Nat) : Ratio :=
  let frames := r.frames + 1
  let all := frames * 19224 * n
  let e := r.errors + errors
  if all < 10 ^ (thr + 2) then { r with frames, errors := e }
  else { frames := 0, errors := 0, high := decide (all < e * 10 ^ thr), low := decide (e * 10 ^ (thr + 1) < all) }

/-- What a received frame tells of the section: errors of B1 and B2, and M1. -/
structure SectionRx where
  b1 : Nat
  b2 : Nat
  m1 : Nat
deriving DecidableEq, Repr

/-- Errors between received and computed parity bytes. -/
def parityErrors (a b : Bytes) : Nat := sumBy (xorBytes a b) fun x => onesIn x.toNat

/-- The section overhead of a frame in alignment, descrambled (`g`) and as it came (`f`): B1, B2 and M1 are compared and counted, J0, K2
and S1 noted. -/
def Heritage.section (h : Heritage) (x : HLane) (f g : Bytes) : Heritage × SectionRx :=
  let n := lineN x.mode
  let at' := fun (row col : Nat) => g.getD (270 * n * row + col) 0#8
  let b1 := match h.bip8 with
    | some p => onesIn (p ^^^ at' 1 0).toNat
    | none => 0
  let got := slice g (1080 * n) (3 * n)
  let diff := match h.bip24 with
    | some p => xorBytes p got
    | none => []
  let b2 := sumBy diff fun x => onesIn x.toNat
  let blocks := ((List.range n).filter fun s => [0, 1, 2].any fun k => diff.getD (s + n * k) 0#8 != 0#8).length
  let m1 := (at' 8 (3 * n + 2)).toNat
  let k2 := (at' 4 (6 * n)).toNat % 8
  let run := fun (on : Bool) (v : Nat) => if on then v + 1 else 0
  ({ h.hearJ0 (at' 0 (6 * n)) with
     bip8 := some (parity8 f), bip24 := some (parity24 n g), s1 := at' 8 0, b2Prev := b2
     aisOn := run (k2 == 7) h.aisOn, aisOff := run (k2 != 7) h.aisOff, rdiOn := run (k2 == 6) h.rdiOn, rdiOff := run (k2 != 6) h.rdiOff
     sf := h.sf.note x.sfThr n b2, sd := h.sd.note x.sdThr n b2
     nearRs := h.nearRs + b2n (b1 != 0), nearMs := h.nearMs + blocks, farMs := h.farMs + min m1 n }, ⟨b1, b2, m1⟩)

/-! ### Pointers (R316, R317) -/

/-- A pointer word with NDF, SS and a 10-bit offset. -/
def pointerWord (ndf : Bool) (ss v : Nat) : Nat := (if ndf then 9 else 6) * 4096 + ss % 4 * 1024 + v % 1024

/-- Bits of an offset that an increment inverts, and those that a decrement inverts. -/
def incBits : Nat := 0x2AA
def decBits : Nat := 0x155

/-- A received pointer word. All ones is AIS. An NDF, or the third of equal new pointers, gives a new offset; inverted bits step the
offset. A concatenation indication is an offset beyond the largest, and so invalid (R311; DEDUCED, log entry 173). -/
def Pointer.hear (p : Pointer) (max w : Nat) : Pointer :=
  let v := w % 1024
  let ndf := decide (onesIn (w / 4096 ^^^ 9) ≤ 1)
  let norm := decide (onesIn (w / 4096 ^^^ 6) ≤ 1)
  let run := if p.cand = v ∧ p.eqRun ≠ 0 then p.eqRun + 1 else 1
  let bad := { p with badRun := p.badRun + 1, aisRun := 0, eqRun := 0, ndf := false, step := 0 }
  if w = 0xFFFF then { p with aisRun := p.aisRun + 1, eqRun := 0, badRun := 0, ndf := false, step := 0 }
  else if ndf then
    if v ≤ max then { p with value := some v, cand := v, eqRun := run, badRun := p.badRun + 1, aisRun := 0, ndf := true, step := 0 } else bad
  else if !norm then bad
  else
    let good := { p with cand := v, eqRun := run, badRun := 0, aisRun := 0, ndf := false, step := 0 }
    match p.value with
    | some c =>
      let inc := onesIn ((v ^^^ c) &&& incBits)
      let dec := onesIn ((v ^^^ c) &&& decBits)
      if v = c then good
      else if 3 ≤ inc ∧ dec ≤ 2 then { good with value := some (if c = max then 0 else c + 1), eqRun := 0, step := 1 }
      else if 3 ≤ dec ∧ inc ≤ 2 then { good with value := some (if c = 0 then max else c - 1), eqRun := 0, step := -1 }
      else if max < v then bad
      else if 3 ≤ run then { good with value := some v } else { good with badRun := p.badRun + 1 }
    | none => if max < v then bad else if 3 ≤ run then { good with value := some v } else { good with badRun := p.badRun + 1 }

/-- The next word of an AU pointer sent: offset 0 at the start, and each received justification passed on, with at least three frames
between two (R316). -/
def TxPointer.next (t : TxPointer) (ss : Nat) (step : Int) : TxPointer × Nat :=
  let p := t.pending + step
  if t.wait ≠ 0 ∨ p = 0 then ({ t with pending := p, wait := t.wait - 1 }, pointerWord false ss t.value)
  else if 0 < p then
    ({ value := if t.value = 782 then 0 else t.value + 1, pending := p - 1, wait := 3 }, pointerWord false ss (t.value ^^^ incBits))
  else ({ value := if t.value = 0 then 782 else t.value - 1, pending := p + 1, wait := 3 }, pointerWord false ss (t.value ^^^ decBits))

/-- Bytes of a tributary unit in a frame after its V byte, by level. -/
def tuBytes (level : Nat) : Nat := if level = 3 then 26 else 35

/-- The TU pointer sent when V1 falls: unchanged, a step on from the last one, or a new one with NDF. -/
def tuPointer (level : Nat) (last : Option Nat) (v : Nat) : Nat :=
  let ss := if level = 3 then 3 else 2
  let m := 4 * tuBytes level
  match last with
  | none => pointerWord false ss v
  | some s =>
    if v = s then pointerWord false ss v
    else if v = (s + 1) % m then pointerWord false ss (s ^^^ incBits)
    else if s = (v + 1) % m then pointerWord false ss (s ^^^ decBits)
    else pointerWord true ss v

/-! ### The TU multiframe (R317, R319) -/

/-- A received H4 byte: it tells the phase of the frame after its own. After a slip the phase is taken as it comes. -/
def Multi.hear (x : Multi) (h4 : Byte) : Multi :=
  let p := (h4.toNat + 3) % 4
  match x.phase with
  | none => { x with phase := some p, relearn := false }
  | some q =>
    if x.relearn then { x with phase := some p, relearn := false }
    else if p = (q + 1) % 4 then { x with phase := some p, goodRun := x.goodRun + 1, badRun := 0 }
    else { x with phase := some p, badRun := x.badRun + 1, goodRun := 0 }

/-! ### Path overhead (R316, R333) -/

/-- Columns of a high-order container: its path overhead stands in the first. -/
def pathWidth (level : Nat) (sonet : Bool) : Nat := if level = 0 then 261 else if sonet then 87 else 85

/-- A high-order container: B3 against the container before, C2, and the far end's REI and RDI in G1. -/
def PathMon.hearVc (m : PathMon) (w : Nat) (content : Bytes) : PathMon :=
  let at' := fun (row : Nat) => content.getD (w * row) 0#8
  let near := match m.bip with
    | some p => b2n (p != at' 1)
    | none => 0
  let g1 := (at' 3).toNat
  let uneq := at' 2 == 0#8
  { bip := some (parity8 content), near := m.near + near, far := m.far + b2n (within (g1 / 16) 1 8), rdi := m.rdi || bit g1 3
    uneqRun := if uneq then m.uneqRun + 1 else 0, eqRun := if uneq then 0 else m.eqRun + 1 }

/-- BIP-2 of the bytes whose BIP-8 is `v`. -/
def bip2 (v : Nat) : Nat :=
  let a := v / 16 ^^^ v % 16
  a / 4 ^^^ a % 4

/-- One frame of a tributary unit in phase `k`, with the pointer's offset `v`: at V5 the BIP-2 of the virtual container before is
compared, and the label, REI and RDI are read. -/
def PathMon.hearTu (m : PathMon) (n k v : Nat) (content : Bytes) : PathMon :=
  let bs := content.drop 1
  let old := m.bip.getD 0#8
  if (1 + v / n) % 4 ≠ k then { m with bip := m.bip.map fun p => p ^^^ parity8 bs }
  else
    let v5 := (bs.getD (v % n) 0#8).toNat
    let near := match m.bip with
      | some _ => b2n (bip2 (old ^^^ parity8 (bs.take (v % n))).toNat != v5 / 64)
      | none => 0
    let uneq := v5 / 2 % 8 == 0
    { bip := some (parity8 (bs.drop (v % n))), near := m.near + near, far := m.far + b2n (bit v5 5), rdi := m.rdi || bit v5 0
      uneqRun := if uneq then m.uneqRun + 1 else 0, eqRun := if uneq then 0 else m.eqRun + 1 }

end Sys2Proof.Machine
end

