-- ==== Sys2Proof/Machine/Gateway.lean ====
section
/-!
DEFINITION. The TDM gateway (13): heritage lanes and slip buffers, the time-slot interchange, frame-locked circuits, performance
monitoring.
-/
namespace Sys2Proof.Machine

/-! ### Address forms and sizes -/

/-- The fields of an address lie in the ranges of Table 13-6, and those that its KIND and level do not use are 0 (R321). `line` allows
AU 0, which names the lane. -/
def addrForm (a : Nat) (src line : Bool) : Bool :=
  let lv := adLevel a
  bits a 7 1 == 0 && (!src || !bit a 0) &&
  match adKind a with
  | 1 =>
    (within (adAu a) 1 16 &&
      (if lv = 0 then adK a == 0 else within (adK a) 1 3) &&
      (if lv ≤ 1 then adL a == 0 && adM a == 0 else within (adL a) 1 7 && within (adM a) 1 (if lv = 2 then 3 else 4)))
    || (line && adAu a == 0 && lv == 0 && adK a == 0 && adL a == 0 && adM a == 0)
  | 2 => bits a 15 8 == 0
  | 0 | 3 | 4 => src && bits a 27 8 == 0
  | _ => false

/-- Bytes of a container or TU: 36 and 27 are the manual's, the others those of G.707. -/
def contentSize (level : Nat) (sonet : Bool) : Nat :=
  match level with
  | 0 => 2349
  | 1 => if sonet then 783 else 765
  | 2 => 36
  | _ => 27

/-- AIS: all ones. -/
def aisOf (n : Nat) : Bytes := List.replicate n 0xFF#8

/-! ### HERITAGE_LANE_SET, TSI_CONN_SET, CIRCUIT_SET (R312, R322, R326) -/

/-- `HERITAGE_LANE_SET`. -/
def cmdHeritageLaneSet : CmdDef :=
  versionedCmd 0x0C01 false (fun p => slice p 0 1) noRemoval (fun _ => true) fun p =>
    decide (ent p 16 1 ≤ 31) && decide (ent p 17 1 ≤ 6) && decide (ent p 18 1 ≤ 1) && decide (ent p 19 1 ≤ 3)
    && within (ent p 20 1) 5 9 && within (ent p 21 1) 3 5 && zeros 16 p [(22, 24), (40, 40), (56, 63)]

/-- The command `HERITAGE_LANE_SET`. -/
def execHeritageLaneSet (p : Packet) (s : State) : Host.Outcome State Fault Refusal := command cmdHeritageLaneSet p s

/-- Entries of a connection buffer: DEST and SRC. -/
def connEntries (p : Bytes) : List (Nat × Nat) :=
  (List.range (field p 2 2)).map fun i => (field p (8 + 8 * i) 4, field p (12 + 8 * i) 4)

/-- `TSI_CONN_SET`: each connection is an object of its own (02 R60). -/
def cmdTsiConnSet : CmdDef where
  op := 0x0C02
  kind := fun _ _ _ => .versioned
  buffer := true
  form := fun p =>
    decide (field p 0 1 ≤ 1) && decide (field p 1 1 ≤ 1) && decide (field p 2 2 ≤ 8191) && allZero (slice p 4 4)
    && ((connEntries p).all fun e => (adKind e.1 == 1 || adKind e.1 == 2) && addrForm e.1 false false && addrForm e.2 true false)
    && allZero (p.drop (8 + 8 * field p 2 2))
  run := fun e d =>
    let page := slice e.par 0 1
    d.stage e fun objs =>
      let objs := if bit (field e.par 1 1) 0 then objs.filter fun o => !(o.op == 0x0C02 && slice o.key 0 1 == page) else objs
      (connEntries e.par).foldl (fun objs c =>
        let key := page ++ beBytes 4 c.1
        if adKind c.2 = 0 then delObj objs 0x0C02 key
        else putObj objs ⟨0x0C02, key, page ++ [0#8, 0#8, 0#8] ++ beBytes 4 c.1 ++ beBytes 4 c.2⟩) objs

/-- The command `TSI_CONN_SET`. -/
def execTsiConnSet (p : Packet) (s : State) : Host.Outcome State Fault Refusal := command cmdTsiConnSet p s

/-- `CIRCUIT_SET`; FLAGS bit 0 removes the circuit. -/
def cmdCircuitSet : CmdDef :=
  { versionedCmd 0x0C04 false (fun p => slice p 0 2) (fun p => bit (ent p 21 1) 0)
      (fun p => decide (ent p 16 2 ≤ 4095) && decide (ent p 21 1 ≤ 1) && zeros 16 p [(28, 63)]) fun p =>
        decide (ent p 16 2 ≤ 4095) && decide (ent p 18 2 ≤ 24575) && within (ent p 20 1) 2 3 && decide (ent p 21 1 ≤ 1)
        && (ent p 24 2 != 0xFFFF || ent p 26 2 == 0xFFFF) && zeros 16 p [(28, 63)] with
    names := fun _ p => [.terminal (ent p 18 2)] }

/-- The command `CIRCUIT_SET`. -/
def execCircuitSet (p : Packet) (s : State) : Host.Outcome State Fault Refusal := command cmdCircuitSet p s

/-! ### TSI_PAGE_SWAP (R324) -/

/-- A commit that changes the standby page is armed. -/
def Dev.commitMovesPage (d : Dev) : Bool :=
  match d.vers.commit with
  | some c =>
    (match c.phase with
      | .armed _ => true
      | _ => false) && pageObjs d.objs (1 - d.tdm.page) != pageObjs d.vers.openObjs (1 - d.tdm.page)
  | none => false

/-- `TSI_PAGE_SWAP`. -/
def cmdTsiPageSwap : CmdDef where
  op := 0x0C03
  frameBound := true
  form := fun p => decide (ent p 16 1 ≤ 1) && zeros 16 p [(17, 63)]
  bad := fun _ e => if Packet.atBeacon e.pkt then none else some []
  forbid := fun d e =>
    let page := ent e.par 16 1
    if d.tdm.page = page ∨ (pageObjs d.objs page).isEmpty ∨ d.commitMovesPage
        ∨ d.armedSwap?.any (fun x => !(x.dom == e.dom && x.seq == e.seq)) then some (.conflict, []) else none
  run := fun e d =>
    let page := ent e.par 16 1
    { d with tdm := { d.tdm with page } }.finish e .done [(e.stamp.getD d.now) % 2 ^ 32, page]

/-- The command `TSI_PAGE_SWAP`. -/
def execTsiPageSwap (p : Packet) (s : State) : Host.Outcome State Fault Refusal := command cmdTsiPageSwap p s

/-! ### Heritage receive lanes (R314 to R319) -/

/-- State of a lane. -/
def Dev.hl (d : Dev) (l : Nat) : Heritage := d.tdm.lanes.getD l {}

/-- Changes a lane's state. -/
def Dev.setHl (d : Dev) (l : Nat) (f : Heritage → Heritage) : Dev :=
  { d with tdm := { d.tdm with lanes := d.tdm.lanes.put l (f (d.hl l)) } }

/-- One frame time's alignment in the bits of it and of the one before (R314, R315): in frame, 4 consecutive errored patterns lose it; out
of frame, the first candidate that recurs one frame length later is confirmed. The first search after a loss tests the old position
first. -/
def Heritage.align (h : Heritage) (n : Nat) (s : Bytes) : Heritage :=
  if h.inFrame then
    if framed n s h.position then { h with badRun := 0 }
    else if h.badRun + 1 < 4 then { h with badRun := h.badRun + 1 }
    else { h with inFrame := false, badRun := 0, candidate := [], left := true, defects := h.defects ||| 2#8, seen := h.seen ||| 2#8 }
  else
    let found := frameStarts n s
    match h.candidate.find? fun c => found.contains c with
    | some c => { h with inFrame := true, position := c, badRun := 0, candidate := [], left := false, fresh := true, defects := h.defects &&& 0xFD#8 }
    | none =>
      { h with left := false
               candidate := if h.left then found.filter (fun c => c == h.position) ++ found.filter (fun c => c != h.position) else found }

/-- A frame time has passed: the bits are kept, and the runs of Table 13-5 go on. -/
def Heritage.elapse (h : Heritage) (bs : Bytes) : Heritage :=
  let moves := bs.any (fun b => b != 0#8) && bs.any (fun b => b != 0xFF#8)
  { h with prev := bs, outRun := if h.inFrame then 0 else h.outRun + 1, inRun := if h.inFrame then h.inRun + 1 else 0
           losRun := if moves then h.losRun + 1 else 0 }

/-- A frame that has passed framing and section checks enters the slip buffer of four frames. -/
def Heritage.store (h : Heritage) (payload : List (Nat × Bytes)) (steps : List (Nat × Int)) (c : Nat) : Heritage :=
  let buf := h.buffer ++ [{ num := h.count, payload, steps }]
  { h with buffer := buf.drop (buf.length - 4), count := h.count + 1, lastReady := c }

/-- The AUs of a lane, each with the column of its H1 byte. -/
def laneAus (x : HLane) (l : Nat) : List (Nat × Nat) :=
  let n := lineN x.mode
  (List.range n).flatMap fun i =>
    if x.au3 then (List.range 3).map fun k => (laneAddr l 1 (i + 1) (k + 1) 0 0, i + n * k) else [(laneAddr l 0 (i + 1) 0 0 0, i)]

/-- The AU pointers of a descrambled frame are interpreted; the second part gives their justifications. -/
def Dev.hearAus (d : Dev) (x : HLane) (l : Nat) (g : Bytes) : Dev × List (Nat × Int) :=
  let n := lineN x.mode
  (laneAus x l).foldl (fun (r : Dev × List (Nat × Int)) a =>
    let w := (g.getD (810 * n + a.2) 0#8).toNat * 256 + (g.getD (813 * n + a.2) 0#8).toNat
    let p := (r.1.tdm.ptrs.getD a.1 ({} : Pointer)).hear 782 w
    ({ r.1 with tdm := { r.1.tdm with ptrs := r.1.tdm.ptrs.put a.1 p } }, if p.step = 0 then r.2 else r.2 ++ [(a.1, p.step)])) (d, [])

/-- A frame in alignment: section checks, AU pointers, and the slip buffer. -/
def Dev.heritageFrame (d : Dev) (l : Nat) (s : Bytes) (payload : List (Nat × Bytes)) : Dev :=
  let x := hlane d.objs l
  let n := lineN x.mode
  let f := frameAt n s (d.hl l).position
  let g := scramble n f
  let (h, rx) := (d.hl l).section x f g
  let d := (((d.setHl l fun _ => h).countBy (ctrHeritage l 1) rx.b1).countBy (ctrHeritage l 2) rx.b2).countBy (ctrHeritage l 3) rx.m1
  let (d, steps) := d.hearAus x l g
  d.setHl l fun h => h.store payload steps d.time.c

/-- The event HERITAGE_FRAME_RECEIVE: one frame time of a lane. -/
def heritageFrameReceive (rx : HeritageRx) (d : Dev) : Dev :=
  let l := rx.lane
  let n := lineN (hlane d.objs l).mode
  if (hlane d.objs l).mode = 0 ∨ 31 < l then d
  else
    let bs := slice rx.bits 0 (frameLen n)
    let s := slice (d.hl l).prev 0 (frameLen n) ++ bs
    let d := d.setHl l fun h => (h.align n s).elapse bs
    if (d.hl l).inFrame then d.heritageFrame l s rx.payload else d

/-- See `heritageFrameReceive`. -/
def execHeritageFrameReceive (rx : HeritageRx) (s : State) : Host.Outcome State Fault Refusal := live (heritageFrameReceive rx) s

/-! ### Defects (R318) -/

/-- The accepted J0 equals J0EXP. -/
def Dev.j0Equal (d : Dev) (l : Nat) : Bool := (d.hl l).j0 == some (slice (hlane d.objs l).j0exp 0 15)

/-- A connection of the active page monitors the source (R316). -/
def Dev.monSource (d : Dev) (a : Nat) : Bool := (pageObjs d.objs d.tdm.page).any fun c => bit c.1 0 && c.2 == a

/-- Pointer, multiframe and path overhead received at an address. -/
def Dev.pointer (d : Dev) (a : Nat) : Pointer := d.tdm.ptrs.getD a {}
def Dev.multi (d : Dev) (a : Nat) : Multi := d.tdm.multis.getD a {}
def Dev.path (d : Dev) (a : Nat) : PathMon := d.tdm.paths.getD a {}

/-- A defect meets its condition of Table 13-5, with its persistence. What 100 µs without a transition means for LOS is the row's own
instant. LOF persists for 3 ms, 24 frames. -/
def Dev.defectShows (d : Dev) (a b : Nat) : Bool :=
  let l := adLane a
  let h := d.hl l
  match b with
  | 0 => true
  | 1 => !h.inFrame
  | 2 => decide (24 ≤ h.outRun)
  | 3 => (hlane d.objs l).timChk && h.j0.isSome && !d.j0Equal l
  | 4 => decide (3 ≤ h.aisOn)
  | 5 => decide (5 ≤ h.rdiOn)
  | 6 => h.sf.high
  | 7 => h.sd.high
  | 8 | 12 => decide (8 ≤ (d.pointer a).badRun)
  | 9 | 13 => decide (3 ≤ (d.pointer a).aisRun)
  | 11 => decide (8 ≤ (d.multi a).badRun)
  | _ => d.monSource a && decide (5 ≤ (d.path a).uneqRun)

/-- A defect meets its clearing condition of Table 13-5. -/
def Dev.defectGone (d : Dev) (a b : Nat) : Bool :=
  let l := adLane a
  let h := d.hl l
  match b with
  | 0 => decide (2 ≤ h.losRun)
  | 1 => h.inFrame
  | 2 => decide (24 ≤ h.inRun)
  | 3 => !(hlane d.objs l).timChk || d.j0Equal l
  | 4 => decide (3 ≤ h.aisOff)
  | 5 => decide (5 ≤ h.rdiOff)
  | 6 => h.sf.low
  | 7 => h.sd.low
  | 8 | 12 => decide (3 ≤ (d.pointer a).eqRun)
  | 9 => (d.pointer a).ndf || decide (3 ≤ (d.pointer a).eqRun)
  | 13 => decide (1 ≤ (d.pointer a).eqRun)
  | 11 => decide (8 ≤ (d.multi a).goodRun)
  | _ => !d.monSource a || decide (5 ≤ (d.path a).eqRun)

/-- Changes a defect bit: bits 0 to 7 of the lane, bits 8 to 14 of the AU or TU. LOS starts a new run of frames with transitions. -/
def Dev.setDefect (d : Dev) (a b : Nat) (on : Bool) : Dev :=
  if b < 8 then
    d.setHl (adLane a) fun h =>
      let m := (1#8 : Byte) <<< b
      { h with defects := if on then h.defects ||| m else h.defects &&& ~~~m, seen := if on then h.seen ||| m else h.seen
               losRun := if b = 0 then 0 else h.losRun }
  else
    let k := noMon a
    let v := d.tdm.defects.getD k 0
    let put := fun (t : Tbl Nat) (v : Nat) => if v = 0 then t.del k else t.put k v
    { d with tdm := { d.tdm with
        defects := put d.tdm.defects (if bit v b = on then v else if on then v + 2 ^ b else v - 2 ^ b)
        seen := if on then put d.tdm.seen (d.tdm.seen.getD k 0 ||| 2 ^ b) else d.tdm.seen } }

/-- The event HERITAGE_DEFECT_DETECT: a defect that meets its persistence sets its bit. -/
def heritageDefectDetect (a b : Nat) (d : Dev) : Dev :=
  let x := hlane d.objs (adLane a)
  if adKind a ≠ 1 ∨ x.mode = 0 ∨ 14 < b ∨ (8 ≤ b ∧ !x.has a) ∨ !d.defectShows (noMon a) b then d else d.setDefect a b true

/-- See `heritageDefectDetect`. -/
def execHeritageDefectDetect (addr bit : Nat) (s : State) : Host.Outcome State Fault Refusal := live (heritageDefectDetect addr bit) s

/-- The event HERITAGE_DEFECT_CLEAR: a defect that meets its clearing condition loses its bit. -/
def heritageDefectClear (a b : Nat) (d : Dev) : Dev :=
  if adKind a ≠ 1 ∨ 14 < b ∨ !d.defectGone (noMon a) b then d else d.setDefect a b false

/-- See `heritageDefectClear`. -/
def execHeritageDefectClear (addr bit : Nat) (s : State) : Host.Outcome State Fault Refusal := live (heritageDefectClear addr bit) s

/-! ### The gateway frame (R313, R319, R328 to R332) -/

/-- A lane's read of its slip buffer for a gateway frame, and whether a slip falls. A lane out of frame is read too, and repeats its last
frame (log entry 89). -/
def Heritage.read (h : Heritage) (c : Nat) : Heritage × Bool :=
  let fill := h.buffer.length * frameNs + min (c - h.lastReady) (frameNs - 1)
  let h := { h with fill := if h.buffer.isEmpty ∧ h.lastRead.isNone then 0 else fill, again := h.buffer.isEmpty }
  match h.buffer with
  | [] => (h, h.lastRead.isSome)
  | x :: rest =>
    if h.fresh then ({ h with lastRead := h.buffer.getLast?, buffer := [], fresh := false }, false)
    else if 3 ≤ h.buffer.length then ({ h with lastRead := rest.head?, buffer := rest.drop 1 }, true)
    else ({ h with lastRead := some x, buffer := rest }, false)

/-- The container in which H4 shows a TU's multiframe. -/
def vcOf (x : HLane) (a : Nat) : Nat :=
  if x.au3 then laneAddr (adLane a) 1 (adAu a) (adK a) 0 0 else laneAddr (adLane a) 0 (adAu a) 0 0 0

/-- The address names a container that an AU pointer places. -/
def isAu (x : HLane) (a : Nat) : Bool := adLevel a == if x.au3 then 1 else 0

/-- A high-order container as it is read: its H4 and its path overhead. -/
def Dev.hearAu (d : Dev) (x : HLane) (a : Nat) (content : Bytes) : Dev :=
  let w := pathWidth (adLevel a) (decide (4 ≤ x.mode))
  { d with tdm := { d.tdm with
      multis := d.tdm.multis.put a ((d.multi a).hear (content.getD (5 * w) 0#8))
      paths := d.tdm.paths.put a ((d.path a).hearVc w content) } }

/-- A tributary unit in phase `k`: V1 and V2 give its pointer, and a monitored one its path overhead. -/
def Dev.hearTu (d : Dev) (a level k : Nat) (content : Bytes) : Dev :=
  let n := tuBytes level
  let v := (content.headD 0#8).toNat
  let p := d.pointer a
  let p := if k = 0 then { p with v1 := v, step := 0 } else if k = 1 then p.hear (4 * n - 1) (p.v1 * 256 + v) else p
  let m := if d.monSource a then d.tdm.paths.put a ((d.path a).hearTu n k (p.value.getD 0) content) else d.tdm.paths
  { d with tdm := { d.tdm with ptrs := d.tdm.ptrs.put a p, paths := m } }

/-- A VC-3 in a TU-3: its pointer stands in the first column of its TUG-3 in the VC-4. -/
def Dev.hearTu3 (d : Dev) (a : Nat) (vc4 content : Bytes) : Dev :=
  let w := (vc4.getD (2 + adK a) 0#8).toNat * 256 + (vc4.getD (263 + adK a) 0#8).toNat
  let m := if d.monSource a then d.tdm.paths.put a ((d.path a).hearVc 85 content) else d.tdm.paths
  { d with tdm := { d.tdm with ptrs := d.tdm.ptrs.put a ((d.pointer a).hear 764 w), paths := m } }

/-- The containers of the frame that a lane has read: high-order ones first, then what they carry (R316, R317). -/
def Dev.hearLane (d : Dev) (l : Nat) : Dev :=
  let x := hlane d.objs l
  let all := ((d.hl l).lastRead.map SlipFrame.payload).getD []
  let d := (all.filter fun c => x.has c.1 && isAu x c.1).foldl (fun d c => d.hearAu x c.1 c.2) d
  (all.filter fun c => x.has c.1 && !isAu x c.1).foldl (fun d c =>
    if adLevel c.1 = 1 then d.hearTu3 c.1 ((all.lookup (vcOf x c.1)).getD []) c.2
    else match (d.multi (vcOf x c.1)).phase with
      | some k => d.hearTu c.1 (adLevel c.1) k c.2
      | none => d) d

/-- After a slip every H4 phase of the lane is learnt anew (R319). -/
def Dev.relearn (d : Dev) (l : Nat) : Dev :=
  { d with tdm := { d.tdm with multis := d.tdm.multis.mapAll fun a (x : Multi) => if adLane a = l then { x with relearn := true } else x } }

/-- Every lane in use reads its slip buffer. -/
def Dev.readLanes (d : Dev) : Dev :=
  ((List.range 32).filter fun l => (hlane d.objs l).mode != 0).foldl (fun d l =>
    let r := (d.hl l).read d.time.c
    let d := d.setHl l fun _ => r.1
    let d := if r.2 then
        (({ d with tdm := { d.tdm with slips := d.tdm.slips.put l (d.tdm.slips.getD l 0 + 1) } } : Dev).count (ctrHeritage l 0)).relearn l
      else d
    d.hearLane l) d

/-- AIS replaces a container at the TSI input: a defect of its lane, of its AU or VC, or of the TU itself. -/
def Dev.aisAt (d : Dev) (a : Nat) : Bool :=
  let au := vcOf (hlane d.objs (adLane a)) a
  let v := d.tdm.defects.getD au 0
  (d.hl (adLane a)).defects &&& 0x1D#8 != 0#8 || bit v 8 || bit v 9 || (a != au && bit v 11)
  || (a != au && (bit (d.tdm.defects.getD a 0) 12 || bit (d.tdm.defects.getD a 0) 13))

/-- Content that a source of the interchange has for gateway frame `m`; none where AIS or the unequipped signal takes its place. -/
def Dev.sourceContent? (d : Dev) (m src : Nat) : Option Bytes :=
  match adKind src with
  | 1 => if d.aisAt src then none else ((d.hl (adLane src)).lastRead.bind fun f => f.payload.find? fun c => c.1 == src).map Prod.snd
  | 2 => ((d.tdm.circs.find? (adCirc src)).bind fun c => c.content.find? fun x => x.1 == m).map Prod.snd
  | _ => none

/-- Multiframe phase of a tributary source in gateway frame `m`. -/
def Dev.sourcePhase (d : Dev) (m src : Nat) : Nat :=
  if adKind src = 2 then (((d.tdm.circs.find? (adCirc src)).bind fun c => c.phases.lookup m)).getD (m % 4)
  else ((d.multi (vcOf (hlane d.objs (adLane src)) src)).phase).getD (m % 4)

/-- A tributary unit with its pointer regenerated: V1 falls in each gateway frame whose number is a multiple of 4, so the offset moves by
the phase difference (R317; DEDUCED, log entry 174). The second part is what is kept of the pointer sent: offset and word. -/
def Dev.regenTu (d : Dev) (m dest src level : Nat) (content : Bytes) : Bytes × Nat :=
  let n := tuBytes level
  let k := m % 4
  let p := d.sourcePhase m src
  let v := ((d.pointer src).value.getD 0 + (k + 4 - p) % 4 * n) % (4 * n)
  let kept := d.tdm.tuSent.find? dest
  let word := if k = 0 ∨ kept.isNone then tuPointer level (kept.map fun w => w / 65536) v else kept.getD 0 % 65536
  let off := if k = 0 ∨ kept.isNone then v else kept.getD 0 / 65536
  let vByte : Byte := match k with
    | 0 => BitVec.ofNat 8 (word / 256)
    | 1 => BitVec.ofNat 8 word
    | _ => if p = k then content.headD 0#8 else 0#8
  (vByte :: content.drop 1, off * 65536 + word)

/-- One output of the interchange for gateway frame `m`, with what is kept of its TU pointer. -/
def Dev.tsiOutput (d : Dev) (m : Nat) (c : Nat × Nat) : (Nat × Bytes) × Option Nat :=
  let dest := noMon c.1
  let level := if adKind c.1 = 2 then (((circuits d.objs).find? fun x => x.circ == adCirc c.1).map CircCfg.level).getD 2 else adLevel c.1
  let size := contentSize level (adKind c.1 == 1 && decide (4 ≤ (hlane d.objs (adLane c.1)).mode))
  match d.sourceContent? m c.2 with
  | some b =>
    if level < 2 then ((dest, b), none)
    else
      let r := d.regenTu m dest c.2 level b
      ((dest, r.1), some r.2)
  | none => ((dest, if adKind c.2 = 4 then List.replicate size 0#8 else aisOf size), none)

/-- Outputs of a gateway frame under the active page (R321). -/
def Dev.tsiOutputs (d : Dev) (m : Nat) : List (Nat × Bytes) := (pageObjs d.objs d.tdm.page).map fun c => (d.tsiOutput m c).1

/-- SS bits sent in H1 (Table 13-2). -/
def HLane.ss (x : HLane) : Nat := if x.mode ≤ 3 then 2 else 0

/-- Justification of a container that an AU sends on: that of the AU it comes from, when a new frame was read (R316). -/
def Dev.passedStep (d : Dev) (dest : Nat) : Int :=
  match (pageObjs d.objs d.tdm.page).find? fun c => noMon c.1 == dest with
  | some c =>
    let h := d.hl (adLane c.2)
    if adKind c.2 ≠ 1 ∨ h.again then 0 else ((h.lastRead.bind fun f => f.steps.lookup c.2)).getD 0
  | none => 0

/-- The AU pointers that go with a gateway frame. -/
def Dev.sendPointers (d : Dev) : Dev × List (Nat × Nat) :=
  ((List.range 32).flatMap fun l => (laneAus (hlane d.objs l) l).map Prod.fst).foldl (fun (r : Dev × List (Nat × Nat)) a =>
    let (t, w) := (r.1.tdm.txPtrs.getD a ({} : TxPointer)).next (hlane d.objs (adLane a)).ss (d.passedStep a)
    ({ r.1 with tdm := { r.1.tdm with txPtrs := r.1.tdm.txPtrs.put a t } }, r.2 ++ [(a, w)])) (d, [])

/-- The interchange for gateway frame `m`: containers, AU pointers and H4, kept for the frames that carry them. -/
def Dev.interchange (d : Dev) (m : Nat) : Dev :=
  let cs := pageObjs d.objs d.tdm.page
  let kept := cs.foldl (fun (t : Tbl Nat) c =>
    match (d.tsiOutput m c).2 with
    | some w => t.put (noMon c.1) w
    | none => t) d.tdm.tuSent
  let low := cs.filter fun c => adKind c.1 == 1 && decide (2 ≤ adLevel c.1)
  let h4 := distinct (low.map fun c => (vcOf (hlane d.objs (adLane c.1)) c.1, (m + 1) % 4))
  let (e, ptrs) := d.sendPointers
  { e with tdm := { e.tdm with tuSent := kept, outputs := (⟨m, d.tsiOutputs m, ptrs, h4⟩ :: e.tdm.outputs).take 3 } }

/-- A circuit's terminal is in RANGED, OPERATING or LOST. -/
def Dev.circLive (d : Dev) (c : CircCfg) : Bool :=
  match d.term? c.term with
  | some t => t.valid
  | none => false

/-- One gateway frame of an upstream circuit: good, or TU-AIS taken and counted (R332). -/
def Circ.note (c : Circ) (good : Bool) : Circ :=
  let c := if good then { c with goodRun := c.goodRun + 1, lossRun := 0 } else { c with lossRun := c.lossRun + 1, goodRun := 0 }
  { c with alarm := if 3 ≤ c.lossRun then true else if 3 ≤ c.goodRun then false else c.alarm }

/-- The upstream circuits' inputs for gateway frame `m`: content of a terminal that is not active is given up; a TU's pointer and path
overhead are read. -/
def Dev.circInputs (d : Dev) (m : Nat) : Dev :=
  ((circuits d.objs).filter fun c => c.upPort != 0xFFFF).foldl (fun d c =>
    let x : Circ := d.tdm.circs.getD c.circ {}
    let tu := (x.content.find? fun y => y.1 == m).filter fun _ => d.circLive c
    let x := (if tu.isSome then x else { x with content := x.content.filter fun y => y.1 != m }).note tu.isSome
    let x := { x with content := x.content.filter fun y => decide (m ≤ y.1), phases := x.phases.filter fun y => decide (m ≤ y.1) }
    let d := { d with tdm := { d.tdm with circs := d.tdm.circs.put c.circ x } }
    match tu with
    | some y => d.hearTu (circAddr c.circ) c.level (d.sourcePhase m (circAddr c.circ)) y.2
    | none => d.count (ctrCirc c.circ)) d

/-- M1: the received B2 errors of the previous frame, saturating (Table 13-4). -/
def m1Of (mode b2 : Nat) : Nat := min b2 (match lineN mode with
  | 1 => 24
  | 4 => 96
  | _ => 255)

/-- The section overhead of a lane's frame for the outputs of a gateway frame (R316, Table 13-4). -/
def Dev.sectionOut (d : Dev) (l : Nat) (o : TsiFrame) : SectionOut :=
  let x := hlane d.objs l
  let h := d.hl l
  { j0 := (traceBytes x.j0tx).getD (o.frame % 16) 0#8, b1 := h.txB1, b2 := h.txB2
    k2 := if h.defects &&& 0x15#8 != 0#8 then 6 else 0
    s1 := if x.ssmTx then d.timeQl else 15
    m1 := m1Of x.mode h.b2Prev
    ptrs := o.ptrs.filter fun p => adLane p.1 == l
    h4 := o.h4.filter fun p => adLane p.1 == l }

/-- The bytes that an overhead stands for, in the order of `Config.stmFrame`. -/
def SectionOut.flat (x : SectionOut) : List Nat :=
  [x.a1.toNat, x.a2.toNat, x.j0.toNat, x.b1.toNat, x.zero.toNat, x.k2, x.s1, x.m1] ++ x.b2.map BitVec.toNat ++ x.ptrs.map Prod.snd ++ x.h4.map Prod.snd

/-- Each lit lane sends the frame of gateway frame m − 1 (R313, R316); B1 and B2 of the next one follow from it. -/
def Dev.sendHeritage (d : Dev) (o : TsiFrame) : Dev :=
  if d.htxDark then d
  else
    ((List.range 32).filter fun l => (hlane d.objs l).mode != 0).foldl (fun d l =>
      let n := lineN (hlane d.objs l).mode
      let sec := d.sectionOut l o
      let conts := o.conts.filter fun c => adKind c.1 == 1 && adLane c.1 == l
      let f := Config.stmFrame n sec.flat conts
      (d.emit (.heritage l sec conts)).setHl l fun h => { h with txB1 := parity8 (scramble n f), txB2 := parity24 n f }) d

/-- A circuit position's content: the circuit header, the TU, and the pad of a VT1.5 (R327). -/
def circPosition (level m : Nat) (tu : Bytes) : Bytes :=
  beBytes 1 (m % 4) ++ [0#8, 0#8, 0#8] ++ if level = 2 then slice tu 0 36 else slice tu 0 27 ++ [0#8]

/-- One circuit's position in downstream frame m + 2: sent while its terminal is active and the link is up, encrypted with the
terminal's CTR key of the index in force in that frame (R327, 11 R273). A circuit that the page connects to nothing carries open
content. -/
def Dev.sendCircuit (d : Dev) (g m : Nat) (c : CircCfg) (outs : List (Nat × Bytes)) : Dev :=
  if !d.circLive c ∨ !d.chanLink g then d
  else
    let a := circAddr c.circ
    let tu := ((outs.find? fun o => o.1 == a).map Prod.snd).getD (List.replicate 36 (Config.idleContent a))
    let s := 2 * c.term + ((d.term? c.term).map fun t => d.indexNow t.activeKey t.keySwitch).getD 0
    let k := d.key s
    if k.ctrSpent then d.count (ctrChan g 10)
    else if !k.ctr then d.count (ctrChan g 9)
    else
      let pos := (d.chan g).phyPos + 8
      let d := (d.useSlot s k.ctrKey).setChan g fun x => { x with phyPos := x.phyPos + c.size }
      d.emit (.circuit g c.dnPort (s % 2 + 1) (Config.ctrCrypt (d.mode g) k.ctrKey (d.superframe d.time.frame) pos (circPosition c.level m tu)))

/-- Circuit positions of the downstream frames that start now (R328, R329). -/
def Dev.sendCircuits (d : Dev) (m : Nat) (outs : List (Nat × Bytes)) : Dev :=
  (circuits d.objs).foldl (fun d c =>
    match d.termChan? c.term with
    | some g => d.sendCircuit g m c outs
    | none => d) d

/-- Outputs kept for a gateway frame. -/
def Tdm.outputsOf (t : Tdm) (m : Nat) : TsiFrame := (t.outputs.find? fun o => o.frame == m).getD ⟨m, [], [], []⟩

/-- The gateway at frame instant `m`: slip-buffer reads, circuit inputs, the interchange, and what leaves. -/
def Dev.gatewayFrame (d : Dev) (m : Nat) : Dev :=
  let d := (d.readLanes.circInputs m).interchange m
  (d.sendHeritage (d.tdm.outputsOf (m - 1))).sendCircuits (m - 2) (d.tdm.outputsOf (m - 2)).conts

/-! ### HERITAGE_STATUS (R337) -/

/-- `HERITAGE_STATUS`. -/
def cmdHeritageStatus : CmdDef where
  op := 0x0C05
  read := true
  form := fun p => adKind (ent p 16 4) == 1 && !bit (ent p 16 4) 0 && addrForm (ent p 16 4) false true && zeros 16 p [(20, 63)]
  run := fun e d =>
    let a := ent e.par 16 4
    let h := d.hl (adLane a)
    let under := if adAu a = 0 then 0 else d.tdm.defects.getD (noMon a) 0
    d.finish e .done [h.defects.toNat + under, sat 32 (d.tdm.slips.getD (adLane a) 0), sat 32 h.fill, h.s1.toNat + 256 * b2n (d.j0Equal (adLane a))]

/-- The command `HERITAGE_STATUS`. -/
def execHeritageStatus (p : Packet) (s : State) : Host.Outcome State Fault Refusal := command cmdHeritageStatus p s

/-! ### Performance monitoring (R333 to R336) -/

/-- Monitored entities of the running version by address and kind (R333): 1 the RS and 0 the MS of a lane in use, 0 its AUs, and 2 each
destination with MON of the active page. -/
def Dev.monitored (d : Dev) : List (Nat × Nat) :=
  (((List.range 32).filter fun l => (hlane d.objs l).mode != 0).flatMap fun l =>
    [(laneAddr l 0 0 0 0 0, 1), (laneAddr l 0 0 0 0 0, 0)] ++ (laneAus (hlane d.objs l) l).map fun a => (a.1, 0))
  ++ ((pageObjs d.objs d.tdm.page).filter fun c => bit c.1 0).map fun c => (noMon c.1, 2)

/-- SES threshold in errored blocks per second (Table 13-9). -/
def Dev.sesThreshold (d : Dev) (e : Nat × Nat) : Nat :=
  if e.2 = 1 then 2400
  else if adKind e.1 = 1 ∧ adAu e.1 = 0 then 2400 * lineN (hlane d.objs (adLane e.1)).mode
  else if adKind e.1 = 2 ∨ 2 ≤ adLevel e.1 then 600
  else 2400

/-- Whether a defect seen in this second affects the container that a source names (R334): one of its lane that inserts AIS, or one of
its AU, VC or TU. -/
def Dev.sourceDefect (d : Dev) (a : Nat) : Bool :=
  let au := vcOf (hlane d.objs (adLane a)) a
  let v := d.tdm.seen.getD au 0
  if adKind a ≠ 1 then d.tdm.seen.getD a 0 != 0
  else (d.hl (adLane a)).seen &&& 0x1D#8 != 0#8 || bit v 8 || bit v 9 || bit v 10 || (a != au && (bit v 11 || d.tdm.seen.getD a 0 != 0))

/-- What a second held for an entity, near and far end: errored blocks, and a defect of Table 13-5 (R333, R334). The far end has no
defects but RDI; RS has no far end. -/
def Dev.secondOf (d : Dev) (e : Nat × Nat) : (Nat × Bool) × (Nat × Bool) :=
  let h := d.hl (adLane e.1)
  if e.2 = 1 then ((h.nearRs, h.seen &&& 0x0F#8 != 0#8), (0, false))
  else if adKind e.1 = 1 ∧ adAu e.1 = 0 then ((h.nearMs, h.seen &&& 0xDF#8 != 0#8), (h.farMs, h.seen &&& 0x20#8 != 0#8))
  else
    let src := if e.2 = 0 then e.1 else (((pageObjs d.objs d.tdm.page).find? fun c => bit c.1 0 && noMon c.1 == e.1).map Prod.snd).getD 0
    let p := d.path src
    ((p.near, d.sourceDefect src), (p.far, p.rdi))

/-- A new second: the counts of the last one go, and the defects that stand count in it. -/
def Tdm.newSecond (t : Tdm) : Tdm :=
  { t with
    lanes := t.lanes.mapAll fun _ (h : Heritage) => { h with nearRs := 0, nearMs := 0, farMs := 0, seen := h.defects }
    paths := t.paths.mapAll fun _ (p : PathMon) => { p with near := 0, far := 0, rdi := false }
    seen := t.defects }

/-- Starts of the bins of 15 minutes and 24 hours that hold an instant, in ns. -/
def binStart (day : Bool) (now : Nat) : Nat := roundDown now (if day then 86400000000000 else 900000000000)

/-- An entity added now: its bins are suspect. -/
def freshPm (now : Nat) : Pm :=
  { cur15 := { start := binStart false now, suspect := true }, cur24 := { start := binStart true now, suspect := true } }

/-- A second is an SES. -/
def isSes (thr : Nat) (v : Nat × Bool) : Bool := v.2 || decide (thr ≤ v.1)

/-- Availability after a new second, and whether its last ten seconds become unavailable or available at this point (R334): `ses`
says for each held second, newest first, whether it is an SES. -/
def availability (unavail : Bool) (ses : List Bool) : Bool :=
  let ten := ses.take 10
  if ten.length < 10 then unavail
  else if unavail then !(ten.all fun x => !x) else ten.all fun x => x

/-- One second booked in a bin's ES, SES, BBE and UAS. -/
def bookSecond (l : List Nat) (thr : Nat) (v : Nat × Bool) (uas : Bool) : List Nat :=
  let ses := isSes thr v
  let es := v.2 || decide (1 ≤ v.1)
  if uas then [l.getD 0 0, l.getD 1 0, l.getD 2 0, l.getD 3 0 + 1]
  else [l.getD 0 0 + b2n es, l.getD 1 0 + b2n ses, l.getD 2 0 + (if ses then 0 else v.1), l.getD 3 0]

/-- A held second booked in a bin. -/
def PmBin.book (b : PmBin) (thr : Nat) (x : PmHeld) : PmBin :=
  { b with near := bookSecond b.near thr x.near x.nearUas, far := bookSecond b.far thr x.far x.farUas }

/-- Length of a bin in ns. -/
def binLen (day : Bool) : Nat := if day then 86400000000000 else 900000000000

/-- The bin holds a second that starts at `x` ns. -/
def PmBin.holds (b : PmBin) (day : Bool) (x : Nat) : Bool := decide (b.start ≤ x) && decide (x < b.start + binLen day)

/-- The current 15-minute bin closes, and one that starts at `start` follows. -/
def Pm.close15 (p : Pm) (start : Nat) : Pm :=
  { p with prev15 := (p.cur15 :: p.prev15).take 16, cur15 := { start, suspect := p.next15 }, next15 := false }

/-- The current 24-hour bin closes, and one that starts at `start` follows. -/
def Pm.close24 (p : Pm) (start : Nat) : Pm :=
  { p with prev24 := p.cur24, cur24 := { start, suspect := p.next24 }, next24 := false }

/-- New bins begin where the current ones ended before a second that starts at `x` ns. -/
def Pm.reach (p : Pm) (x : Nat) : Pm :=
  let q := if p.cur15.start + binLen false ≤ x then p.close15 (binStart false x) else p
  if q.cur24.start + binLen true ≤ x then q.close24 (binStart true x) else q

/-- A second is booked in its 15-minute bin: the previous one where it holds the second, otherwise the current one. -/
def Pm.book15 (p : Pm) (thr x : Nat) (v : PmHeld) : Pm :=
  if (p.prev15.headD {}).holds false x && !p.prev15.isEmpty then
    { p with prev15 := (p.prev15.headD {}).book thr v :: p.prev15.drop 1 }
  else { p with cur15 := p.cur15.book thr v }

/-- A second is booked in its 24-hour bin. -/
def Pm.book24 (p : Pm) (thr x : Nat) (v : PmHeld) : Pm :=
  if p.prev24.holds true x && !p.cur24.holds true x then { p with prev24 := p.prev24.book thr v } else { p with cur24 := p.cur24.book thr v }

/-- A second is booked in the bins that its number names (R335). A second of a time that a step has left is booked in the current bins,
which are suspect. -/
def Pm.book (p : Pm) (thr : Nat) (v : PmHeld) : Pm :=
  let x := v.second * 1000000000
  ((p.reach x).book15 thr x v).book24 thr x v

/-- A new second of an entity: it is held for 10 s, and the second that is then 10 s old is booked in its final state. -/
def Pm.second (p : Pm) (thr sec : Nat) (near far : Nat × Bool) : Pm :=
  let held : List PmHeld := ⟨sec, near, far, p.nearUnavail, p.farUnavail⟩ :: p.held
  let nu := availability p.nearUnavail (held.map fun h => isSes thr h.near)
  let fu := availability p.farUnavail (held.map fun h => isSes thr h.far)
  let settle := fun (turn v : Bool) (old : Bool) (i : Nat) => if turn ∧ i < 10 then v else old
  let held := held.zipIdx.map fun h =>
    { h.1 with nearUas := settle (nu != p.nearUnavail) nu h.1.nearUas h.2, farUas := settle (fu != p.farUnavail) fu h.1.farUas h.2 }
  let p := { p with nearUnavail := nu, farUnavail := fu, held := held.take 10 }
  match held.drop 10 with
  | x :: _ => p.book thr x
  | [] => p

/-- The event PM_SECOND: a whole second of the time base has ended. Each monitored entity takes what its overhead and defects showed in
it; entities no longer monitored are dropped. -/
def pmSecond (d : Dev) : Dev :=
  let d := d.goTime (roundUp d.now 1000000000)
  let sec := d.now / 1000000000 - 1
  let pms := d.monitored.map fun e =>
    let p := ((d.tdm.pms.find? fun q => q.1 == e).map Prod.snd).getD (freshPm d.now)
    let v := d.secondOf e
    (e, p.second (d.sesThreshold e) sec v.1 v.2)
  { d with tdm := { d.tdm.newSecond with pms } }

/-- See `pmSecond`. -/
def execPmSecond (s : State) : Host.Outcome State Fault Refusal := live pmSecond s

/-- The event PM_BIN_CLOSE: the bins that ended 10 s ago close. -/
def pmBinClose (day : Bool) (d : Dev) : Dev :=
  let lag := 10000000000
  let d := d.goTime (roundUp (d.now - lag) (binLen day) + lag)
  let start := d.now - lag
  let close := fun (p : Pm) =>
    if day then (if p.cur24.start < start then p.close24 start else p) else if p.cur15.start < start then p.close15 start else p
  { d with tdm := { d.tdm with pms := d.tdm.pms.map fun p => (p.1, close p.2) } }

/-- See `pmBinClose`. -/
def execPmBinClose (day : Bool) (s : State) : Host.Outcome State Fault Refusal := live (pmBinClose day) s

/-- The 48 bytes of a bin (R336). -/
def PmBin.bytes (b : PmBin) (isOpen : Bool) : Bytes :=
  beBytes 8 b.start ++ beBytes 1 (b2n b.suspect + 2 * b2n isOpen) ++ List.replicate 7 0#8
  ++ b.near.flatMap (beBytes 4) ++ b.far.flatMap (beBytes 4)

/-- The bin that BIN names. -/
def Pm.bin (p : Pm) (i : Nat) : PmBin :=
  if i = 0 then p.cur15 else if i = 17 then p.cur24 else if i = 18 then p.prev24 else p.prev15.getD (i - 1) {}

/-- The kind of monitored entity that an address names: with MON the destination, otherwise the MS or AU, and a destination where
there is no such (DEDUCED, log entry 175). -/
def Dev.entityOf (d : Dev) (a : Nat) : Option (Nat × Nat) :=
  let keys := if bit a 0 then [(noMon a, 2)] else [(a, 0), (a, 2)]
  keys.find? fun k => d.monitored.contains k

/-- `TDM_PM_READ`. -/
def cmdTdmPmRead : CmdDef where
  op := 0x0C06
  read := true
  form := fun p =>
    let a := ent p 16 4
    (adKind a == 1 || adKind a == 2) && addrForm a false true && decide (ent p 20 1 ≤ 18) && aligned (ent p 24 8) 8 && zeros 16 p [(21, 23), (32, 63)]
  forbid := fun d e => if (d.entityOf (ent e.par 16 4)).isSome then none else some (.conflict, [])
  run := fun e d =>
    let a := ent e.par 16 4
    let i := ent e.par 20 1
    let get := fun (k : Nat × Nat) => (((d.tdm.pms.find? fun q => q.1 == k).map Prod.snd).getD (freshPm d.now)).bin i
    let rec' := fun (k : Nat × Nat) => (get k).bytes (i == 0 || i == 17)
    match d.entityOf a with
    | some k => (d.hostWrite (ent e.par 24 8) (if adKind a = 1 ∧ adAu a = 0 then rec' (k.1, 1) ++ rec' k else rec' k)).ok e
    | none => d.finish e .conflict []

/-- The command `TDM_PM_READ`. -/
def execTdmPmRead (p : Packet) (s : State) : Host.Outcome State Fault Refusal := command cmdTdmPmRead p s

end Sys2Proof.Machine
end

