-- ==== Sys2Proof/Machine/Protection.lean ====
section
/-!
DEFINITION. Protection (14): claim and arbitration, tender status word, mirror record, shadow ranging, switchover, wait-to-restore.
-/
namespace Sys2Proof.Machine

/-- Changes the protection state. -/
def Dev.setProt (d : Dev) (f : Prot → Prot) : Dev := { d with prot := f d.prot }

/-! ### Roles (R340, R361) -/

/-- The role of Table 14-3, 0 on an unprotected device. A device is active while it transmits. -/
def Dev.role (d : Dev) : Nat :=
  if !d.isProtected then 0 else if d.prot.transmitting then 1 else if d.prot.isolated then 4 else if d.prot.wtrRunning then 3 else 2

/-- After a role change every command in execution ends with `LOST` (02 R70). `old` is the role before. -/
def Dev.roleFrom (d : Dev) (old : Nat) : Dev :=
  if old ≠ 0 ∧ d.role ≠ 0 ∧ old ≠ d.role then d.endAll (fun _ => true) .lost else d

/-- The tender link is up. -/
def Dev.tenderUp (d : Dev) : Bool := d.isProtected && d.isGroup d.prot.tlane [3] && d.portUp d.prot.tlane

/-! ### Health and claim (R342, R343) -/

/-- A tree has no channel that is on. -/
def Dev.treeUnused (d : Dev) (t : Nat) : Bool := (List.range 4).all fun c => d.mode (4 * t + c) == 0

/-- Shadow state of a tree. -/
def Dev.shadow (d : Dev) (t : Nat) : Shadow := d.prot.shadows.getD t {}

/-- Changes a tree's shadow state. -/
def Dev.setShadow (d : Dev) (t : Nat) (f : Shadow → Shadow) : Dev :=
  d.setProt fun p => { p with shadows := p.shadows.put t (f (d.shadow t)) }

/-- Every used tree's shadow is LOCKED. -/
def Dev.allLocked (d : Dev) : Bool := (List.range 48).all fun t => d.treeUnused t || (d.shadow t).state == 2

/-- The digests have matched, but for fewer than 8 consecutive records, and the versions agree (R352). -/
def Prot.agrees (p : Prot) : Bool := p.sameVersion && decide (p.digestBad < 8)

/-- MIRROR (Table 14-6). -/
def Dev.mirrorOk (d : Dev) : Bool :=
  d.prot.transmitting || (d.prot.agrees && match d.prot.applied with
    | a :: b :: _ => a == b + 1 && decide (d.time.frame ≤ a + 2)
    | _ => false)

/-- Config divergence (alarm bit 12, R352). -/
def Dev.diverges (d : Dev) : Bool := d.follows && !d.prot.agrees

/-- A tree counts as healthy. -/
def Dev.treeHealthy (d : Dev) (t : Nat) : Bool :=
  d.treeUnused t || ((d.tree t).selfCheck && (d.prot.transmitting || (d.shadow t).state == 2))

/-- The configured ports and Brynlinks of an uplink group are all up (15 R372); the tender link has a bit of its own. -/
def Dev.uplinkHealthy (d : Dev) (u : Nat) : Bool :=
  ((groups d.objs).filter fun q => q.lane / 12 == u && (q.kind == 1 || q.kind == 2)).all fun q => d.portUp q.lane

/-- HEALTH as the Keepers compute it (Table 14-6). -/
def Dev.healthNow (d : Dev) : Nat :=
  32768 * b2n (d.vers.running.isSome && !d.sys.dark) + 16384 * b2n d.tenderUp + 8192 * b2n d.mirrorOk + 4096 * b2n (d.time.state == 2)
  + 16 * ((List.range 48).filter d.treeHealthy).length + ((List.range 8).filter d.uplinkHealthy).length

/-- HEALTH without the bits 15 to 12 that have fallen. -/
def fallOf (health now : Nat) : Nat := (health / 4096 &&& now / 4096) * 4096 + health % 4096

/-- The Keepers hand a fall of bits 15 to 12 to the claim unit, unless they hang (R343). -/
def Dev.enterFalls (d : Dev) : Dev :=
  if !d.isProtected ∨ d.prot.hung then d else d.setProt fun p => { p with health := fallOf p.health d.healthNow }

/-- The Keepers refresh the claim unit in frame `n`: a fall of bits 15 to 12 enters at once, every other change only in frames with
(n mod 8) = 0 (R343). -/
def Dev.refreshHealth (d : Dev) (n : Nat) : Dev :=
  if !d.isProtected ∨ d.prot.hung then d
  else if n % 8 = 0 then d.setProt fun p => { p with health := d.healthNow } else d.enterFalls

/-- The claim (Table 14-5). -/
def Dev.claim (d : Dev) : Nat :=
  (if d.prot.wtrRunning then 0 else d.prot.prio) * 16777216 + d.prot.health * 256 + 128 * b2n d.prot.transmitting + d.sys.devId.toNat

/-- Instant in ns at which the round of the frame that contains an instant begins (R344). -/
def roundStart (now : Nat) : Nat := now / frameNs * frameNs + 100000

/-- What the claim unit has taken for the round of the current frame: the claim, and whether the device arbitrates. -/
def Dev.roundClaim (d : Dev) : Nat × Bool :=
  match d.prot.latched with
  | some (n, c, drives) => if n = d.now / frameNs then (c, drives) else (d.claim, !d.prot.isolated)
  | none => (d.claim, !d.prot.isolated)

/-- A change of PRIO or isolation after slot 0 has begun leaves the running round as it is (R358, R363): the claim unit keeps what it took.
What a row changes is at the instant that the time base shows (DESIGN CHOICE, log entry 177). -/
def Dev.latchRound (d : Dev) : Dev :=
  if d.isProtected ∧ roundStart d.now ≤ d.now then d.setProt fun p => { p with latched := some (d.now / frameNs, d.roundClaim.1, d.roundClaim.2) }
  else d

/-- The event HEALTH_REFRESH_TIMEOUT: the claim unit claims with HEALTH 0 until the Keepers refresh it, which they do once they have shown
themselves again (DESIGN CHOICE, log entry 178). -/
def healthRefreshTimeout (d : Dev) : Dev := d.latchRound.setProt fun p => { p with health := 0, hung := true }

/-- See `healthRefreshTimeout`. -/
def execHealthRefreshTimeout (s : State) : Host.Outcome State Fault Refusal := live healthRefreshTimeout s

/-! ### PROT_SET, CLAIM_SET, PROT_ISOLATE (R339, R358, R363) -/

/-- `PROT_SET`. -/
def cmdProtSet : CmdDef where
  op := 0x0D01
  form := fun p =>
    decide (ent p 16 1 ≤ 1) && decide (ent p 17 1 ≤ 7) && decide (ent p 18 1 ≤ 92) && aligned (ent p 18 1) 4 && decide (1 ≤ ent p 19 1)
    && (ent p 20 2 == 0 || within (ent p 20 2) 10 3600) && decide (ent p 22 2 ≤ 511) && zeros 16 p [(24, 63)]
  bad := fun d e => if ent e.par 17 1 = d.sys.devId.toNat then some [] else none
  forbid := fun d _ => if !d.sys.dark ∨ d.vers.committed then some (.conflict, []) else none
  run := fun e d =>
    let p := e.par
    (d.setProt fun q => { q with
      mode := ent p 16 1, partner := ent p 17 1, tlane := ent p 18 1, aprio := ent p 19 1, prio := ent p 19 1
      wtr := orZero (ent p 20 2) 300, rbeacon := ent p 22 2 }).ok e

/-- The command `PROT_SET`. -/
def execProtSet (p : Packet) (s : State) : Host.Outcome State Fault Refusal := command cmdProtSet p s

/-- Frame instant at which the first round that starts at or after an instant takes effect (R344, R358). -/
def roundEffect (at_ : Nat) : Nat := (at_ / frameNs + if at_ % frameNs < 100000 then 1 else 2) * frameNs

/-- `CLAIM_SET`. -/
def cmdClaimSet : CmdDef where
  op := 0x0D02
  frameBound := true
  form := fun p => decide (1 ≤ ent p 16 1) && zeros 16 p [(17, 63)]
  run := fun e d =>
    (d.latchRound.setProt fun q => { q with prio := ent e.par 16 1 }).finish e .done [roundEffect (e.stamp.getD d.now) % 2 ^ 32]

/-- The command `CLAIM_SET`. -/
def execClaimSet (p : Packet) (s : State) : Host.Outcome State Fault Refusal := command cmdClaimSet p s

/-- Wait-to-restore begins (R362). -/
def Prot.wait (p : Prot) : Prot := { p with wtrRunning := true, wtrDue := none, wtrOver := false, restoreArmed := false }

/-- `PROT_ISOLATE`. -/
def cmdProtIsolate : CmdDef where
  op := 0x0D03
  form := fun p => decide (ent p 16 1 ≤ 1) && zeros 16 p [(17, 63)]
  forbid := fun d e => if d.prot.isolated = (ent e.par 16 1 == 1) then some (.conflict, []) else none
  run := fun e d =>
    let old := d.role
    let d := d.latchRound
    let d := if ent e.par 16 1 = 1 then d.setProt fun q => { q with isolated := true, wtrRunning := false, wtrDue := none, wtrOver := false }
      else d.setProt fun q => { q with isolated := false }.wait
    (d.ok e).roleFrom old

/-- The command `PROT_ISOLATE`. -/
def execProtIsolate (p : Packet) (s : State) : Host.Outcome State Fault Refusal := command cmdProtIsolate p s

/-! ### PROT_STATUS (R364) -/

/-- The partner's claim, 0 while the tender link is down. -/
def Dev.partnerClaim (d : Dev) : Nat := if d.tenderUp then (d.prot.status.map StatusWord.claim).getD 0 else 0

/-- Seconds left in wait-to-restore. -/
def Dev.wtrLeft (d : Dev) : Nat :=
  if !d.prot.wtrRunning ∨ d.prot.wtrOver then 0
  else match d.prot.wtrDue with
    | some due => cdiv (due - d.time.c) 1000000000
    | none => d.prot.wtr

/-- `PROT_STATUS`. -/
def cmdProtStatus : CmdDef where
  op := 0x0D06
  read := true
  form := fun p => zeros 16 p [(16, 63)]
  run := fun e d =>
    let p := d.prot
    d.finish e .done
      [d.role * 2 ^ 24 + 128 * b2n p.okA + 64 * b2n p.okB + 32 * b2n p.wonA + 16 * b2n p.wonB + 8 * b2n d.tenderUp + 4 * b2n d.mirrorOk
        + 2 * b2n p.transmitting, d.claim % 2 ^ 32, d.partnerClaim % 2 ^ 32, d.wtrLeft]

/-- The command `PROT_STATUS`. -/
def execProtStatus (p : Packet) (s : State) : Host.Outcome State Fault Refusal := command cmdProtStatus p s

/-! ### The arbitration round (R344 to R347) -/

/-- The device is still in the round before slot `s`, 1 to 33: in no claim slot before it has it released the line and sampled it low,
bit 31 first (R345). `low` gives the slots that sample low. -/
def staysIn (claim : Nat) (low : List Bool) (s : Nat) : Bool :=
  (List.range (s - 1)).all fun i => bit claim (31 - i) || !low.getD (i + 1) false

/-- The device drives a line low in a slot (Table 14-7). A device that does not arbitrate drives nothing. -/
def slotDrive (drives : Bool) (claim : Nat) (low : List Bool) (s : Nat) : Bool :=
  drives && (s == 0 || (decide (s ≤ 32) && bit claim (32 - s) && staysIn claim low s))

/-- The device's drive in the 34 slots of a round on a line. -/
def lineDrives (drives : Bool) (claim : Nat) (low : List Bool) : List Bool := (List.range 34).map (slotDrive drives claim low)

/-- One round on a line: not faulted, and won. SYNC must sample low and RELEASE high, whoever drives. -/
def lineRound (drives : Bool) (claim : Nat) (low : List Bool) : Bool × Bool :=
  let ok := low.getD 0 false && !low.getD 33 false
  (ok, ok && drives && staysIn claim low 33)

/-- The transmit decision for the next frame (Table 14-8). -/
def Dev.decideTransmit (d : Dev) : Bool :=
  let p := d.prot
  if p.okA && p.okB then p.wonA && p.wonB
  else if p.okA || p.okB then
    (if p.okA then p.wonA else p.wonB) && (if d.tenderUp then decide (d.partnerClaim < d.claim) else p.transmitting)
  else d.tenderUp && p.transmitting && p.status.any fun w => !w.transmitted

/-- The claim-line alarm after the last round (Tables 14-8 and 14-13). -/
def Dev.claimLineAlarm (d : Dev) : Bool :=
  let p := d.prot
  d.isProtected && ((p.okA && p.okB && p.wonA != p.wonB) || (!p.okA && !p.okB) || (p.okA != p.okB && !d.tenderUp))

/-- An active that has lost the deciding round starts no non-Lantern frame and preempts those in progress (R359). -/
def Dev.startLosing (d : Dev) : Dev :=
  if d.prot.transmitting ∧ !d.prot.decided then
    (d.chans.map Prod.fst).foldl (fun d g => d.preempt g) (d.setProt fun p => { p with cutover := .losing })
  else d

/-- The results of the rounds on both lines, and the decision for the next frame. -/
def Dev.judgeRound (d : Dev) (drives : Bool) (claim : Nat) (lowA lowB : List Bool) : Dev :=
  let a := lineRound drives claim lowA
  let b := lineRound drives claim lowB
  let d := d.setProt fun p => { p with okA := a.1, wonA := a.2, okB := b.1, wonB := b.2 }
  d.setProt fun p => { p with decided := d.decideTransmit }

/-- The event CLAIM_ROUND: the rounds of the current frame on both lines, with what the device samples in each slot (`true` low). A fall of
HEALTH enters the round (R343); an active that loses acts at the start of slot 33 (R359). -/
def claimRound (lowA lowB : List Bool) (d : Dev) : Dev :=
  if !d.isProtected then d
  else
    let d := d.enterFalls
    let r := d.roundClaim
    let d := d.emit (.claim (lineDrives r.2 r.1 lowA) (lineDrives r.2 r.1 lowB))
    let d := d.goTime (d.time.frame * frameNs + 116500)
    (d.judgeRound r.2 r.1 lowA lowB).startLosing.goTime (d.time.frame * frameNs + 117000)

/-- See `claimRound`. -/
def execClaimRound (sampleA sampleB : List Bool) (s : State) : Host.Outcome State Fault Refusal := live (claimRound sampleA sampleB) s

/-- The event TENDER_STATUS_WORD: a conflict stops transmission at once; the first word of an active partner after power-up starts
wait-to-restore. -/
def tenderStatusWord (w : StatusWord) (d : Dev) : Dev :=
  if !d.tenderUp then d
  else
    let old := d.role
    let first := d.prot.status.isNone
    let d := d.latchRound.setProt fun p => { p with status := some w }
    let d := if w.transmitted ∧ d.prot.sentLast then (d.alarm alClaim).setProt fun p => { p with transmitting := false } else d
    let d := if first ∧ w.transmitted ∧ old = 2 then d.setProt Prot.wait else d
    d.roleFrom old

/-- See `tenderStatusWord`. -/
def execTenderStatusWord (w : StatusWord) (s : State) : Host.Outcome State Fault Refusal := live (tenderStatusWord w) s

/-! ### Digests (Table 14-9, section 9) -/

/-- CRC-32C of each per-entry table kind, then of meter state: terminals with their session keys, flows, allocations, key slots,
subscriber entries, replication lists, forwarding entries as the host wrote them (08 R215), meters with their bucket levels. -/
def Dev.digests (d : Dev) : List Word :=
  let dg := fun (k : Nat) (l : List (Nat × List Nat)) => crc32c (Config.tableImage k l)
  [dg 1 (d.terms.map fun t => (t.1, [t.2.chan, b2n t.2.regChk, t.2.onuId, t.2.profPin, t.2.serial, beNat t.2.regId, t.2.shaper,
      b2n t.2.session.isSome, beNat (t.2.session.getD [])]))
  , dg 2 (d.flows.map fun f => (f.1, [f.2.term, f.2.dnPort, f.2.upPort, f.2.cls, b2n f.2.sealedFlow, f.2.fprof, f.2.qprof, f.2.udKind,
      f.2.udest, f.2.cbase, f.2.keySrc]))
  , dg 3 (d.allocs.map fun a => (a.1, [a.2.term, a.2.allocId, a.2.cls, a.2.flags.toNat, a.2.arate, a.2.prate, a.2.weight, a.2.maxGrant,
      a.2.repCap]))
  , dg 4 (d.keys.map fun k => (k.1, [b2n k.2.ctr, beNat k.2.ctrKey, b2n k.2.gcm, beNat k.2.gcmKey, k.2.salt]))
  , dg 5 (d.cls.sub.map fun e => (e.1, [e.2.action, beNat e.2.value, beNat e.2.mask, e.2.owner]))
  , dg 6 (d.sw.repl.map fun r => (r.1, r.2.flatMap fun e => [e.1, e.2]))
  , dg 7 (d.meters.map fun m => (m.1, [m.2.mode, b2n m.2.aware, m.2.cir, m.2.cbs, m.2.pir, m.2.ebs, m.2.yact, m.2.ract, wrap 8 m.2.overhead,
      m.2.cbase, wrap 64 m.2.c.level, wrap 64 m.2.e.level]))
  , dg 8 (d.fwd.slots.map fun e => (e.1, [e.2.fid, e.2.mac, b2n e.2.static, b2n e.2.dropSa, e.2.dkind, e.2.dest, e.2.counter]))]

/-! ### The mirror record (R349) -/

/-- Upstream frames that the device still holds, by their flow. -/
def Dev.upstreamInside (d : Dev) : List Frame :=
  (d.sw.pipes.flatMap (fun p => p.2.express ++ p.2.normal) ++ d.sw.voqs.map Voq.frame
    ++ d.ports.flatMap fun p => p.2.queues.flatMap Queue.all).filter fun x => x.src / 16384 == 0

/-- Flow that an upstream frame belongs to, before and after its pass. -/
def Frame.ownFlow (x : Frame) : Nat := if x.flow = noFlow then x.bound else x.flow

/-- Flows whose closing entry can be sent: none of their frames of bursts before the cut is left. -/
def Dev.closable (d : Dev) (cut : Nat) : List Nat :=
  let left := (d.upstreamInside.filter fun x => decide (x.itime < cut)).map Frame.ownFlow
  ((d.flows.filter fun f => f.2.upPort != 0xFFFF && !d.prot.closed.contains f.1 && !left.contains f.1)).map Prod.fst

/-- A part of a frame's record with nothing in it. -/
def blankRecord (part frame : Nat) : MirrorRecord :=
  { part, frame, running := 0, slot := 0, tsiPage := 0, claim := 0, trees := [], linksUp := [], plans := [], lantern := [], fragments := [],
    heads := [], confirms := [], closing := [], allocs := [], chans := [], buckets := [], scheds := [], pools := [], terms := [], keys := [], digests := [] }

/-- A level of a bucket in use. -/
def levelOf (kind index : Nat) (b : Bucket) : List MirrorBucket := if b.used then [⟨kind, index, b.level⟩] else []

/-- The bucket levels of section 6. -/
def Dev.mirrorBuckets (d : Dev) : List MirrorBucket :=
  d.flows.flatMap (fun f => levelOf 0 f.1 f.2.cir ++ levelOf 1 f.1 f.2.pir) ++ d.terms.flatMap (fun t => levelOf 2 t.1 t.2.bucket)
  ++ d.chans.flatMap (fun c => levelOf 3 c.1 c.2.bucket) ++ d.ports.flatMap fun p => levelOf 4 p.1 p.2.bucket

/-- The scheduler state of section 6, the crossbar's arbitration pointers and the spill states with it (09 R219). -/
def Dev.mirrorScheds (d : Dev) : List MirrorSched :=
  d.flows.map (fun f => ⟨0, f.1, [], [f.2.deficit], [f.2.queue.acc], [f.2.queue.spill]⟩)
  ++ d.terms.map (fun t => ⟨1, t.1, t.2.turns, t.2.deficit, [], []⟩)
  ++ d.chans.map (fun c => ⟨2, c.1, c.2.ptr ++ c.2.dwrr, [], [], []⟩)
  ++ d.ports.map (fun p => ⟨3, p.1, [p.2.turn], p.2.deficits, p.2.queues.map Queue.acc, p.2.queues.map Queue.spill⟩)
  ++ d.sw.rr.map fun r => ⟨4, r.1, [r.2], [], [], []⟩

/-- The packet-memory places in use per pool, whose complement is the pool's free list (09 R219). -/
def Dev.mirrorPools (d : Dev) : List (Nat × List Nat) :=
  (List.range 5).map fun p => (p, (d.sw.segs.filter fun s => d.sw.poolBase p ≤ s.1 && decide (s.1 < d.sw.poolBase (p + 1))).map Prod.fst)

/-- A window as section 5 shows it, and back. -/
def Window.mirror (w : Window) : MirrorWindow := ⟨w.first, w.len, w.kind, w.term, w.grantFrame, w.grantStart, w.sent, w.used, w.regChk⟩
/-- See `Window.mirror`. -/
def windowOf (w : MirrorWindow) : Window := ⟨w.first, w.len, w.kind, w.term, w.frame, w.start, w.sent, w.used, w.regChk⟩

/-- The whole state that the record of frame `n` mirrors, the sections of changes in full. -/
def Dev.mirrorState (d : Dev) (n : Nat) : MirrorRecord :=
  { part := 0, frame := n, running := d.runNum, slot := d.runSlot, tsiPage := d.tdm.page, claim := d.claim
    trees := (List.range 48).map fun t => (t, (d.shadow t).advance, (d.shadow t).ro)
    linksUp := (List.range 192).filter d.chanLink
    plans := d.chans.filterMap fun c => (c.2.plan? (n + 2)).map fun p => (c.1, p.entries)
    lantern := d.prot.lanternHeads
    fragments := d.chans.flatMap fun c =>
      ((c.2.sending.toList ++ c.2.fragment.toList).filter fun s => s.sent != 0).map fun s => ⟨c.1, s.frame.flow, s.frame.seq, s.sent⟩
    heads := d.prot.heads, confirms := d.prot.confirms
    closing := if d.prot.cutover = .losing then d.closable ((n + 1) * frameNs) else []
    allocs := d.allocs.map fun a =>
      ⟨a.1, a.2.credit, a.2.bucket, a.2.fill, a.2.grants, (a.2.report, a.2.reported, a.2.distrust), a.2.events, a.2.period, a.2.misses,
        a.2.forecasts⟩
    chans := d.chans.map fun c => ⟨c.1, c.2.pointer, c.2.windows.map Window.mirror, c.2.displacedTo⟩
    buckets := d.mirrorBuckets, scheds := d.mirrorScheds, pools := d.mirrorPools
    terms := d.terms.map fun t => ⟨t.1, t.2.state, t.2.onu, t.2.eqd, t.2.mean?.getD 0, t.2.profile⟩
    keys := d.keys.map fun k => ⟨k.1, k.2.ctrCount, k.2.invDown, k.2.invUp, k.2.seen, if k.2.exchanged then some k.2.ctrKey else none⟩
    digests := d.digests }

/-- What a record sends of a state: sections 5 to 8 hold only what has changed since the last record. -/
def changesSince (r : MirrorRecord) : Option MirrorRecord → MirrorRecord
  | none => r
  | some o =>
    { r with
      allocs := r.allocs.filter fun x => !o.allocs.contains x
      chans := r.chans.filter fun x => !o.chans.contains x
      buckets := r.buckets.filter fun x => !o.buckets.contains x
      scheds := r.scheds.filter fun x => !o.scheds.contains x
      pools := r.pools.filter fun x => !o.pools.contains x
      terms := r.terms.filter fun x => !o.terms.contains x
      keys := r.keys.filter fun x => !o.keys.contains x }

/-- The parts of a record in the order in which a planned switchover sends them (R359): the channel part of section 3; its flow part and
section 4; the rest. -/
def recordParts (r : MirrorRecord) : List MirrorRecord :=
  [ { blankRecord 1 r.frame with lantern := r.lantern, fragments := r.fragments }
  , { blankRecord 2 r.frame with heads := r.heads, confirms := r.confirms, closing := r.closing }
  , { r with part := 3, lantern := [], fragments := [], heads := [], confirms := [], closing := [] } ]

/-- The active's record of the ending frame leaves: whole, or in parts at a planned switchover. -/
def Dev.sendRecord (d : Dev) (n : Nat) : Dev :=
  let full := d.mirrorState (n - 1)
  let r := changesSince full d.prot.shown
  let d := if d.tenderUp then (if d.prot.cutover = .losing then recordParts r else [r]).foldl (fun d x => d.emit (.mirror d.prot.tlane x)) d else d
  d.setProt fun p => { p with heads := [], confirms := [], shown := some full, closed := full.closing }

/-- The outgoing device's closing entries; when every flow is closed the switchover is over for it. -/
def Dev.sendClosing (d : Dev) (n : Nat) : Dev :=
  let now := d.closable d.prot.cutAt
  let d := if now.isEmpty ∨ !d.tenderUp then d else d.emit (.mirror d.prot.tlane { blankRecord 4 (n - 1) with closing := now })
  let d := d.setProt fun p => { p with closed := p.closed ++ now }
  if d.flows.all fun f => f.2.upPort == 0xFFFF || d.prot.closed.contains f.1 then d.setProt fun p => { p with cutover := .none } else d

/-- Step 1 of 01 R28 at the instant of frame `n`: the status word and the mirror record of the ending frame. -/
def Dev.closeFrame (d : Dev) (n : Nat) : Dev :=
  if !d.isProtected then d
  else
    let d := d.setProt fun p => { p with pageThen := d.tdm.page }
    let p := d.prot
    let d := if d.tenderUp then d.sendControl p.tlane 2 [(d.claim : Int), b2n p.wonA, b2n p.wonB, b2n p.transmitting] else d
    if p.transmitting then d.sendRecord n else if p.cutover = .outgoing then d.sendClosing n else d

/-! ### Taking over (R359, R360) -/

/-- The held frames that meet a test are freed. -/
def Dev.dropHeld (d : Dev) (p : Frame → Bool) : Dev :=
  let go := (d.prot.held.filter fun h => p h.2).map Prod.snd
  (d.freeFrames go).setProt fun q => { q with held := q.held.filter fun h => !p h.2 }

/-- A takeover without a record of the ending frame (R360). -/
def Dev.takeOver (d : Dev) : Dev :=
  let d := d.freeFrames (d.flows.flatMap (fun f => f.2.retain.map Prod.snd) ++ d.prot.lanternRetain.map fun r => r.2.2)
  let d := { d with flows := d.flows.mapAll fun _ (f : Flow) => { f with retain := [] }
                    prot := { d.prot with lanternRetain := [], cutover := .none, cutAt := 0, lanternAt := [] } }
  let d := (d.chans.map Prod.fst).foldl Dev.dropLantern d
  let d := { d with keys := d.keys.mapAll fun _ (k : KeySlot) => if k.gcm then { k with invDown := k.invAct + 65536 } else k }
  d.releaseHeld fun _ => true

/-- A record of the ending frame is on its way: the tender link is up and the partner has transmitted. -/
def Dev.planned? (d : Dev) : Bool := d.tenderUp && d.prot.status.any StatusWord.transmitted

/-- Step 2 of 01 R28 at the instant of frame `n`: the decision takes effect (R348). While the outputs are dark the device never
transmits. -/
def Dev.takeDecision (d : Dev) (n : Nat) : Dev :=
  if !d.isProtected then d
  else
    let old := d.role
    let was := d.prot.transmitting
    let will := d.prot.decided && !d.sys.dark
    let d := d.setProt fun p => { p with transmitting := will, sentLast := was, decided := false }
    let d :=
      if was && !will then d.setProt fun p => { p with cutover := .outgoing, cutAt := n * frameNs }
      else if !was && will then
        let d := d.setProt fun p => { p with wtrRunning := false, wtrDue := none, wtrOver := false, shown := none }
        if d.planned? then d.setProt fun p => { p with cutover := .incoming, cutAt := n * frameNs, closed := [] } else d.takeOver
      else if will && (d.prot.cutover = .incoming || d.prot.cutover = .opened) then d.takeOver
      else d
    d.roleFrom old

/-! ### Applying a record (R341, R350 to R353) -/

/-- Up to the reported sequence, in 32-bit order. -/
def upTo (s : Nat) (x : Frame) : Bool := decide (sdiff 32 x.seq s ≤ 0)

/-- A queue without the frames that meet a test. -/
def Queue.without (q : Queue) (p : Frame → Bool) : Queue :=
  { q with frames := q.frames.filter (fun x => !p x), deep := q.deep.filter (fun x => !p x), returns := q.returns.filter fun r => !p r.1 }

/-- A flow's downstream head (R350). -/
def Dev.applyHead (d : Dev) (h : MirrorHead) : Dev :=
  match d.flow? h.object with
  | none => d
  | some f =>
    let kept := f.retain.map Prod.snd
    let own := kept ++ f.queue.all
    if own.any fun x => x.seq == h.sequence && x.ifcs != h.fcs then
      ((d.freeFrames own).countBy (ctrDev 7) own.length).setFlow h.object fun f =>
        { f with retain := [], queue := f.queue.empty, seq := (h.sequence + 1) % 2 ^ 32 }
    else
      let d := d.freeFrames (own.filter (upTo h.sequence))
      d.setFlow h.object fun f =>
        let q := f.queue.without (upTo h.sequence)
        { f with retain := [], queue := { q with frames := kept.filter (fun x => !upTo h.sequence x) ++ q.frames } }

/-- A channel's Lantern head (R350). -/
def Dev.applyLantern (d : Dev) (h : MirrorHead) : Dev :=
  let g := h.object
  let kept := (d.prot.lanternRetain.filter fun r => r.1 == g).map fun r => r.2.2
  let own := kept ++ (d.chan g).lantern
  let d := d.setProt fun p => { p with lanternRetain := p.lanternRetain.filter fun r => r.1 != g }
  if own.any fun x => x.seq == h.sequence && x.ifcs != h.fcs then
    ((d.freeFrames own).countBy (ctrDev 7) own.length).setChan g fun c => { c with lantern := [], lanternSeq := (h.sequence + 1) % 2 ^ 32 }
  else (d.freeFrames (own.filter (upTo h.sequence))).setChan g fun c => { c with lantern := own.filter fun x => !upTo h.sequence x }

/-- An open fragment of the active: the device's own sending or remainder of that frame goes on from the bytes sent. -/
def Dev.applyFragment (d : Dev) (x : MirrorFragment) : Dev :=
  let mine := fun (s : Sending) => s.frame.flow == x.flow && s.frame.seq == x.sequence
  d.setChan x.chan fun c =>
    match (c.sending.filter mine).or (c.fragment.filter mine) with
    | some s => { c with sending := c.sending.filter (fun s => !mine s), fragment := some { s with sent := x.sent } }
    | none => c

/-- The plan of the frame after next replaces the device's own (R351). -/
def Dev.applyPlan (d : Dev) (n : Nat) (p : Nat × List PlanEntry) : Dev :=
  let plan : Plan := { frame := n, entries := p.2, idle := 0, displaced := 0, profs := profiles d.objs p.1 }
  d.setChan p.1 fun c => { c with plans := plan :: c.plans.filter fun q => q.frame != n }

/-- Planner state of section 5. -/
def Dev.applyAlloc (d : Dev) (a : MirrorAlloc) : Dev :=
  d.setAlloc a.handle fun x =>
    { x with credit := a.credit, bucket := a.bucket, fill := a.fill, grants := a.grants, report := a.report.1, reported := a.report.2.1
             distrust := a.report.2.2, events := a.events, period := a.period, misses := a.misses, forecasts := a.forecasts }

/-- Planner state of a channel. -/
def Dev.applyChan (d : Dev) (c : MirrorChan) : Dev :=
  d.setChan c.chan fun x => { x with pointer := c.pointer, windows := c.windows.map windowOf, displacedTo := c.displaced }

/-- A bucket level of section 6. -/
def Dev.applyBucket (d : Dev) (b : MirrorBucket) : Dev :=
  let now := d.now
  let put := fun (x : Bucket) => { x with level := b.level, last := now, used := true }
  match b.kind with
  | 0 => d.setFlow b.index fun f => { f with cir := put f.cir }
  | 1 => d.setFlow b.index fun f => { f with pir := put f.pir }
  | 2 => d.setTerm b.index fun t => { t with bucket := put t.bucket }
  | 3 => d.setChan b.index fun c => { c with bucket := put c.bucket }
  | _ => d.setPort b.index fun p => { p with bucket := put p.bucket }

/-- A queue takes the active's marking accumulator and spill state; one with frames of its own in the deep buffer goes on spilling. -/
def Queue.follow (q : Queue) (acc : Nat) (spill : Bool) : Queue :=
  { q with acc, spill := spill || !(q.deep.isEmpty && q.returns.isEmpty) }

/-- Scheduler state of section 6. -/
def Dev.applySched (d : Dev) (s : MirrorSched) : Dev :=
  match s.kind with
  | 0 => d.setFlow s.index fun f =>
    { f with deficit := s.deficits.headD 0, queue := f.queue.follow (s.marks.headD 0) (s.spills.headD false) }
  | 1 => d.setTerm s.index fun t => { t with turns := s.pointers, deficit := s.deficits }
  | 2 => d.setChan s.index fun c => { c with ptr := s.pointers.take 3, dwrr := s.pointers.drop 3 }
  | 3 => d.setPort s.index fun p =>
    { p with turn := s.pointers.headD 0, deficits := s.deficits
             queues := p.queues.zipIdx.map fun q => q.1.follow (s.marks.getD q.2 0) (s.spills.getD q.2 false) }
  | _ => { d with sw := { d.sw with rr := d.sw.rr.put s.index (s.pointers.headD 0) } }

/-- A terminal of section 7; one that is no longer activated loses its queued frames (04 R122). -/
def Dev.applyTerm (d : Dev) (m : MirrorTerm) : Dev :=
  match d.term? m.term with
  | none => d
  | some t =>
    let d := if t.state ≠ m.state ∧ (m.state = 1 ∨ m.state = 6) then (d.discardFlows (d.flowOfTerm m.term)).1 else d
    d.setTerm m.term fun x =>
      let x := if x.state = m.state then x else x.enter m.state d.now
      { x with assigned := if x.onuId ≠ 0xFFFF ∨ m.state = 1 ∨ m.state = 6 then 0xFFFF else m.onuId
               eqd := m.eqd, profile := m.profile, meanAct := m.drift }

/-- A key slot of section 8. A slot that the active's KEY_EXCHANGE has written is written whole: its GCM part is absent (11 R275). -/
def Dev.applyKey (d : Dev) (k : MirrorKey) : Dev :=
  d.setKey k.slot fun x =>
    let x := match k.key with
      | some y => if x.exchanged ∧ x.ctrKey = y then x else { ctr := true, ctrKey := y, exchanged := true }
      | none => x
    { x with ctrCount := k.useCount, invDown := k.invDown, invAct := k.invDown, invUp := k.invUp, seen := k.seen }

/-- Launch advance and receive offset of the active per tree (section 1). -/
def Dev.applyTree (d : Dev) (x : Nat × Int × Int) : Dev := d.setShadow x.1 fun s => { s with aAct := x.2.1, roAct := x.2.2 }

/-- Confirmations release the held frames that the active has sent (R353). -/
def Dev.applyConfirm (d : Dev) (h : MirrorHead) : Dev := d.dropHeld fun x => x.flow == h.object && decide (x.seq ≤ h.sequence)

/-- The active's TSI page in the frame that the record closes (13 R325). A swap that both devices have made since, at the frame instant
itself, stands. -/
def Dev.applyPage (d : Dev) (page : Nat) : Dev :=
  if d.prot.pageThen = page then d else { (d.setProt fun p => { p with pageThen := page }) with tdm := { d.tdm with page } }

/-- Sections 1 and 2, the digests, and the places in use of the packet memory. -/
def Dev.applyHeader (d : Dev) (r : MirrorRecord) : Dev :=
  let d := d.setProt fun p => { p with
    applied := (r.frame :: p.applied).take 2, linksUp := r.linksUp, sameVersion := r.running == d.runNum
    digestBad := if r.digests = d.digests then 0 else p.digestBad + 1
    pools := r.pools.foldl (fun t x => t.put x.1 x.2) p.pools }
  let d := r.trees.foldl Dev.applyTree (d.applyPage r.tsiPage)
  r.plans.foldl (fun d p => d.applyPlan (r.frame + 2) p) d

/-- The channel part of section 3. -/
def Dev.applyChannelPart (d : Dev) (r : MirrorRecord) : Dev := r.fragments.foldl Dev.applyFragment (r.lantern.foldl Dev.applyLantern d)

/-- The flow part of section 3, and the confirmations of section 4. -/
def Dev.applyFlowPart (d : Dev) (r : MirrorRecord) : Dev := r.confirms.foldl Dev.applyConfirm (r.heads.foldl Dev.applyHead d)

/-- Sections 5 to 8. -/
def Dev.applyChanges (d : Dev) (r : MirrorRecord) : Dev :=
  let d := r.chans.foldl Dev.applyChan (r.allocs.foldl Dev.applyAlloc d)
  let d := r.scheds.foldl Dev.applySched (r.buckets.foldl Dev.applyBucket d)
  r.keys.foldl Dev.applyKey (r.terms.foldl Dev.applyTerm d)

/-- Sections 1 to 8 of a whole record. -/
def Dev.applyRecord (d : Dev) (r : MirrorRecord) : Dev :=
  (((d.applyHeader r).applyChannelPart r).applyFlowPart r).applyChanges r

/-- A closing entry at the incoming device: the flow's held frames of bursts before the cut belong to the outgoing device, the others
go to their ports in order. -/
def Dev.applyClosing (d : Dev) (h : Nat) : Dev :=
  let d := d.setProt fun p => { p with closed := if p.closed.contains h then p.closed else p.closed ++ [h] }
  (d.dropHeld fun x => x.flow == h && d.beforeCut x).releaseHeld fun x => x.flow == h && x.cls != 0

/-- Closing entries, and the end of the switchover when every flow is closed. -/
def Dev.applyClosings (d : Dev) (l : List Nat) : Dev :=
  let d := l.foldl Dev.applyClosing d
  if d.flows.all fun f => f.2.upPort == 0xFFFF || d.prot.closed.contains f.1 then
    (d.setProt fun p => { p with cutover := .none }).releaseHeld fun x => x.cls != 0
  else d

/-- A record at a standby. A part of one comes only from an active that hands over, whose cut this device has not met: it is applied as
far as it goes. -/
def Dev.followRecord (d : Dev) (r : MirrorRecord) : Dev :=
  match r.part with
  | 0 => (d.applyRecord r).relink
  | 1 => d.applyChannelPart r
  | 2 => d.applyFlowPart r
  | 3 => ((d.applyHeader r).applyChanges r).relink
  | _ => d

/-- A record at an incoming device (R359): the channel part opens Lantern and the open fragments, the flow part every other frame, and
closing entries follow. The rest is applied whenever it comes. -/
def Dev.takeRecord (d : Dev) (r : MirrorRecord) : Dev :=
  let cut := decide ((r.frame + 1) * frameNs = d.prot.cutAt)
  match r.part, d.prot.cutover with
  | 0, .incoming => ((d.applyRecord r).setProt fun p => { p with cutover := .closing }).applyClosings r.closing
  | 1, .incoming => (d.applyChannelPart r).setProt fun p => { p with cutover := .opened }
  | 2, .opened => ((d.applyFlowPart r).setProt fun p => { p with cutover := .closing }).applyClosings r.closing
  | 3, _ => if cut then (d.applyHeader r).applyChanges r else d
  | 4, .closing => d.applyClosings r.closing
  | _, _ => d

/-- The event MIRROR_RECORD_RECEIVE: a standby applies the record; an incoming device applies the record of the ending frame in its parts,
and then the closing entries that follow it. -/
def mirrorRecordReceive (r : MirrorRecord) (d : Dev) : Dev :=
  if !d.tenderUp then d else if d.follows then d.followRecord r else if d.prot.transmitting then d.takeRecord r else d

/-- See `mirrorRecordReceive`. -/
def execMirrorRecordReceive (r : MirrorRecord) (s : State) : Host.Outcome State Fault Refusal := live (mirrorRecordReceive r) s

/-- The event HELD_FRAME_EXPIRY: the oldest held frame of a standby has become older than 500 µs. -/
def heldFrameExpiry (d : Dev) : Dev :=
  match sortBy (fun h : Nat × Frame => h.2.itime) d.prot.held with
  | [] => d
  | h :: _ =>
    if !d.standby then d
    else (((d.goTime (h.2.itime + 500001)).freeFrame h.2).count (ctrDev 8)).setProt fun p => { p with held := p.held.erase h }

/-- See `heldFrameExpiry`. -/
def execHeldFrameExpiry (s : State) : Host.Outcome State Fault Refusal := live heldFrameExpiry s

/-- Retained frames older than 3 frames are freed and counted at frame `n`. -/
def Dev.freeRetained (d : Dev) (n : Nat) : Dev :=
  let stale := fun (f : Nat) => decide (f + 3 < n)
  let d := d.flows.foldl (fun (d : Dev) f =>
    let l := (f.2.retain.filter fun r => stale r.1).map Prod.snd
    if l.isEmpty then d
    else
      let d := (d.freeFrames l).setFlow f.1 fun x => { x with retain := x.retain.filter fun r => !stale r.1 }
      match d.termChan? f.2.term with
      | some g => d.countBy (ctrChan g 17) l.length
      | none => d) d
  let l := d.prot.lanternRetain.filter fun r => stale r.2.1
  (l.foldl (fun d r => (d.freeFrame r.2.2).count (ctrChan r.1 17)) d).setProt fun p =>
    { p with lanternRetain := p.lanternRetain.filter fun r => !stale r.2.1 }

/-! ### Shadow ranging (R355 to R357) -/

/-- `SHADOW_SET`: a new DELTA0 restarts acquisition. -/
def cmdShadowSet : CmdDef where
  op := 0x0D04
  form := fun p =>
    decide (ent p 16 1 ≤ 47) && decide ((entSigned p 20 4).natAbs ≤ 100000) && decide ((entSigned p 24 4).natAbs ≤ 100000)
    && decide ((entSigned p 28 4).natAbs ≤ 1000) && zeros 16 p [(17, 19), (32, 63)]
  run := fun e d =>
    let p := e.par
    (d.setShadow (ent p 16 1) fun s =>
      let s := if s.delta0 = entSigned p 20 4 then s
        else { s with delta0 := entSigned p 20 4, state := if d.follows then 1 else 0, samples := [], taken := 0, missed := 0 }
      { s with ratio := entSigned p 24 4, asym := entSigned p 28 4 }).ok e

/-- The command `SHADOW_SET`. -/
def execShadowSet (p : Packet) (s : State) : Host.Outcome State Fault Refusal := command cmdShadowSet p s

/-- `SHADOW_READ`. -/
def cmdShadowRead : CmdDef where
  op := 0x0D05
  read := true
  form := fun p => decide (ent p 16 1 ≤ 47) && zeros 16 p [(17, 63)]
  run := fun e d =>
    let s := d.shadow (ent e.par 16 1)
    d.finish e .done [s.state, wrap 32 s.ro, wrap 32 s.advance, sat 32 s.taken]

/-- The command `SHADOW_READ`. -/
def execShadowRead (p : Packet) (s : State) : Host.Outcome State Fault Refusal := command cmdShadowRead p s

/-- Ro from the active's and the mean of the samples, in whole ns; an |Ro| above 100,000 ns is a fault. -/
def Shadow.track (s : Shadow) : Shadow :=
  if s.state ≠ 2 ∨ s.samples.isEmpty then s
  else
    let ro := s.roAct + roundDiv (s.samples.foldl (· + ·) 0 * 100000) (s.samples.length * 4976640)
    { s with ro, state := if 100000 < ro.natAbs then 3 else 2 }

/-- A sample in units of the bit time at 49.7664 Gb/s. -/
def Shadow.sample (s : Shadow) (v : Int) : Shadow :=
  { s with samples := (v :: s.samples).take (if s.state = 2 then 256 else 16), taken := s.taken + 1, missed := 0 }.track

/-- Units of a sample in one bit of the slowest channel of a tree that is on. -/
def Dev.bitUnits (d : Dev) (t : Nat) : Nat :=
  max 1 (maxBy ((List.range 4).filter fun c => d.mode (4 * t + c) != 0) fun c => 4976640 / upRate5 (chanCfg d.objs (4 * t + c)))

/-- The event SHADOW_LOCK: 16 samples whose spread is at most 8 upstream bits. -/
def shadowLock (t : Nat) (d : Dev) : Dev :=
  let s := d.shadow t
  let l := s.samples.take 16
  let hi := l.foldl max (l.headD 0)
  let lo := l.foldl min (l.headD 0)
  if d.follows ∧ s.state = 1 ∧ l.length = 16 ∧ hi - lo ≤ ((8 * d.bitUnits t : Nat) : Int) then
    d.setShadow t fun s => { s with state := 2, taken := 0, missed := 0 }.track
  else d

/-- See `shadowLock`. -/
def execShadowLock (tree : Nat) (s : State) : Host.Outcome State Fault Refusal := live (shadowLock tree) s

/-- The event SHADOW_LOSS: 64 consecutive bursts without an accepted delimiter. -/
def shadowLoss (t : Nat) (d : Dev) : Dev :=
  let s := d.shadow t
  if s.state = 2 ∧ 64 ≤ s.missed then d.setShadow t fun s => { s with state := 1, samples := [], missed := 0 } else d

/-- See `shadowLoss`. -/
def execShadowLoss (tree : Nat) (s : State) : Host.Outcome State Fault Refusal := live (shadowLoss tree) s

/-- Launch advance of a standby's tree (R356), rounded to a whole ns. -/
def Shadow.launch (s : Shadow) : Shadow :=
  { s with advance := s.aAct + roundDiv ((s.ro - s.roAct) * (100000000 + s.ratio)) 100000000 + s.asym }

/-- A standby's trees at a frame instant: a used IDLE tree starts to acquire, and launch advances follow. -/
def Dev.shadowFrame (d : Dev) : Dev :=
  if !d.follows then d
  else ((List.range 48).filter fun t => !d.treeUnused t).foldl (fun d t =>
    d.setShadow t fun s => (if s.state = 0 then { s with state := 1, samples := [] } else s).launch) d

/-! ### Wait-to-restore (R362) -/

/-- The timer runs while MIRROR is 1 and every used tree is LOCKED; a loss restarts it. -/
def Dev.wtrFrame (d : Dev) : Dev :=
  if !d.prot.wtrRunning ∨ d.prot.wtrOver then d
  else if !(d.mirrorOk && d.allLocked) then d.setProt fun p => { p with wtrDue := none }
  else if d.prot.wtrDue.isSome then d
  else d.setProt fun p => { p with wtrDue := some (d.inNs (p.wtr * 1000000000)) }

/-- RBEACON is set for the first frame instant at least 1 s later, with the restore of APRIO armed on it, when it is free. -/
def Dev.tryRestore (d : Dev) : Dev :=
  let b := d.prot.rbeacon
  let st := (d.beacon b).state
  if st = .set ∨ st = .armed then d.setProt fun p => { p with triedAt := d.time.c }
  else
    let i := d.frameAfter 1000000000
    (d.setTime fun t => { t with beacons := t.beacons.put b { state := .armed, instant := i, base := i } }).setProt fun p =>
      { p with restoreArmed := true, triedAt := d.time.c }

/-- The event WAIT_TO_RESTORE_EXPIRY. -/
def waitToRestoreExpiry (d : Dev) : Dev :=
  match d.prot.wtrDue with
  | some due =>
    if !d.prot.wtrRunning ∨ d.prot.wtrOver then d else ((d.goCounter due).setProt fun p => { p with wtrOver := true }).tryRestore
  | none => d

/-- See `waitToRestoreExpiry`. -/
def execWaitToRestoreExpiry (s : State) : Host.Outcome State Fault Refusal := live waitToRestoreExpiry s

/-- The restore waits on its beacon. -/
def Dev.restoring (d : Dev) : Bool := d.prot.restoreArmed && (d.beacon d.prot.rbeacon).state == .armed

/-- The event RBEACON_RETRY: RBEACON was busy, and a second has passed. -/
def rbeaconRetry (d : Dev) : Dev :=
  if !d.prot.wtrRunning ∨ !d.prot.wtrOver ∨ d.restoring then d
  else ((d.goCounter (d.prot.triedAt + 1000000000)).count (ctrDev 9)).tryRestore

/-- See `rbeaconRetry`. -/
def execRbeaconRetry (s : State) : Host.Outcome State Fault Refusal := live rbeaconRetry s

/-- The restore of APRIO at the firing of RBEACON. -/
def Dev.restorePrio (d : Dev) (b : Nat) : Dev :=
  if d.prot.restoreArmed ∧ d.prot.rbeacon = b then
    (d.setProt fun p => { p with prio := p.aprio, wtrRunning := false, wtrDue := none, wtrOver := false, restoreArmed := false }).roleFrom d.role
  else d

/-- What protection does at the start of frame `n`, after the switch of step 3. -/
def Dev.protFrame (d : Dev) (n : Nat) : Dev :=
  if d.isProtected then ((((d.freeRetained n).shadowFrame).refreshHealth n).wtrFrame).releaseLantern else d

end Sys2Proof.Machine
end

