-- ==== Sys2Proof/Machine/Upstream.lean ====
section
/-!
DEFINITION. The event BURST_RECEIVE: a granted burst at the receiver, its delimiter, bearing, drift and profile (03 R91 to R98, 04
R115 to R121), its reports and fill at the planner (05 R137 to R140, R156), its frames and circuit positions (03 R96, R97; 11 R274;
13 R331, R332), and the shadow samples of a standby (14 R355).
-/
namespace Sys2Proof.Machine

/-! ### The grants of a burst -/

/-- The entry opens a burst of a terminal in a normal grant: neither a discovery nor a ranging window. -/
def opensBurst (e : PlanEntry) : Bool := bit e.flags.toNat 2 && e.kind != 5 && e.kind != 6

/-- Entries of the burst of a terminal at a start: its first grant, and its further grants up to its next burst. Grants that open
windows may be sorted between them. -/
def Plan.burst (p : Plan) (h start : Nat) : List PlanEntry :=
  match p.entries.dropWhile fun e => !(opensBurst e && e.term == h && e.start == start) with
  | e :: t => e :: (t.takeWhile fun x => !(opensBurst x && x.term == h)).filter fun x => x.term == h && !bit x.flags.toNat 2
  | [] => []

/-- Grants of the burst that the row names; none when the terminal has left, or the plan holds no such burst. -/
def Dev.burstGrants (d : Dev) (rx : BurstRx) : List PlanEntry :=
  match d.term? rx.term, (d.chan rx.chan).plan? rx.frame with
  | some t, some p => if t.chan = rx.chan then p.burst rx.term rx.start else []
  | _, _ => []

/-- Content bytes of planned grants (05 Table 5-7). -/
def entriesContent (es : List PlanEntry) : Nat :=
  8 + (if es.any fun e => bit e.flags.toNat 1 then 48 else 0) + sumBy es fun e => e.size + 4 * b2n (bit e.flags.toNat 0)

/-- Absolute first byte and end of every burst that a channel's plan grants. -/
def Dev.planBursts (d : Dev) (g n : Nat) : List (Nat × Nat) :=
  match (d.chan g).plan? n with
  | none => []
  | some p =>
    let u := rxFrameBytes (chanCfg d.objs g)
    (p.entries.filter opensBurst).map fun e =>
      let at0 := n * u + e.start
      (at0, at0 + airOf (chanCfg d.objs g) (planCfg d.objs g) (p.prof e.profile) (entriesContent (p.burst e.term e.start)))

/-- No granted burst lies in the 4,000 ns before the burst's start (14 R355). -/
def Dev.isolatedBurst (d : Dev) (g n start : Nat) : Bool :=
  let at0 := n * rxFrameBytes (chanCfg d.objs g) + start
  let gap := axisBytes (chanCfg d.objs g) 40000
  (d.planBursts g n ++ d.planBursts g (n - 1)).all fun b => decide (at0 ≤ b.1) || decide (b.2 + gap ≤ at0)

/-! ### The search of a burst (03 R93, 14 R355) -/

/-- Where a receiver searches: not at all, around E shifted by Ro, or around E + DELTA0. -/
inductive SearchMode where
  | none
  | tracked
  | acquiring
deriving DecidableEq, Repr

/-- Search of a burst: on a standby the tree's shadow decides, and in ACQUIRING isolated bursts alone are searched (14 R355). -/
def Dev.searchMode (d : Dev) (rx : BurstRx) : SearchMode :=
  if !d.follows then .tracked
  else
    match (d.shadow (rx.chan / 4)).state with
    | 0 => .none
    | 1 => if d.isolatedBurst rx.chan rx.frame rx.start then .acquiring else .none
    | _ => .tracked

/-- Half of the search window in bits. -/
def Dev.halfWindow (d : Dev) (g : Nat) (m : SearchMode) : Nat :=
  if m = .acquiring then 2000 * upRate5 (chanCfg d.objs g) / 100000 else 8 * (chanCfg d.objs g).win

/-- Offset in bits of the accepted delimiter from the middle of the window. -/
def Dev.delimiterAt (d : Dev) (rx : BurstRx) (m : SearchMode) (p : Profile) : Option Int :=
  let half := d.halfWindow rx.chan m
  (searchDelim p.delimiter p.tol 0 (rx.bits.take (2 * half + 8 * p.delimLen))).map fun i => (i : Int) - half

/-! ### Planner inputs (05 R137 to R140, R156) -/

/-- The fill estimate after a burst that carries the allocation (R138). -/
def nextFill (f size idle minGrant cap : Nat) : Nat :=
  if 20 * idle < size then min (2 * f) cap else if size < 2 * idle then max (f / 2) minGrant else f

/-- Ceiling of the fill estimate: MAXGRANT or PRATE for one frame, and the receive frame. -/
def Alloc.fillCap (a : Alloc) (u : Nat) : Nat := min (a.cap (min u (if a.prate = 0 then u else a.prate / 64))) u

/-- A valid report of receive frame `m` (R137, R139): events come from the second report on. -/
def Alloc.hear (a : Alloc) (pc : PlanCfg) (m backlog : Nat) : Alloc :=
  let arrived : Int := (backlog : Int) - a.report + a.since
  let a := if a.reported ∧ a.detecting pc ∧ (pc.minGrant : Int) ≤ arrived then
      let ev := ((m, arrived.toNat) :: a.events).take 8
      { a with events := ev, period := detect (ev.map Prod.fst), misses := 0 }
    else a
  { a with report := backlog, reported := true, distrust := 0, since := 0, grants := a.grants.filter fun x => decide (m ≤ x.1) }

/-- Nothing more is to come for the last plan that grants the allocation (R155). -/
def Alloc.landed (a : Alloc) (m : Nat) : Alloc := if a.lastPlan = m then { a with lastPlan := 0 } else a

/-- The allocation after a missing grant: it is taken out of O (R137). -/
def Alloc.miss (a : Alloc) (m : Nat) : Alloc := { a with grants := a.grants.filter fun x => x.1 != m, distrust := a.distrust + 1 }

/-- The allocation after a burst that carried it: fill, bytes, and the report or its absence. -/
def Alloc.served (a : Alloc) (pc : PlanCfg) (u m : Nat) (e : PlanEntry) (fill : Option RxFill) (rep : Option RxReport) : Alloc :=
  let a := match fill with
    | some x => { a with since := a.since + x.payload, fill := nextFill a.fill e.size x.idle pc.minGrant (a.fillCap u) }
    | none => a
  match rep with
  | some r => if r.valid ∧ r.backlog ≤ a.repCap then a.hear pc m r.backlog else { a with distrust := a.distrust + 1 }
  | none => if bit e.flags.toNat 0 then a.miss m else a

/-- The per-entry allocation that an entry grants; none for default and Lantern grants, and once it has been deleted. -/
def Dev.entryAlloc? (d : Dev) (e : PlanEntry) : Option Nat :=
  (List.find? (fun a : Nat × Alloc => a.2.term == e.term && a.2.allocId == e.allocId) d.allocs).map Prod.fst

/-- Counters of one granted allocation: bad or absent reports, unused forecasts (R141, R156). -/
def Dev.countReport (d : Dev) (h m : Nat) (e : PlanEntry) (a : Alloc) (fill : Option RxFill) (rep : Option RxReport) : Dev :=
  let bad := match rep with
    | some r => !(r.valid && decide (r.backlog ≤ a.repCap))
    | none => bit e.flags.toNat 0
  let d := if bad then d.count (ctrAlloc h 0) else d
  let unused := if bit e.flags.toNat 5 then min (a.forecast m) ((fill.map RxFill.idle).getD 0) else 0
  if unused = 0 then d else d.countBy (ctrAlloc h 1) unused

/-- One granted allocation of a received burst. On a standby the planner's state follows the mirror alone. -/
def Dev.servedEntry (d : Dev) (rx : BurstRx) (e : PlanEntry) : Dev :=
  let fill := rx.fills.find? fun x => x.allocId == e.allocId
  let rep := rx.reports.find? fun x => x.allocId == e.allocId
  if e.kind = 4 then
    match rep with
    | some r => if r.valid ∧ !d.standby then d.setTerm e.term fun t => { t with mgmtBacklog := r.backlog } else d
    | none => d
  else
    match d.entryAlloc? e with
    | none => d
    | some h =>
      match d.alloc? h with
      | none => d
      | some a =>
        let d := d.countReport h rx.frame e a fill rep
        d.setAlloc h fun a =>
          (if d.standby then a
            else a.served (planCfg d.objs rx.chan) (rxFrameBytes (chanCfg d.objs rx.chan)) rx.frame e fill rep).landed rx.frame

/-- One granted allocation of a missing burst. -/
def Dev.missedEntry (d : Dev) (m : Nat) (e : PlanEntry) : Dev :=
  match d.entryAlloc? e with
  | some h => d.setAlloc h fun a => (if d.standby then a else a.miss m).landed m
  | none => d

/-- The reports and fills of a burst; a report for an Alloc-ID that the burst was not granted is discarded and counted. -/
def Dev.planInputs (d : Dev) (rx : BurstRx) (es : List PlanEntry) : Dev :=
  let stray := (rx.reports.filter fun r => !(es.any fun e => e.allocId == r.allocId)).length
  let d := if stray = 0 then d else d.countBy (ctrChan rx.chan 8) stray
  es.foldl (fun d e => d.servedEntry rx e) d

/-! ### The terminal -/

/-- A burst is good (03 R91). -/
def goodBurst (p : Profile) (rx : BurstRx) : Bool := if p.fec then rx.uncorrectable == 0 else rx.hdrFails == 0

/-- The terminal after a burst with an accepted delimiter, stamped `at_`: a good one of an active terminal teaches the bearing (03 R91)
and the drift record (03 R93, 04 R118). -/
def Term.heard (t : Term) (rx : BurstRx) (at_ : Nat) (off : Int) (good : Bool) : Term :=
  let t := { t with missing := 0, noDelim := 0, burstTime := at_ }
  if !good then { t with runs := [] }
  else if !t.valid then t
  else { t.learn rx.final with drift := (off :: t.drift).take 16 }

/-- The terminal after a missing burst (03 R92, R95; 04 R120). On a standby the profile follows the mirror alone (04 R124). -/
def Term.missed (t : Term) (standby : Bool) : Term :=
  { t with missing := t.missing + 1, noDelim := t.noDelim + 1, runs := []
           profile := if 1 ≤ t.missing ∧ t.profPin = 0xFF ∧ !standby then 0 else t.profile }

/-- FEC counts of a burst (03 R96). -/
def Dev.countFec (d : Dev) (h : Nat) (p : Profile) (rx : BurstRx) : Dev :=
  if p.fec then
    (((d.countBy (ctrTerm h 3) rx.codewords).countBy (ctrTerm h 4) rx.corrected).countBy (ctrTerm h 5) rx.symbols).countBy
      (ctrTerm h 6) rx.uncorrectable
  else d

/-! ### Frames and circuit positions -/

/-- A terminal's key source where no flow binds the port: its unicast slots. -/
def plainFlow (h port : Nat) : Flow :=
  { term := h, dnPort := 0xFFFF, upPort := port, cls := 4, sealedFlow := false, fprof := 0, qprof := 0, udKind := 0, udest := 0, cbase := 0 }

/-- An upstream Ethernet frame after the cipher engine: size and FCS checks (03 R96, R97), then its ingress queue (01 R17). The size comes
first: a giant whose FCS fails is a giant; and a runt or giant that ERRDELIV sends to the host is counted as well (both DESIGN CHOICE,
log entry 166). A frame that was handed over early cannot be taken back: it goes on as bad (03 R85). -/
def Dev.upEthernet (d : Dev) (g h flow port seq at_ : Nat) (early : Bool) (data : Bytes) : Dev :=
  let c := chanCfg d.objs g
  let n := data.length
  let x : Frame := { data, src := srcCode 0 g, term := h, portId := port, bound := flow, itime := at_, seq }
  let go : Frame := { x with express := d.upLantern flow, early }
  if n < 64 then
    let d := d.count (ctrChan g 15)
    if c.errDeliv then d.ingress { x with reason := 6, dflags := 16 } else d
  else if c.maxFrame < n then
    let d := d.count (ctrChan g 16)
    if early then d.ingress { go with data := data.take c.maxFrame, bad := true, rxErr := 2 }
    else if c.errDeliv then d.ingress { x with data := data.take c.maxFrame, reason := 6, dflags := 8 } else d
  else if !fcsGood data then if early then d.ingress { go with bad := true, rxErr := 1 } else d.count (ctrTerm h 7)
  else
    let d := ((d.count (ctrChan g 20)).countBy (ctrChan g 21) n).flowCount flow 2 1
    (d.flowCount flow 3 n).ingress go

/-- A circuit position: its TU becomes the input of a later gateway frame (13 R331); one whose codeword failed, or whose slot has no
present CTR part, gives nothing (R332). -/
def Dev.upCircuit (d : Dev) (g h frame : Nat) (c : CircCfg) (x : RxFrame) : Dev :=
  if !x.fecOk then d
  else if x.keyField = 0 then d.count (ctrChan g 9)
  else
    match d.decryptUp g frame (plainFlow h x.portId) x with
    | (d, none) => d
    | (d, some p) =>
      let tu := slice p 4 (if c.level = 2 then 36 else 27)
      let m := frame + gatewayLag d.objs g
      let old : Circ := d.tdm.circs.getD c.circ {}
      { d with tdm := { d.tdm with circs := d.tdm.circs.put c.circ { old with
        content := (old.content.filter fun y => y.1 != m) ++ [(m, tu)]
        phases := (old.phases.filter fun y => y.1 != m) ++ [(m, field p 0 1 % 4)] } } }

/-- One encapsulation frame of a burst stamped `at_`. OMCI has a row of its own. A sealed frame is held whole until its tag is checked (11
R279), so it never starts early. -/
def Dev.upFrame (d : Dev) (rx : BurstRx) (at_ i : Nat) (x : RxFrame) : Dev :=
  let g := rx.chan
  let h := rx.term
  if !x.hdrOk then d.count (ctrTerm h 7)
  else
    match (circuits d.objs).find? fun c => c.term == h && c.upPort == x.portId with
    | some c => d.upCircuit g h rx.frame c x
    | none =>
      let seq := rx.frame * 65536 + i
      match List.find? (fun f : Nat × Flow => f.2.term == h && f.2.upPort == x.portId) d.flows with
      | some (f, y) =>
        if y.disabled then d.flowCount f 13 1
        else
          match d.decryptUp g rx.frame y x with
          | (d, some data) => d.upEthernet g h f x.portId seq at_ (x.early && !y.sealedFlow) data
          | (d, none) => d
      | none =>
        if (d.term? h).any fun t => t.onu == x.portId then d
        else
          match d.decryptUp g rx.frame (plainFlow h x.portId) x with
          | (d, some data) => d.upEthernet g h noFlow x.portId seq at_ x.early data
          | (d, none) => d

/-- The frames of a burst in their order. -/
def Dev.upFrames (d : Dev) (rx : BurstRx) (at_ : Nat) : Dev :=
  (rx.frames.foldl (fun (r : Dev × Nat) x => (r.1.upFrame rx at_ r.2 x, r.2 + 1)) (d, 0)).1

/-! ### Shadow samples (14 R355) -/

/-- Whole ns in units of the bit time at 49.7664 Gb/s. -/
def unitsOf (ns : Int) : Int := roundDiv (ns * 4976640) 100000

/-- A sample of the tree's receive offset against the active's: the delimiter's offset from E, the active's Ro included in E, less the
mirrored drift mean. -/
def Dev.shadowSample (d : Dev) (rx : BurstRx) (m : SearchMode) (off mean : Int) : Dev :=
  if !d.follows then d
  else
    let k := 4976640 / upRate5 (chanCfg d.objs rx.chan)
    d.setShadow (rx.chan / 4) fun s =>
      s.sample ((off - mean) * k + unitsOf ((if m = .acquiring then s.delta0 else s.ro) - s.roAct))

/-- A searched burst without an accepted delimiter. -/
def Dev.shadowMiss (d : Dev) (g : Nat) : Dev :=
  if d.follows then d.setShadow (g / 4) fun s => { s with missed := s.missed + 1 } else d

/-- Lantern allocations that a burst served keep its stamp on a device that does not transmit, and on an incoming one for bursts from
before the cut (14 R359). -/
def Dev.noteLantern (d : Dev) (es : List PlanEntry) (at_ : Nat) : Dev :=
  if !d.isProtected ∨ (d.prot.transmitting ∧ d.prot.cutAt ≤ at_) then d
  else
    let hs := (lallocs d.objs).filter fun a => es.any fun e => e.term == a.term && e.allocId == a.allocId
    d.setProt fun p => { p with lanternAt := hs.foldl (fun t a => t.put a.handle at_) p.lanternAt }

/-! ### BURST_RECEIVE -/

/-- A frame whose granted bursts have all been judged counts in the LOS run; one without a granted burst is skipped (03 R98). -/
def Chan.endLosFrame (c : Chan) : Chan :=
  { c with losRun := if !c.granted then c.losRun else if c.accepted then 0 else c.losRun + 1, granted := false, accepted := false }

/-- A granted burst of receive frame `m` is judged; `last`: no burst of the frame starts after it. -/
def Chan.noteBurst (c : Chan) (m : Nat) (last ok : Bool) : Chan :=
  let c := if c.losFrame = m then c else { c.endLosFrame with losFrame := m, losOver := false }
  if c.losOver then { c with losRun := if ok then 0 else c.losRun }
  else
    let c := { c with granted := true, accepted := c.accepted || ok }
    if last then { c.endLosFrame with losOver := true } else c

/-- No granted burst of the frame starts after this one. -/
def Dev.lastBurst (d : Dev) (rx : BurstRx) : Bool :=
  (((d.chan rx.chan).plan? rx.frame).map fun p => p.entries.all fun e => !opensBurst e || decide (e.start ≤ rx.start)).getD true

/-- A granted burst without an accepted delimiter (03 R95). Grants of a deactivation are not counted as missing (04 R122). -/
def Dev.burstMissing (d : Dev) (rx : BurstRx) (t : Term) (es : List PlanEntry) : Dev :=
  let last := d.lastBurst rx
  let d := d.setChan rx.chan fun c => c.noteBurst rx.frame last false
  let d := if t.valid ∧ t.graceTo < rx.frame then (d.count (ctrTerm rx.term 0)).setTerm rx.term (fun t => t.missed d.standby) else d
  (es.foldl (fun d e => d.missedEntry rx.frame e) d).shadowMiss rx.chan

/-- The instant in ns at which the first bit of an accepted delimiter reached the pin (03 R96, 12 R296): the receive axis of a frame begins
T_eq behind its frame instant (05 R126), a standby's later by its receive offset (14 R355). -/
def Dev.burstStamp (d : Dev) (rx : BurstRx) (m : SearchMode) (p : Profile) (off : Int) : Nat :=
  let c := chanCfg d.objs rx.chan
  let bits : Int := (teqBits d.objs rx.chan + 8 * rx.start + p.preBits : Nat) + off
  let s := d.shadow (rx.chan / 4)
  let ro : Int := if !d.follows then 0 else if m = .acquiring then s.delta0 else s.ro
  wrap 64 ((rx.frame * frameNs : Nat) + roundDiv (bits * 100000) (upRate5 c) + ro)

/-- A granted burst with an accepted delimiter at an offset. -/
def Dev.burstFound (d : Dev) (rx : BurstRx) (t : Term) (es : List PlanEntry) (m : SearchMode) (p : Profile) (off : Int) : Dev :=
  let good := goodBurst p rx
  let at_ := d.burstStamp rx m p off
  let last := d.lastBurst rx
  let d := d.setChan rx.chan fun c => c.noteBurst rx.frame last true
  let d := if good then d.goodLight rx.chan else d
  let d := (d.countFec rx.term p rx).shadowSample rx m off t.meanAct
  let d := d.setTerm rx.term fun t =>
    let t := t.heard rx at_ off good
    if good ∧ t.valid then d.chooseProfile (d.goodState t) else t
  let d := ((d.planInputs rx es).noteLantern es at_).upFrames rx at_
  if good then d.correctDrift rx.term else d

/-- The event BURST_RECEIVE. The burst is searched and judged under the profile of the version for which its plan was built (03 Table
3-8). A burst that no plan grants, or that the shadow does not search, leaves the device unchanged. -/
def burstReceive (rx : BurstRx) (d : Dev) : Dev :=
  match d.term? rx.term, d.burstGrants rx, (d.chan rx.chan).plan? rx.frame with
  | some t, e :: es, some plan =>
    let m := d.searchMode rx
    let p := plan.prof e.profile
    if m = .none ∨ d.chanIdle rx.chan then d
    else
      match d.delimiterAt rx m p with
      | none => d.burstMissing rx t (e :: es)
      | some off => d.burstFound rx t (e :: es) m p off
  | _, _, _ => d

/-- See `burstReceive`. -/
def execBurstReceive (rx : BurstRx) (s : State) : Host.Outcome State Fault Refusal := live (burstReceive rx) s

end Sys2Proof.Machine
end

