-- ==== Sys2Proof/Machine/Health.lean ====
section
/-!
DEFINITION. Counters, dumps, alarms, sensors, the life ledger, memory faults and the fault recovery (16; 02 R69).
-/
namespace Sys2Proof.Machine

/-! ### Ranges of counters -/

/-- A table without its entries in a range. -/
def outsideRange {α : Type} (t : Tbl α) (first count : Nat) : Tbl α :=
  t.filter fun e => decide (e.1 < first) || decide (first + count ≤ e.1)

/-- A table with one value over a range. -/
def fillRange {α : Type} (t : Tbl α) (first count : Nat) (v : α) : Tbl α :=
  (t.filter fun e => decide (e.1 < first)) ++ (List.range count).map (fun i => (first + i, v)) ++ t.filter fun e => decide (first + count ≤ e.1)

/-- Values of a range of counters, 8 bytes each. -/
def Dev.counterBytes (d : Dev) (first count : Nat) : Bytes := (List.range count).flatMap fun i => beBytes 8 (d.counter (first + i))

/-! ### COUNTER_READ, COUNTER_CHAIN_SET, COUNTER_CLEAR (R387 to R390) -/

/-- `COUNTER_READ`. -/
def cmdCounterRead : CmdDef where
  op := 0x0F01
  read := true
  form := fun p =>
    within (ent p 20 2) 1 4096 && aligned (ent p 24 8) 8 && decide (ent p 16 4 + ent p 20 2 ≤ ctrCount) && zeros 16 p [(22, 23), (32, 63)]
  run := fun e d =>
    let t := e.stamp.getD d.now
    (d.hostWrite (ent e.par 24 8) (d.counterBytes (ent e.par 16 4) (ent e.par 20 2))).finish e .done [t / 2 ^ 32, t % 2 ^ 32]

/-- The command `COUNTER_READ`. -/
def execCounterRead (p : Packet) (s : State) : Host.Outcome State Fault Refusal := command cmdCounterRead p s

/-- `COUNTER_CHAIN_SET`. -/
def cmdCounterChainSet : CmdDef where
  op := 0x0F02
  form := fun p =>
    within (ent p 20 4) 1 65536 && decide (ent p 16 4 + ent p 20 4 ≤ ctrCount) && decide (ent p 24 1 ≤ 1)
    && (ent p 24 1 == 0 || decide (ent p 16 4 + ent p 20 4 < ctrCount)) && zeros 16 p [(25, 63)]
  run := fun e d =>
    let f := ent e.par 16 4
    let n := ent e.par 20 4
    { d with health := { d.health with
        chain := if ent e.par 24 1 = 1 then fillRange d.health.chain f n true else outsideRange d.health.chain f n } }.ok e

/-- The command `COUNTER_CHAIN_SET`. -/
def execCounterChainSet (p : Packet) (s : State) : Host.Outcome State Fault Refusal := command cmdCounterChainSet p s

/-- `COUNTER_CLEAR`. -/
def cmdCounterClear : CmdDef where
  op := 0x0F03
  form := fun p => within (ent p 20 4) 1 65536 && decide (ent p 16 4 + ent p 20 4 ≤ ctrCount) && zeros 16 p [(24, 63)]
  run := fun e d =>
    { d with health := { d.health with counters := outsideRange d.health.counters (ent e.par 16 4) (ent e.par 20 4) } }.ok e

/-- The command `COUNTER_CLEAR`. -/
def execCounterClear (p : Packet) (s : State) : Host.Outcome State Fault Refusal := command cmdCounterClear p s

/-! ### Dumps (R391 to R393) -/

/-- Ranges of a `DUMP_SET` buffer: FIRST and COUNT. -/
def dumpRanges (p : Bytes) : List (Nat × Nat) := (List.range (field p 2 1)).map fun i => (field p (24 + 8 * i) 4, field p (28 + 8 * i) 4)

/-- Counters that a dump holds. -/
def totalOf (rs : List (Nat × Nat)) : Nat := sumBy rs Prod.snd

/-- Fields of Table 16-3; a removal checks the set, the flag and the reserved fields (02 R433). -/
def dumpForm (p : Bytes) : Bool :=
  decide (field p 0 1 ≤ 15) && decide (field p 1 1 ≤ 1) && field p 3 1 == 0
  && (bit (field p 1 1) 0
    || (within (field p 2 1) 1 16 && decide (field p 4 4 ≤ 3600000) && aligned (field p 8 8) 4096 && aligned (field p 16 8) 4096
      && allZero (p.drop (24 + 8 * field p 2 1)) && decide (totalOf (dumpRanges p) ≤ ctrCount)
      && (dumpRanges p).all fun r => decide (r.1 + r.2 ≤ ctrCount)))

/-- A dump set. -/
def Dev.dump? (d : Dev) (s : Nat) : Option DumpSet := d.health.dumps.find? s

/-- Changes the dump sets. -/
def Dev.setDumps (d : Dev) (f : Tbl DumpSet → Tbl DumpSet) : Dev := { d with health := { d.health with dumps := f d.health.dumps } }

/-- A dump of the set is being written. -/
def Dev.dumping (d : Dev) (s : Nat) : Bool := (d.dump? s).any fun x => x.writing.isSome

/-- `DUMP_SET`; the removal of a set that does not exist gives `CONFLICT` (02 R435). -/
def cmdDumpSet : CmdDef where
  op := 0x0F04
  buffer := true
  form := dumpForm
  forbid := fun d e =>
    if d.dumping (field e.par 0 1) then some (.busy, [])
    else if bit (field e.par 1 1) 0 ∧ (d.dump? (field e.par 0 1)).isNone then some (.conflict, []) else none
  run := fun e d =>
    let p := e.par
    let t := e.stamp.getD d.now
    (d.setDumps fun x =>
      if bit (field p 1 1) 0 then x.del (field p 0 1)
      else x.put (field p 0 1) { period := field p 4 4, bufA := field p 8 8, bufB := field p 16 8, ranges := dumpRanges p, last := t }).ok e

/-- The command `DUMP_SET`. -/
def execDumpSet (p : Packet) (s : State) : Host.Outcome State Fault Refusal := command cmdDumpSet p s

/-- Buffer of a dump number. -/
def DumpSet.buffer (x : DumpSet) (k : Nat) : Nat := if k % 2 = 0 then x.bufA else x.bufB

/-- A dump begins at instant `t`: every counter of the set is taken, and the values are written behind the header's place. -/
def Dev.beginDump (d : Dev) (s : Nat) (x : DumpSet) (t : Nat) (exec : Option (Nat × Nat)) : Dev :=
  let d := d.hostWrite (x.buffer x.next + 64) (x.ranges.flatMap fun r => d.counterBytes r.1 r.2)
  d.setDumps fun u => u.put s
    { x with
      next := x.next + 1, skipped := false, recovered := false
      writing := some { num := x.next, flags := b2n x.skipped + 2 * b2n x.recovered, time := t, skips := x.skips, exec } }

/-- A dump instant that falls while a dump of the set is being written is skipped (R393). -/
def Dev.skipDump (d : Dev) (s : Nat) : Dev :=
  ((d.setDumps fun u => u.adjust s fun (x : DumpSet) => { x with skips := x.skips + 1, skipped := true }).count (ctrDev 43)).alarm alDump

/-- `DUMP_START`. A skipped one completes with `BUSY`; a DRY one answers so without a skip. -/
def cmdDumpStart : CmdDef where
  op := 0x0F05
  form := fun p => decide (ent p 16 1 ≤ 15) && zeros 16 p [(17, 63)]
  forbid := fun d e =>
    if (d.dump? (ent e.par 16 1)).isNone then some (.conflict, [])
    else if Packet.dry e.pkt ∧ d.dumping (ent e.par 16 1) then some (.busy, []) else none
  run := fun e d =>
    let s := ent e.par 16 1
    match d.dump? s with
    | none => d.finish e .conflict []
    | some x =>
      if x.writing.isSome then (d.skipDump s).finish e .busy []
      else (d.park e).beginDump s x (e.stamp.getD d.now) (some (e.dom, e.seq))

/-- The command `DUMP_START`. -/
def execDumpStart (p : Packet) (s : State) : Host.Outcome State Fault Refusal := command cmdDumpStart p s

/-- The event DUMP_INSTANT: the set's next whole multiple of PERIOD since the PTP epoch. -/
def dumpInstant (s : Nat) (d : Dev) : Dev :=
  match d.dump? s with
  | none => d
  | some x =>
    if x.period = 0 then d
    else
      let ms := x.period * 1000000
      let t := max (roundUp d.now ms) ((x.last / ms + 1) * ms)
      let d := d.goTime t
      if x.writing.isSome then (d.setDumps fun u => u.adjust s fun (y : DumpSet) => { y with last := t }).skipDump s
      else d.beginDump s { x with last := t } t none

/-- See `dumpInstant`. -/
def execDumpInstant (set : Nat) (s : State) : Host.Outcome State Fault Refusal := live (dumpInstant set) s

/-- The header of Table 16-4. -/
def dumpHeader (s total : Nat) (r : DumpRun) : Bytes :=
  beBytes 4 r.num ++ beBytes 1 s ++ beBytes 1 r.flags ++ [0#8, 0#8] ++ beBytes 8 r.time ++ beBytes 4 total ++ beBytes 4 r.skips
  ++ List.replicate 40 0#8

/-- The event DUMP_WRITE_COMPLETE: the header is written, and a `DUMP_START` replies. -/
def dumpWriteComplete (s : Nat) (d : Dev) : Dev :=
  match d.dump? s with
  | none => d
  | some x =>
    match x.writing with
    | none => d
    | some r =>
      let d := (d.hostWrite (x.buffer r.num) (dumpHeader s (totalOf x.ranges) r)).setDumps fun u => u.put s { x with writing := none }
      match r.exec with
      | some i => d.finishId i.1 i.2 .done [r.num % 2 ^ 32]
      | none => d

/-- See `dumpWriteComplete`. -/
def execDumpWriteComplete (set : Nat) (s : State) : Host.Outcome State Fault Refusal := live (dumpWriteComplete set) s

/-! ### ALARM_CLEAR (R395) -/

/-- `ALARM_CLEAR`: sticky bits on every page. -/
def cmdAlarmClear : CmdDef where
  op := 0x0F06
  form := fun p => decide (ent p 16 32 < 2 ^ 23) && zeros 16 p [(48, 63)]
  run := fun e d =>
    let m := ent e.par 16 32
    { d with doms := d.doms.mapAll fun _ (x : Dom) => { x with sticky := x.sticky.filter fun b => !bit m b } }.ok e

/-- The command `ALARM_CLEAR`. -/
def execAlarmClear (p : Packet) (s : State) : Host.Outcome State Fault Refusal := command cmdAlarmClear p s

/-! ### FAULT_LOG_READ, SENSOR_READ (R434, R397) -/

/-- The bytes of a fault record (Table 16-7). -/
def FaultRec.bytes (r : FaultRec) : Bytes := beBytes 4 r.index ++ beBytes 1 r.cls ++ [r.detail] ++ [0#8, 0#8] ++ beBytes 8 r.time

/-- `FAULT_LOG_READ`. -/
def cmdFaultLogRead : CmdDef where
  op := 0x0F07
  read := true
  form := fun p => aligned (ent p 16 8) 8 && zeros 16 p [(24, 63)]
  run := fun e d =>
    (d.hostWrite (ent e.par 16 8) (d.health.log.flatMap FaultRec.bytes ++ List.replicate 16 0#8)).finish e .done
      [d.health.log.length, sat 32 d.health.logged, 0, 0]

/-- The command `FAULT_LOG_READ`. -/
def execFaultLogRead (p : Packet) (s : State) : Host.Outcome State Fault Refusal := command cmdFaultLogRead p s

/-- `SENSOR_READ`. Before the first measurement the value is open, and is a free value, as is the highest. -/
def cmdSensorRead : CmdDef where
  op := 0x0F08
  read := true
  form := fun p => decide (ent p 16 1 ≤ 13) && zeros 16 p [(17, 63)]
  run := fun e d =>
    match d.health.sensors.find? (ent e.par 16 1) with
    | some v => d.finish e .done [wrap 32 v, wrap 32 (Tbl.getD d.health.highs (ent e.par 16 1) v)]
    | none => d.freeNext.finish e .done [d.freeNow % 2 ^ 32, d.freeNow % 2 ^ 32]

/-- The command `SENSOR_READ`. -/
def execSensorRead (p : Packet) (s : State) : Host.Outcome State Fault Refusal := command cmdSensorRead p s

/-! ### Life ledger (R398, R399) -/

/-- e^(num / den) in units of 2^-128, for a positive `den`: the series of a thirty-second part, squared five times. -/
def expFixed (num den : Int) : Int :=
  let y := num * 2 ^ 128 / (32 * den)
  let r := (List.range 40).foldl (fun (r : Int × Int) (k : Nat) =>
    let t := r.1 * y / 2 ^ 128 / ((k : Int) + 1)
    (t, r.2 + t)) ((2 ^ 128 : Int), (2 ^ 128 : Int))
  (List.range 5).foldl (fun v _ => v * v / 2 ^ 128) r.2

/-- Acceleration factor of a temperature in 1/16 °C, in units of 2^-42: exp(8,123.5 × (1 / 363.15 − 1 / (T + 273.15))). -/
def accelFactor (t : Int) : Nat :=
  let k := 25 * t + 109260
  if k ≤ 0 then 0 else (expFixed (16247 * (10 * k - 1452600)) (7263 * k) / 2 ^ 86).toNat

/-- Equivalent seconds of the ledger's record, in 1/1,024 s. -/
def Ledger.record (l : Ledger) : Nat := l.equiv / 2 ^ 32 + b2n (Config.ledgerRoundUp (l.equiv % 2 ^ 32) && decide (l.equiv % 2 ^ 32 ≠ 0))

/-- Bytes 0 to 59 of the record. -/
def Ledger.body (l : Ledger) : Bytes :=
  beBytes 8 Config.serial.toNat ++ beBytes 8 l.record ++ beBytes 8 l.powered ++ beBytes 8 l.hot95 ++ beBytes 8 l.hot100
  ++ beBytes 2 (wrap 16 l.highest) ++ beBytes 2 (sat 16 l.trips) ++ beBytes 4 (sat 32 l.powerUps) ++ List.replicate 12 0#8

/-- The record with its CRC-32C. -/
def Ledger.bytes (l : Ledger) : Bytes := l.body ++ beBytes 4 (crc32c l.body).toNat

/-- `LEDGER_READ`. -/
def cmdLedgerRead : CmdDef where
  op := 0x0F09
  read := true
  form := fun p => zeros 16 p [(24, 63)]
  run := fun e d => (d.hostWrite (ent e.par 16 8) d.health.ledger.bytes).ok e

/-- The command `LEDGER_READ`. -/
def execLedgerRead (p : Packet) (s : State) : Host.Outcome State Fault Refusal := command cmdLedgerRead p s

/-- The ledger with a loaded record added. -/
def Ledger.load (l : Ledger) (p : Bytes) : Ledger :=
  { equiv := l.equiv + field p 8 8 * 2 ^ 32, powered := l.powered + field p 16 8, hot95 := l.hot95 + field p 24 8
    hot100 := l.hot100 + field p 32 8, highest := max l.highest (signed 16 (field p 40 2)), trips := l.trips + field p 42 2
    powerUps := l.powerUps + field p 44 4 + 1, loaded := true }

/-- `LEDGER_LOAD`: the record of 64 bytes comes as the INDIRECT buffer. -/
def cmdLedgerLoad : CmdDef where
  op := 0x0F0A
  buffer := true
  form := fun p =>
    p.length == 64 && zeros 0 p [(48, 59)] && field p 60 4 == (crc32c (slice p 0 60)).toNat && field p 0 8 == Config.serial.toNat
  forbid := fun d _ => if d.vers.committed ∨ d.health.ledger.loaded then some (.conflict, []) else none
  run := fun e d => { d with health := { d.health with ledger := d.health.ledger.load e.par } }.ok e

/-- The command `LEDGER_LOAD`. -/
def execLedgerLoad (p : Packet) (s : State) : Host.Outcome State Fault Refusal := command cmdLedgerLoad p s

/-- A class 4 fault: outputs dark, heartbeat and command fetch stopped until reset; HEALTH falls to 0 (Table 16-6), and nothing
refreshes it. -/
def Dev.fatal (d : Dev) : Dev :=
  { d with sys := { d.sys with fatal := true, dark := true }, prot := { d.prot with health := 0, hung := true } }

/-- A thermal trip (R397). -/
def Dev.trip (d : Dev) : Dev :=
  if d.sys.fatal then d
  else { d with health := { d.health with ledger := { d.health.ledger with trips := d.health.ledger.trips + 1 } } }.fatal

/-- A second at a hottest junction, in the ledger. -/
def Ledger.second (l : Ledger) (hot : Int) : Ledger :=
  { l with
    equiv := l.equiv + accelFactor hot, powered := l.powered + 1, hot95 := l.hot95 + b2n (decide (1520 ≤ hot))
    hot100 := l.hot100 + b2n (decide (1600 ≤ hot)), highest := max l.highest hot }

/-- The event LEDGER_TICK: the second's readings of sensors 0 to 13. -/
def ledgerTick (readings : List Int) (d : Dev) : Dev :=
  let rs := (List.range 14).zip readings
  let d := { d with health := { d.health with
    sensors := rs.foldl (fun t r => Tbl.put t r.1 r.2) d.health.sensors
    highs := rs.foldl (fun t r => Tbl.put t r.1 (max (Tbl.getD t r.1 r.2) r.2)) d.health.highs } }
  match (readings.take 8).max? with
  | none => d
  | some hot =>
    let d := { d with health := { d.health with ledger := d.health.ledger.second hot } }
    if 1680 ≤ hot then d.trip else d

/-- See `ledgerTick`. -/
def execLedgerTick (readings : List Int) (s : State) : Host.Outcome State Fault Refusal := live (ledgerTick readings) s

/-- Consumed life has reached 90% of 1,262,304,000 equivalent seconds. -/
def Ledger.worn (l : Ledger) : Bool := decide (9 * (1262304000 * 2 ^ 42) ≤ 10 * l.equiv)

/-- Operating ranges of sensors 8 to 13 in tenths of a mV (18 Table 18-3). -/
def supplyRange : Nat → Int × Int
  | 8 => (7275, 7725)
  | 9 => (8730, 9270)
  | 10 => (11640, 12360)
  | 11 => (17460, 18540)
  | 12 => (10670, 11330)
  | _ => (3880, 4120)

/-- Alarm bit 17: a junction reads 95 °C or more. -/
def Dev.tempHigh (d : Dev) : Bool := d.health.sensors.any fun s => decide (s.1 < 8) && decide (1520 ≤ s.2)

/-- Alarm bit 18: a supply lies outside its operating range. -/
def Dev.supplyBad (d : Dev) : Bool :=
  d.health.sensors.any fun s => decide (8 ≤ s.1) && (decide (10 * s.2 < (supplyRange s.1).1) || decide ((supplyRange s.1).2 < 10 * s.2))

/-! ### Frames in flight -/

/-- Every frame that a crossing, a queue, a schedule or a hold of the device keeps. -/
def Dev.allFrames (d : Dev) : List Frame :=
  d.sw.pipes.flatMap (fun p => p.2.express ++ p.2.normal)
  ++ d.sw.voqs.map Voq.frame
  ++ d.flows.flatMap (fun f => f.2.queue.all ++ f.2.retain.map Prod.snd)
  ++ d.chans.flatMap (fun c => c.2.lantern ++ c.2.sending.toList.map Sending.frame ++ c.2.fragment.toList.map Sending.frame)
  ++ d.ports.flatMap (fun p => p.2.queues.flatMap Queue.all ++ (p.2.sending.toList ++ p.2.fragment.toList).map PortSend.frame)
  ++ d.sw.rx.flatMap (fun r => r.2.queue)
  ++ d.prot.held.map Prod.snd ++ d.prot.lanternRetain.map fun r => r.2.2

/-- A frame in sending that does not meet a test. -/
def keepSending (p : Frame → Bool) (s : Option Sending) : Option Sending := s.filter fun x => !p x.frame

/-- Every frame that meets a test is discarded, and its segments are freed. -/
def Dev.dropFrames (d : Dev) (p : Frame → Bool) : Dev :=
  let d := d.freeFrames (d.allFrames.filter p)
  let keep := fun (l : List Frame) => l.filter fun x => !p x
  { d with
    sw := { d.sw with
      pipes := d.sw.pipes.mapAll fun _ (q : Pipe) => { q with express := keep q.express, normal := keep q.normal }
      voqs := d.sw.voqs.filter fun v => !p v.frame
      rx := d.sw.rx.mapAll fun _ (r : FrameRing) => { r with queue := keep r.queue } }
    flows := d.flows.mapAll fun _ (f : Flow) => { f with queue := f.queue.without p, retain := f.retain.filter fun r => !p r.2 }
    chans := d.chans.mapAll fun _ (c : Chan) =>
      { c with lantern := keep c.lantern, sending := keepSending p c.sending, fragment := keepSending p c.fragment }
    ports := d.ports.mapAll fun _ (q : Port) =>
      { q with queues := q.queues.map fun x => x.without p, sending := q.sending.filter fun s => !p s.frame
               fragment := q.fragment.filter fun s => !p s.frame }
    prot := { d.prot with
      held := d.prot.held.filter fun h => !p h.2
      lanternRetain := d.prot.lanternRetain.filter fun r => !p r.2.2 } }

/-! ### Fault recovery (02 R69) -/

/-- What a domain keeps: its BAR0 rings, heartbeat, disabled state and sticky alarms; its management ring goes. -/
def Dom.recovered (m : Dom) (draining : Bool) : Dom := { m with mgmt := none, hbRecovered := true, disabled := m.disabled || draining }

/-- What the time base keeps (12 R306, R308; 17 R413): it runs on with its role and lock, without waiting steps of the host's,
beacons, pin actions, captures and settings of ports. -/
def Time.recovered (t : Time) : Time :=
  { t with waiting := none, rebases := t.rebases.filter Rebase.remote, beacons := [], teHigh := [], pulses := [], inputs := []
           tsRing := none, ptp := [], synce := [] }

/-- What protection keeps: its settings and the claim unit with the round that runs; a protected device enters wait-to-restore with HEALTH 0 (14 R362, 16
R396). -/
def Prot.recovered (p : Prot) : Prot :=
  let q : Prot := { mode := p.mode, partner := p.partner, tlane := p.tlane, aprio := p.aprio, wtr := p.wtr, rbeacon := p.rbeacon
                    prio := p.prio, okA := p.okA, okB := p.okB, wonA := p.wonA, wonB := p.wonB, decided := p.decided
                    transmitting := p.transmitting, sentLast := p.sentLast, isolated := p.isolated, latched := p.latched }
  if p.mode = 0 then q else q.wait

/-- What a port keeps: its disabled state, and the counts since reset. -/
def Port.recovered (p : Port) (now : Nat) : Port :=
  { disabled := p.disabled, downs := p.downs, changed := if p.link = 1 then p.changed else now }

/-- The device after a fault recovery: what its rules keep, everything else as after reset (02 R69). The counts since reset run on: slips
(13 R337), free faults and their log (09 R230). The performance bins that hold the instant are suspect (13 R335). -/
def Dev.cleared (d : Dev) : Dev :=
  { sys := { d.sys with dark := true, recoveredAt := some d.time.c }
    doms := d.doms.mapAll fun n (m : Dom) => m.recovered (d.draining (.domain n))
    rotor := d.rotor
    vers := { highest := d.vers.highest, retireMs := d.vers.retireMs, committed := d.vers.committed }
    chans := d.chans.mapAll fun g (c : Chan) => { disabled := c.disabled, los := (d.tree (g / 4)).losPin }
    trees := d.trees.mapAll fun _ (t : Tree) => { t with training := false }
    time := d.time.recovered
    tdm := { pms := d.tdm.pms.map fun p => (p.1, p.2.suspect d.now), slips := d.tdm.slips }
    sw := { freeLog := d.sw.freeLog, freeFaults := d.sw.freeFaults }
    prot := d.prot.recovered
    ports := d.ports.mapAll fun _ (p : Port) => p.recovered d.now
    health := { d.health with dumps := d.health.dumps.mapAll fun _ (x : DumpSet) => { x with recovered := true, writing := none } }
    termDom := d.termDom
    flowDom := d.flowDom
    pins := d.pins
    out := d.out
    freeCount := d.freeCount }

/-- A fault recovery: every command in execution ends with `LOST`, the frames in flight are discarded and counted, and the device is
cleared, outputs dark. -/
def Dev.recover (d : Dev) : Dev :=
  let d := d.endAll (fun _ => true) .lost
  let n := d.allFrames.length
  (if n = 0 then d else d.countBy (Config.recoveryCounter % ctrFree) n).cleared

/-! ### Memory faults (R396, R434) -/

/-- A record in the fault log of 64. -/
def Dev.logFault (d : Dev) (cls : Nat) (detail : Byte) (index : Nat) : Dev :=
  let l := d.health.log ++ [(⟨index % 2 ^ 32, cls, detail, d.now⟩ : FaultRec)]
  { d with health := { d.health with log := l.drop (l.length - 64), logged := d.health.logged + 1 } }

/-- The event CORRECTED_MEMORY_ERROR: class 1. -/
def correctedError (d : Dev) : Dev :=
  let sec := d.now / 1000000000
  let n := if d.health.correctedSec = sec then d.health.corrected + 1 else 1
  let d := { d with health := { d.health with corrected := n, correctedSec := sec } }.count (ctrDev 41)
  if 1000 < n then d.alarm alCorrected else d

/-- See `correctedError`. -/
def execCorrectedMemoryError (s : State) : Host.Outcome State Fault Refusal := live correctedError s

/-- Spilled frames of every queue. -/
def Dev.deepFrames (d : Dev) : List Frame :=
  d.flows.flatMap (fun f => f.2.queue.deep) ++ d.ports.flatMap fun p => p.2.queues.flatMap Queue.deep

/-- The frame data of a deep-buffer page is lost: which spilled frame the page holds is open, so a free value picks it. -/
def Dev.strikePage (d : Dev) : Dev :=
  match d.deepFrames with
  | [] => d
  | l =>
    let i := d.freeNow % l.length
    d.freeNext.dropFrames fun x => l[i]? == some x

/-- An allocation entry is lost; a delete that waits for it completes. -/
def Dev.strikeAlloc (d : Dev) (h : Nat) : Dev :=
  let d := { d with allocs := d.allocs.del h }
  match d.execs.find? fun e => e.op == 0x0504 && e.started && e.armed.isNone && ent e.par 16 2 == h with
  | some e => d.ok e
  | none => d

/-- What a class 2 fault takes away (Table 16-8); none for another code. -/
def Dev.contained? (d : Dev) (detail : Byte) (index : Nat) : Option Dev :=
  match detail.toNat with
  | 0x01 =>
    let struck := (d.sw.segs.filter fun s => s.2.index == index).map Prod.fst
    some (d.dropFrames fun x => x.segs.any fun a => struck.contains a)
  | 0x02 => some d.strikePage
  | 0x10 => some { d with terms := d.terms.del index }
  | 0x11 =>
    let d := (d.discardFlows fun f => f == index).1
    let d := d.freeFrames (((d.flow? index).map fun f => f.retain.map Prod.snd).getD [])
    some { d with flows := d.flows.del index }
  | 0x12 => some (d.strikeAlloc index)
  | 0x13 => some { d with fwd := { d.fwd with slots := d.fwd.slots.del index } }
  | 0x14 => some { d with cls := { d.cls with sub := d.cls.sub.del index } }
  | 0x15 => some { d with meters := d.meters.del index }
  | 0x16 => some { d with sw := { d.sw with repl := d.sw.repl.del index } }
  | _ => none

/-- The event CONTAINED_FAULT: class 2. -/
def containedFault (detail : Byte) (index : Nat) (d : Dev) : Dev :=
  match d.contained? detail index with
  | some d => ((d.logFault 2 detail index).count (ctrDev 42)).alarm alContained
  | none => d

/-- See `containedFault`. -/
def execContainedFault (detail : Byte) (index : Nat) (s : State) : Host.Outcome State Fault Refusal := live (containedFault detail index) s

/-- A class 3 fault falls within 1 s of the previous recovery. -/
def Dev.soonAgain (d : Dev) : Bool := d.sys.recoveredAt.any fun c => decide (d.time.c ≤ c + 1000000000)

/-- The event RECOVERABLE_FAULT: class 3, logged and recovered; within 1 s of the previous recovery, class 4. -/
def recoverableFault (detail : Byte) (index : Nat) (d : Dev) : Dev :=
  if d.sys.fatal ∨ !within detail.toNat 0x30 0x35 then d
  else if d.soonAgain then d.fatal
  else (d.logFault 3 detail index).recover

/-- See `recoverableFault`. -/
def execRecoverableFault (detail : Byte) (index : Nat) (s : State) : Host.Outcome State Fault Refusal :=
  live (recoverableFault detail index) s

/-- A return read is outstanding in some queue. -/
def Dev.reading (d : Dev) : Bool :=
  (d.flows.any fun f => !f.2.queue.returns.isEmpty) || d.ports.any fun p => p.2.queues.any fun q => !q.returns.isEmpty

/-- The event DEEP_BUFFER_READ_LATE (09 R236): a class 3 fault of the stack. -/
def deepReadLate (stack : Nat) (d : Dev) : Dev := if d.reading then recoverableFault 0x34#8 (stack % 2 * 2 ^ 31) d else d

/-- See `deepReadLate`. -/
def execDeepBufferReadLate (stack : Nat) (s : State) : Host.Outcome State Fault Refusal := live (deepReadLate stack) s

/-- The event FATAL_FAULT: a thermal trip, or a second class 3 fault within 1 s of a recovery. -/
def fatalFault (thermal : Bool) (d : Dev) : Dev := if thermal then d.trip else if d.soonAgain then d.fatal else d

/-- See `fatalFault`. -/
def execFatalFault (thermal : Bool) (s : State) : Host.Outcome State Fault Refusal := live (fatalFault thermal) s

end Sys2Proof.Machine
end

