-- ==== Sys2Proof/Machine/Boot.lean ====
section
/-!
DEFINITION. Reset, straps, boot state, firmware, the behaviour epoch, and the status of the device mesh (17; 18 R423 to R425; 02
R72, R73).
-/
namespace Sys2Proof.Machine

/-! ### Staging memory of the Keepers (17 R404) -/

/-- One byte written. A byte that nothing has written reads as 0, so a 0 is not listed. -/
def Memory.putByte (m : Tbl Byte) (a : Nat) (b : Byte) : Tbl Byte := if b = 0#8 then m.del a else m.put a b

/-- Bytes written from an address on. -/
def Memory.store (m : Tbl Byte) (a : Nat) : Bytes → Tbl Byte
  | [] => m
  | b :: t => Memory.store (Memory.putByte m a b) (a + 1) t

/-- The byte at an address. -/
def Memory.read (m : Tbl Byte) (a : Nat) : Byte := m.getD a 0#8

/-- `n` bytes from address 0. -/
def Memory.load (m : Tbl Byte) (n : Nat) : Bytes := (List.range n).map fun a => Memory.read m a

/-- Addresses strictly rising from `lo` on, and no byte listed that an unlisted address reads as. -/
def Memory.wfFrom : Nat → Tbl Byte → Bool
  | _, [] => true
  | lo, (a, b) :: t => decide (lo ≤ a) && decide (b ≠ 0#8) && Memory.wfFrom (a + 1) t

/-- The canonical form of the staging memory. -/
def Memory.wf (m : Tbl Byte) : Bool := Memory.wfFrom 0 m

/-! ### IDENTITY_READ, BOOT_STATUS, EPOCH_PIN, EPOCH_QUERY -/

/-- A command that any domain may send. -/
def anyDomain (_ : Dev) (_ : Nat) (_ : Bytes) : Bool := true

/-- IDENT_REV: silicon revision and firmware revision (02 Table 2-1). -/
def Dev.identRev (d : Dev) : Nat := 256 * Config.siliconRev.toNat + d.sys.fwRev.toNat

/-- `IDENTITY_READ` (17 R402). -/
def cmdIdentityRead : CmdDef where
  op := 0x0101
  tenant := some anyDomain
  boot := true
  read := true
  form := fun p => zeros 16 p [(16, 63)]
  run := fun e d =>
    d.finish e .done [Config.identPart.toNat, d.identRev, Config.serial.toNat / 2 ^ 32, Config.serial.toNat % 2 ^ 32]

/-- The command `IDENTITY_READ`. -/
def execIdentityRead (p : Packet) (s : State) : Host.Outcome State Fault Refusal := command cmdIdentityRead p s

/-- `BOOT_STATUS` (17 R407). -/
def cmdBootStatus : CmdDef where
  op := 0x0105
  boot := true
  read := true
  form := fun p => zeros 16 p [(16, 63)]
  run := fun e d => d.finish e .done [d.sys.boot, d.identRev, d.sys.selfBits.toNat, d.sys.repaired]

/-- The command `BOOT_STATUS`. -/
def execBootStatus (p : Packet) (s : State) : Host.Outcome State Fault Refusal := command cmdBootStatus p s

/-- `EPOCH_PIN` (02 R72). -/
def cmdEpochPin : CmdDef where
  op := 0x0110
  form := fun p => (ent p 16 2 == 0 || within (ent p 16 2) Config.epochLow Config.epochHigh) && zeros 16 p [(18, 63)]
  forbid := fun d _ => if !d.sys.dark ∨ d.vers.committed then some (.conflict, []) else none
  run := fun e d => { d with sys := { d.sys with epochPin := BitVec.ofNat 16 (ent e.par 16 2) } }.ok e

/-- The command `EPOCH_PIN`. -/
def execEpochPin (p : Packet) (s : State) : Host.Outcome State Fault Refusal := command cmdEpochPin p s

/-- `EPOCH_QUERY` (02 R73). -/
def cmdEpochQuery : CmdDef where
  op := 0x0111
  tenant := some anyDomain
  boot := true
  read := true
  form := fun p => zeros 16 p [(16, 63)]
  run := fun e d => d.finish e .done [d.sys.epochPin.toNat, Config.epochLow, Config.epochHigh, 0]

/-- The command `EPOCH_QUERY`. -/
def execEpochQuery (p : Packet) (s : State) : Host.Outcome State Fault Refusal := command cmdEpochQuery p s

/-! ### MESH_STATUS (17 R412) -/

/-- Brynlinks and tender links of the running version. -/
def Dev.meshLinks (d : Dev) : List Group := (groups d.objs).filter fun q => q.kind == 2 || q.kind == 3

/-- The map of a list of DEV_IDs. -/
def idMap (l : List Nat) : Nat := sumBy (distinct l) fun i => 2 ^ i

/-- DEV_ID of the peer of a link that is up. -/
def Dev.peerUp? (d : Dev) (l : Nat) : Option Nat := if d.portUp l then (d.port l).peer.map Prod.fst else none

/-- The DEV_IDs reached only at two hops: no rule says how the device learns them, so a free value gives the map, without its own
DEV_ID and without those that a link reaches; empty with no link up. -/
def Dev.twoHops (d : Dev) (near : List Nat) : Nat :=
  if near.isEmpty then 0
  else sumBy ((List.range 8).filter fun i => bit d.freeNow i && i != d.sys.devId.toNat && !near.contains i) fun i => 2 ^ i

/-- DEV_ID of the time master: the device itself in a master role (17 R413), otherwise the master that it follows. -/
def Dev.masterId (d : Dev) : Nat :=
  if d.time.role ≠ 3 then d.sys.devId.toNat else if d.time.source.isSome then d.time.master.getD 0xFF else 0xFF

/-- `MESH_STATUS`. -/
def cmdMeshStatus : CmdDef where
  op := 0x0106
  read := true
  form := fun p => zeros 16 p [(16, 63)]
  run := fun e d =>
    let links := d.meshLinks
    let near := links.filterMap fun q => d.peerUp? q.lane
    let bad := links.filterMap fun q => (d.port q.lane).conflict
    let partner := ((links.filter fun q => q.kind == 3).filterMap fun q => d.peerUp? q.lane).head?.getD 0xFF
    d.freeNext.finish e .done
      [idMap near + 256 * idMap bad + 65536 * d.twoHops near, partner + 256 * d.masterId, links.length,
        (links.filter fun q => d.portUp q.lane).length]

/-- The command `MESH_STATUS`. -/
def execMeshStatus (p : Packet) (s : State) : Host.Outcome State Fault Refusal := command cmdMeshStatus p s

/-! ### Firmware (17 R403 to R406) -/

/-- `FIRMWARE_LOAD`. -/
def cmdFirmwareLoad : CmdDef where
  op := 0x0103
  buffer := true
  boot := true
  form := fun p =>
    within p.length 16 65536 && aligned (field p 0 4) 8 && zeros 0 p [(4, 7)] && decide (field p 0 4 + (p.length - 8) ≤ 16777216)
  forbid := fun d _ => if d.sys.fwStarted ∨ d.sys.boot = 3 then some (.conflict, []) else none
  run := fun e d =>
    { d with sys := { d.sys with staging := Memory.store d.sys.staging (field e.par 0 4) (e.par.drop 8) } }.ok e

/-- The command `FIRMWARE_LOAD`. -/
def execFirmwareLoad (p : Packet) (s : State) : Host.Outcome State Fault Refusal := command cmdFirmwareLoad p s

/-- The Keepers start and the self test runs (17 R405); a start from SPI has no command. -/
def Dev.startImage (d : Dev) (image : Bytes) (exec : Option (Nat × Nat)) : Dev :=
  { d with sys := { d.sys with fwStarted := true, starting := some exec, newRev := Config.imageRevision image } }

/-- The checks of an image: 1 for its CRC, 2 for its header. -/
def imageFails (image : Bytes) (crc : Nat) : Option Nat :=
  if (crc32c image).toNat ≠ crc then some 1 else if !Config.imageHeaderOk image then some 2 else none

/-- `FIRMWARE_START`. -/
def cmdFirmwareStart : CmdDef where
  op := 0x0104
  boot := true
  form := fun p => within (ent p 16 4) 64 16777216 && zeros 16 p [(24, 63)]
  bad := fun d e => (imageFails (Memory.load d.sys.staging (ent e.par 16 4)) (ent e.par 20 4)).map fun n => [n]
  forbid := fun d _ => if d.sys.fwStarted ∨ d.sys.boot = 3 then some (.conflict, []) else none
  run := fun e d => (d.park e).startImage (Memory.load d.sys.staging (ent e.par 16 4)) (some (e.dom, e.seq))

/-- The command `FIRMWARE_START`. -/
def execFirmwareStart (p : Packet) (s : State) : Host.Outcome State Fault Refusal := command cmdFirmwareStart p s

/-- The event SELF_TEST_END: the bits of Table 17-3, the arrays repaired and the time; the device runs, or stays dark in boot state
4. -/
def selfTestEnd (failures : BitVec 8) (repaired ms : Nat) (d : Dev) : Dev :=
  match d.sys.starting with
  | none => d
  | some who =>
    let f := failures &&& 0xFC#8
    let d := { d with sys := { d.sys with
      boot := if f = 0#8 then 3 else 4, fwRev := if f = 0#8 then d.sys.newRev else d.sys.fwRev
      selfBits := f, repaired := repaired % 2 ^ 32, starting := none } }
    match who with
    | some i => d.finishId i.1 i.2 .done [f.toNat, d.identRev, ms % 2 ^ 32, d.sys.repaired]
    | none => d

/-- See `selfTestEnd`. -/
def execSelfTestEnd (failures : BitVec 8) (repaired ms : Nat) (s : State) : Host.Outcome State Fault Refusal :=
  live (selfTestEnd failures repaired ms) s

/-- The event SPI_BOOT: the boot ROM has read an image from the flash, and starts it or reports state 2 (17 R403). -/
def spiBoot (image : Bytes) (length : Nat) (crc : Word) (d : Dev) : Dev :=
  if d.sys.boot ≠ 1 ∨ d.sys.fwStarted then d
  else if within length 64 16777216 ∧ (imageFails (slice image 0 length) crc.toNat).isNone then d.startImage (slice image 0 length) none
  else { d with sys := { d.sys with boot := 2 } }

/-- See `spiBoot`. -/
def execSpiBoot (image : Bytes) (length : Nat) (crc : Word) (s : State) : Host.Outcome State Fault Refusal := live (spiBoot image length crc) s

/-! ### Reset (18 R423 to R425, 17 R400, R401) -/

/-- The device in reset: every register at its reset value, the pins as Table 18-6 gives them. What has left the device, and the
levels at TREE_LOS, are the board's and stay. -/
def Dev.intoReset (d : Dev) : Dev :=
  { Dev.reset with
    sys := { Dev.reset.sys with inReset := true }
    chans := (List.range 192).filterMap fun g => if (d.tree (g / 4)).losPin then some (g, { los := true }) else none
    trees := (List.range 48).filterMap fun t => if (d.tree t).losPin then some (t, { losPin := true }) else none
    out := d.out
    freeCount := d.freeCount }

/-- The event RESET_ASSERT: a low pulse shorter than 1 µs is filtered out. -/
def resetAssert (ns : Nat) (d : Dev) : Dev := if 1000 ≤ ns then d.intoReset else d

/-- See `resetAssert`. -/
def execResetAssert (ns : Nat) (s : State) : Host.Outcome State Fault Refusal := act (resetAssert ns) s

/-- The event SUPPLY_UNDERVOLTAGE: VDD_CORE below 0.70 V, or VDD_IO18 below 1.60 V, for 1 µs or longer. -/
def undervoltage (io : Bool) (millivolts ns : Nat) (d : Dev) : Dev :=
  if 1000 ≤ ns ∧ millivolts < (if io then 1600 else 700) then d.intoReset else d

/-- See `undervoltage`. -/
def execSupplyUndervoltage (io : Bool) (millivolts ns : Nat) (s : State) : Host.Outcome State Fault Refusal :=
  act (undervoltage io millivolts ns) s

/-- The event RESET_RELEASE: the straps are sampled, and the device is in boot state, reading the flash with BOOT_SEL high. -/
def resetRelease (devId : BitVec 3) (bootSel : Bool) (d : Dev) : Dev :=
  if d.sys.inReset then { d with sys := { d.sys with inReset := false, devId, bootSel, boot := if bootSel then 1 else 0 } } else d

/-- See `resetRelease`. -/
def execResetRelease (devId : BitVec 3) (bootSel : Bool) (s : State) : Host.Outcome State Fault Refusal :=
  act (resetRelease devId bootSel) s

end Sys2Proof.Machine
end

