-- ==== Sys2Proof/Machine/Versions.lean ====
section
/-!
DEFINITION. Domains, versions, commits and their switch, retirement, and the end of drains (02 R47 to R67, R71).
-/
namespace Sys2Proof.Machine

/-! ### Heartbeat page (02 R47, R48; 16 R394) -/

/-- The event or condition concerns a domain: every one concerns domain 0, a terminal's its owner. -/
def Dev.concerns (d : Dev) (dom term : Nat) : Bool := dom == 0 || d.termOwner term == dom

/-- A terminal is in loss of burst (alarm bit 2). -/
def Dev.lossAlarm (d : Dev) (dom : Nat) : Bool := d.terms.any fun t => t.2.lossOfBurst && d.concerns dom t.1

/-- A key slot is worn (alarm bit 9). -/
def Dev.wearAlarm (d : Dev) (dom : Nat) : Bool :=
  d.keys.any fun k => k.2.worn && match slotTerm? k.1 with
    | some t => d.concerns dom t
    | none => dom == 0

/-- A TDM defect on a lane in use (alarm bit 7). -/
def Dev.tdmAlarm (d : Dev) : Bool :=
  (d.tdm.lanes.any fun l => l.2.defects != 0#8 && (hlane d.objs l.1).mode != 0) || d.tdm.defects.any fun x => x.2 != 0

/-- Level alarms of domain 0 with their bits (Table 16-5). -/
def Dev.levels0 (d : Dev) : List (Nat × Bool) :=
  [(0, d.chans.any fun c => c.2.los && d.mode c.1 != 0), (1, d.chans.any fun c => !c.2.disc.isEmpty), (2, d.lossAlarm 0)
  , (5, d.time.state != 2), (6, d.time.conflict), (7, d.tdmAlarm), (8, d.tdm.circs.any fun c => c.2.alarm), (9, d.wearAlarm 0)
  , (10, d.claimLineAlarm), (12, d.diverges), (13, (List.range 48).any fun t => !d.treeUnused t && (d.shadow t).state == 3)
  , (14, d.ports.any fun p => p.2.preempt == 3), (17, d.tempHigh), (18, d.supplyBad), (19, d.health.ledger.worn)
  , (20, !d.health.ledger.loaded)]

/-- Level alarms of a page. -/
def Dev.levels (d : Dev) (dom : Nat) : List (Nat × Bool) := if dom = 0 then d.levels0 else [(2, d.lossAlarm dom), (9, d.wearAlarm dom)]

/-- The ALARMS field: level alarms as they hold now, and the page's sticky bits. -/
def Dev.alarms (d : Dev) (dom : Nat) : Nat :=
  sumBy (distinct (((d.levels dom).filter Prod.snd).map Prod.fst ++ (d.dom dom).sticky)) fun b => 2 ^ b

/-- The 256 bytes of a domain's page (02 Table 2-7). -/
def Dev.page (d : Dev) (dom : Nat) : Bytes :=
  let m := d.dom dom
  let own := fun (v : Nat) => if dom = 0 then v else 0
  beBytes 4 m.hbSeq.toNat ++ beBytes 1 dom ++ beBytes 1 (b2n d.sys.dark + 2 * b2n m.hbRecovered) ++ beBytes 2 d.sys.epochPin.toNat
  ++ beBytes 8 d.now ++ beBytes 4 (own d.runNum) ++ beBytes 4 (own d.vers.openNum) ++ beBytes 1 (own d.role) ++ beBytes 1 (own d.live)
  ++ beBytes 2 m.replyIdx.toNat ++ beBytes 2 m.consumer.toNat ++ beBytes 2 (d.inExec dom) ++ beBytes 32 (d.alarms dom)
  ++ List.replicate 192 0#8

/-- Writes a domain's page: SEQ rises by 1, and STATE bit 1 is for the recovery since the page before. -/
def Dev.writePage (d : Dev) (dom : Nat) : Dev :=
  (d.hostWrite (d.dom dom).hbAddr (d.page dom)).setDom dom fun m => { m with hbSeq := m.hbSeq + 1, hbRecovered := false }

/-- `HEARTBEAT_SET`. -/
def cmdHeartbeatSet : CmdDef where
  op := 0x0102
  tenant := some anyDomain
  boot := true
  form := fun p =>
    aligned (ent p 16 8) 256 && (ent p 16 8 == 0 || ent p 24 4 == 0 || within (ent p 24 4) 10 100000) && zeros 16 p [(28, 63)]
  run := fun e d =>
    let a := ent e.par 16 8
    if a = 0 then (d.setDom e.dom fun m => { m with hbAddr := 0 }).ok e
    else
      let per := orZero (ent e.par 24 4) 100
      let d := (d.park e).setDom e.dom fun m => { m with hbAddr := a, hbPeriod := per, hbDue := d.time.c + 1000 * per }
      (d.writePage e.dom).ok e

/-- The command `HEARTBEAT_SET`. -/
def execHeartbeatSet (p : Packet) (s : State) : Host.Outcome State Fault Refusal := command cmdHeartbeatSet p s

/-- The event HEARTBEAT_PAGE_WRITE: the domain's next page. A fatal fault has stopped every page (16 Table 16-6).
A page shows that the Keepers run, so they refresh the claim unit again (14 R343, log entry 178). -/
def heartbeatPageWrite (dom : Nat) (d : Dev) : Dev :=
  let m := d.dom dom
  if 15 < dom ∨ m.hbAddr = 0 ∨ d.sys.fatal then d
  else
    let d := ((d.goCounter m.hbDue).writePage dom).setDom dom fun m => { m with hbDue := m.hbDue + 1000 * m.hbPeriod }
    { d with prot := { d.prot with hung := false } }

/-- See `heartbeatPageWrite`. -/
def execHeartbeatPageWrite (dom : Nat) (s : State) : Host.Outcome State Fault Refusal := live (heartbeatPageWrite dom) s

/-! ### DOMAIN_GRANT, DOMAIN_REVOKE (R51) -/

/-- Fields of Table 2-8A. -/
def grantForm (p : Bytes) : Bool :=
  within (ent p 16 1) 1 15 && within (ent p 17 1) 1 2 && zeros 16 p [(18, 19), (22, 23), (28, 63)] && within (ent p 24 4) 1 65536
  && decide (ent p 20 2 + ent p 24 4 ≤ if ent p 17 1 = 1 then 24576 else 65536)

/-- Owners of the kind of handle that a grant names. -/
def Dev.owners (d : Dev) (p : Bytes) : Tbl Nat := if ent p 17 1 = 1 then d.termDom else d.flowDom

/-- Replaces the owners of that kind. -/
def Dev.setOwners (d : Dev) (p : Bytes) (t : Tbl Nat) : Dev :=
  if ent p 17 1 = 1 then { d with termDom := t } else { d with flowDom := t }

/-- A handle lies in the range of a grant. -/
def inGrant (p : Bytes) (h : Nat) : Bool := decide (ent p 20 2 ≤ h) && decide (h < ent p 20 2 + ent p 24 4)

/-- Handles of the range that the domain holds. -/
def Dev.heldIn (d : Dev) (p : Bytes) : Nat := ((d.owners p).filter fun o => inGrant p o.1 && o.2 == ent p 16 1).length

/-- The domain that a command names at entry byte 16. -/
def namesDom16 (_ : Dev) (p : Bytes) : List DrainObj := [.domain (ent p 16 1)]

/-- `DOMAIN_GRANT`. -/
def cmdDomainGrant : CmdDef where
  op := 0x0120
  names := namesDom16
  form := grantForm
  forbid := fun d e =>
    let p := e.par
    let dom := ent p 16 1
    if ((d.owners p).any fun o => inGrant p o.1 && o.2 != dom && o.2 != 0)
      || (ent p 17 1 == 2 && d.flows.any fun f => inGrant p f.1 && d.termOwner f.2.term != dom) then some (.conflict, []) else none
  run := fun e d =>
    let p := e.par
    (d.setOwners p (fillRange (d.owners p) (ent p 20 2) (ent p 24 4) (ent p 16 1))).finish e .done [ent p 24 4 - d.heldIn p]

/-- The command `DOMAIN_GRANT`. -/
def execDomainGrant (p : Packet) (s : State) : Host.Outcome State Fault Refusal := command cmdDomainGrant p s

/-- `DOMAIN_REVOKE`. -/
def cmdDomainRevoke : CmdDef where
  op := 0x0121
  names := namesDom16
  form := grantForm
  forbid := fun d e =>
    let p := e.par
    let dom := ent p 16 1
    if ent p 17 1 = 1 ∧ (d.flows.any fun f => d.flowOwner f.1 == dom && inGrant p f.2.term && d.termOwner f.2.term == dom) then
      some (.conflict, []) else none
  run := fun e d =>
    let p := e.par
    (d.setOwners p ((d.owners p).filter fun o => !(inGrant p o.1 && o.2 == ent p 16 1))).finish e .done [d.heldIn p]

/-- The command `DOMAIN_REVOKE`. -/
def execDomainRevoke (p : Packet) (s : State) : Host.Outcome State Fault Refusal := command cmdDomainRevoke p s

/-! ### DOMAIN_DISABLE, DOMAIN_ENABLE (R52) -/

/-- `DOMAIN_DISABLE`: disabled from the start, ACTIVE 0. -/
def cmdDomainDisable : CmdDef where
  op := 0x0122
  newWork := false
  names := namesDom16
  form := fun p => within (ent p 16 1) 1 15 && limitOk (ent p 20 4) && zeros 16 p [(17, 19), (24, 63)]
  forbid := fun d e => if (d.dom (ent e.par 16 1)).disabled then some (.conflict, []) else none
  run := fun e d =>
    (d.setDom (ent e.par 16 1) fun m => { m with disabled := true, active := false }).startDrain e (.domain (ent e.par 16 1)) (ent e.par 20 4)

/-- The command `DOMAIN_DISABLE`. -/
def execDomainDisable (p : Packet) (s : State) : Host.Outcome State Fault Refusal := command cmdDomainDisable p s

/-- `DOMAIN_ENABLE`: ACTIVE stays 0 until the tenant makes an enable. -/
def cmdDomainEnable : CmdDef where
  op := 0x0123
  newWork := false
  names := namesDom16
  form := fun p => within (ent p 16 1) 1 15 && zeros 16 p [(17, 63)]
  forbid := fun d e =>
    if !(d.dom (ent e.par 16 1)).disabled ∨ d.draining (.domain (ent e.par 16 1)) then some (.conflict, []) else none
  run := fun e d => (d.setDom (ent e.par 16 1) fun m => { m with disabled := false }).ok e

/-- The command `DOMAIN_ENABLE`. -/
def execDomainEnable (p : Packet) (s : State) : Host.Outcome State Fault Refusal := command cmdDomainEnable p s

/-! ### VERSION_OPEN, VERSION_ABORT, VERSION_QUERY, VERSION_RETIRE_LIMIT (R56, R57, R66) -/

/-- Changes the version state. -/
def Dev.setVers (d : Dev) (f : Vers → Vers) : Dev := { d with vers := f d.vers }

/-- `VERSION_OPEN`: a copy of the running version. -/
def cmdVersionOpen : CmdDef where
  op := 0x0201
  form := fun p => ent p 16 4 != 0 && zeros 16 p [(20, 63)]
  forbid := fun d e => if d.vers.openNum ≠ 0 ∨ ent e.par 16 4 ≤ d.vers.highest then some (.conflict, []) else none
  run := fun e d =>
    (d.setVers fun v => { v with openNum := ent e.par 16 4, highest := ent e.par 16 4, openObjs := d.objs }).ok e

/-- The command `VERSION_OPEN`. -/
def execVersionOpen (p : Packet) (s : State) : Host.Outcome State Fault Refusal := command cmdVersionOpen p s

/-- A commit on the open version ends early. -/
def Dev.endCommit (d : Dev) (st : Status) : Dev :=
  match d.vers.commit.bind fun c => d.exec? c.dom c.seq with
  | some e => d.endEarly e st
  | none => d.setVers fun v => { v with commit := none }

/-- `VERSION_ABORT`: a frozen version may be discarded, with its commit `ABANDONED`. -/
def cmdVersionAbort : CmdDef where
  op := 0x0203
  form := fun p => zeros 16 p [(16, 63)]
  forbid := fun d _ => if d.vers.openNum = 0 then some (.conflict, []) else none
  run := fun e d => ((d.endCommit .abandoned).setVers fun v => { v with openNum := 0, openObjs := [] }).ok e

/-- The command `VERSION_ABORT`. -/
def execVersionAbort (p : Packet) (s : State) : Host.Outcome State Fault Refusal := command cmdVersionAbort p s

/-- Slots in use. -/
def Dev.slots (d : Dev) : List Nat := d.vers.running.toList.map Version.slot ++ d.vers.retiring.map Version.slot

/-- `VERSION_QUERY`. -/
def cmdVersionQuery : CmdDef where
  op := 0x0204
  read := true
  form := fun p => zeros 16 p [(16, 63)]
  run := fun e d => d.finish e .done [d.runNum, d.vers.openNum, d.live, d.runSlot + 256 * idMap d.slots]

/-- The command `VERSION_QUERY`. -/
def execVersionQuery (p : Packet) (s : State) : Host.Outcome State Fault Refusal := command cmdVersionQuery p s

/-- `VERSION_RETIRE_LIMIT`. -/
def cmdVersionRetireLimit : CmdDef where
  op := 0x0205
  form := fun p => (ent p 16 4 == 0 || within (ent p 16 4) 10 2000) && zeros 16 p [(20, 63)]
  run := fun e d => (d.setVers fun v => { v with retireMs := orZero (ent e.par 16 4) 500 }).finish e .done [d.vers.retireMs]

/-- The command `VERSION_RETIRE_LIMIT`. -/
def execVersionRetireLimit (p : Packet) (s : State) : Host.Outcome State Fault Refusal := command cmdVersionRetireLimit p s

/-! ### VERSION_COMMIT and its checks (R58 to R64, R67) -/

/-- Order of records: by opcode, then by key (R59). -/
def VObj.rank (o : VObj) : Nat := o.op * 2 ^ 64 + beNat o.key

/-- The canonical image of a version (R59). -/
def versionImage (num : Nat) (objs : List VObj) : Bytes :=
  beBytes 4 num ++ (sortBy VObj.rank objs).flatMap fun o => beBytes 2 o.op ++ beBytes 2 (o.params.length % 65536) ++ o.params

/-- Slots that live versions and an armed commit's reservation fill (R67). -/
def Dev.slotsTaken (d : Dev) : Nat :=
  d.live + match d.vers.commit with
    | some c => match c.phase with
      | .armed _ => 1
      | _ => 0
    | none => 0

/-- `VERSION_COMMIT`: the version is frozen and its checks start. -/
def cmdVersionCommit : CmdDef where
  op := 0x0202
  frameBound := true
  ownFlow := true
  form := fun p => zeros 16 p [(20, 23)] && aligned (ent p 56 8) 8
  forbid := fun d e =>
    if d.vers.openNum = 0 ∨ ent e.par 16 4 ≠ d.vers.openNum ∨ d.frozen then some (.conflict, [])
    else if 4 ≤ d.slotsTaken then some (.busy, []) else none
  run := fun e d =>
    let c : Commit := { dom := e.dom, seq := e.seq, version := ent e.par 16 4, digest := slice e.par 8 32, report := ent e.par 56 8
                        dry := Packet.dry e.pkt, beacon := if Packet.atBeacon e.pkt then some e.pkt.beacon.toNat else none }
    (d.park e).setVers fun v => { v with commit := some c }

/-- The command `VERSION_COMMIT`. -/
def execVersionCommit (p : Packet) (s : State) : Host.Outcome State Fault Refusal := command cmdVersionCommit p s

/-- Failures of a commit in check order: completeness, then the other checks (R61). -/
def Dev.commitFailures (d : Dev) (c : Commit) : List Failure :=
  failIf (sha256 (versionImage c.version d.vers.openObjs) != c.digest) 1 2 0 0 ++ d.failures d.objs d.vers.openObjs

/-- Memory or banks that versions awaiting retirement still hold keep the version from fitting (07 R188, R193). -/
def Dev.memoryBusy (d : Dev) : Bool :=
  let new := d.vers.openObjs
  decide (25165824 < treeBytes d.objs + sumBy d.vers.retiring (fun v => treeBytes v.objs) + treeBytes new)
  || d.vers.retiring.any fun v => !(banksTaken d.objs new v.objs).isEmpty

/-- The object word of a failure (R62). -/
def Failure.word (f : Failure) : Nat := f.group * 16777216 + f.handle % 16777216

/-- The commit report: up to 16 records, then one of zeros (R62). -/
def reportBytes (fs : List Failure) : Bytes :=
  (fs.take 16).zipIdx.flatMap (fun f => beBytes 4 f.1.cls ++ beBytes 4 f.1.word ++ beBytes 4 f.1.detail ++ beBytes 4 (f.2 + 1))
  ++ List.replicate 16 0#8

/-- The commit ends without a switch: the version stays open, and is no longer frozen. -/
def Dev.refuseCommit (d : Dev) (e : Exec) (st : Status) (res : List Nat) : Dev :=
  (d.setVers fun v => { v with commit := none }).finish e st res

/-- A checked commit is armed at its beacon, unless the beacon has gone, is full, or comes too soon (R63, R46, 12 R303). -/
def Dev.armCommit (d : Dev) (e : Exec) (c : Commit) (b : Nat) : Dev :=
  let x := d.beacon b
  if x.state = .unset then d.refuseCommit e .badParam []
  else if x.state = .fired ∨ x.state = .missed ∨ tdiff x.instant d.now < 250000 then d.refuseCommit e .late []
  else if 16 ≤ (d.armedOn b).length then d.refuseCommit e .noRoom []
  else if c.dry then d.refuseCommit e .done []
  else (d.setVers fun v => { v with commit := some { c with phase := .armed b } }).arm e

/-- The event COMMIT_CHECKS_END. A version that passes keeps the characteristic that its checks have built (05 R134). -/
def commitChecksEnd (d : Dev) : Dev :=
  match d.vers.commit with
  | none => d
  | some c =>
    match c.phase, d.exec? c.dom c.seq with
    | .checking, some e =>
      match d.commitFailures c with
      | f :: fs =>
        let d := if c.report = 0 then d else d.hostWrite c.report (reportBytes (f :: fs))
        d.refuseCommit e .refused [f.cls, f.word, f.detail, (f :: fs).length]
      | [] =>
        if d.memoryBusy then d.refuseCommit e .busy []
        else
          let c := { c with places := d.placesOf d.vers.openObjs }
          match c.beacon with
          | some b => d.armCommit e c b
          | none =>
            if c.dry then d.refuseCommit e .done []
            else d.setVers fun v => { v with commit := some { c with phase := .waiting (d.frameAfter 250000) } }
    | _, _ => d

/-- See `commitChecksEnd`. -/
def execCommitChecksEnd (s : State) : Host.Outcome State Fault Refusal := live commitChecksEnd s

/-! ### The switch: channels (03 R77, R78, R88; 04 Table 4-6, R119) -/

/-- Channels whose MODE or UPRATE a version changes. -/
def modeChanges (old new : List VObj) : List Nat :=
  (List.range 192).filter fun g => (chanCfg old g).mode != (chanCfg new g).mode || (chanCfg old g).upRate != (chanCfg new g).upRate

/-- Counts where there is something to count. -/
def Dev.countSome (d : Dev) (a n : Nat) : Dev := if n = 0 then d else d.countBy a n

/-- What a channel sends or has preempted is given up; the second part is how many frames. -/
def Dev.dropSending (d : Dev) (g : Nat) : Dev × Nat :=
  let l := (d.chan g).sending.toList ++ (d.chan g).fragment.toList
  ((d.freeFrames (l.map Sending.frame)).setChan g fun c => { c with sending := none, fragment := none }, l.length)

/-- A channel across a change of MODE or UPRATE: its queued downstream frames are discarded, its terminals deactivated; a hold on
its frames ends (10 R266). -/
def Dev.changeMode (d : Dev) (old : List VObj) (g : Nat) : Dev :=
  if (chanCfg old g).mode = 0 then d
  else
    let fs := d.flowsOn g
    let (d, a) := d.discardFlows fun h => fs.contains h
    let (d, b) := d.dropSending g
    let d := (d.countSome (ctrChan g 4) (a + b)).deactivateChan g false none
    d.setChan g fun c =>
      { c with windows := [], ranging := [], losRun := 0, granted := false, accepted := false, losOver := true, los := (d.tree (g / 4)).losPin
               loaded := none, loadedBits := 0#128, hold := none, flushed := false }

/-- MODE 0 ends a channel's disabled state; a drain that runs ends it when it ends. -/
def Dev.endDisabled (d : Dev) (g : Nat) : Dev :=
  if d.mode g = 0 ∧ !d.draining (.channel g) ∧ ((d.chan g).disabled || (d.chan g).restart) then
    d.setChan g fun c => { c with disabled := false, restart := false }
  else d

/-- Discovery is turned off: ASSIGNED records are deactivated, a `RERANGE` without a window still to come in a plan ends with cause 3, and
windows that no plan holds are given up. A `RERANGE` that has its new EqD, and waits only to send it, goes on. -/
def Dev.discoveryOff (d : Dev) (g : Nat) : Dev :=
  let d := d.setChan g fun c => { c with windows := c.windows.filter Window.sent, ranging := [], discDue := false }
  let d := (d.terms.filter fun t => t.2.chan == g && t.2.state == 2).foldl (fun d t => (d.deactivate t.1 true none).1) d
  (d.terms.filter fun t => t.2.chan == g).foldl (fun d t =>
    match d.rerange? t.1 with
    | some e =>
      if t.2.heldEqd.isSome || (d.chan g).windows.any fun w => w.kind == 6 && w.term == t.1 && !w.used then d
      else (d.setTerm t.1 fun x => { x with attempts := 0 }).finish e .done [0xFFFFFFFF, 3]
    | none => d) d

/-- Profiles that a version adds to a channel are announced in 8 frames; announcements of removed ones end. -/
def Dev.announceNew (d : Dev) (old new : List VObj) (g : Nat) : Dev :=
  let added := (List.range 4).filter fun i => (profile? old g i).isNone && (profile? new g i).isSome
  let kept := (d.chan g).announce.filter fun a => (profile? new g a.1).isSome
  if added.isEmpty ∧ kept = (d.chan g).announce then d
  else d.setChan g fun c => { c with announce := kept ++ added.map fun i => (i, 8) }

/-! ### The switch: groups (15 R367, R371, R380, R383) -/

/-- The parameters with which a group's lanes start. -/
def Group.start (q : Group) : Nat × Nat × Nat × Nat × Nat × Bool := (q.kind, q.width, q.rate, q.fec, q.precode, q.train)

/-- A group that goes takes its link with it: the frame on its wire ends, and Lantern frames that wait are discarded (06 R172). `d` still
runs the version that holds the group. -/
def Dev.groupGone (d : Dev) (o : Group) : Dev :=
  let d := d.endPort o
  let d := (d.loseFrames 9 ((d.port o.lane).queue 0).frames).setPortQueue o.lane 0 fun q => { q with frames := [] }
  let d := (d.freeFrames ((d.port o.lane).fragment.map PortSend.frame).toList).setPort o.lane fun p => { p with fragment := none }
  (d.lockLanes o false).setPort o.lane fun p =>
    { p with link := 1, changed := if p.link = 1 then p.changed else d.now, retryAt := none, disabled := none, preempt := 0
             peer := none, conflict := none, hold := none, flushed := false }

/-- A group that is new, or whose lanes change, starts, and a link that was up goes down with its lanes (15 R372); a group that
stays disabled stays idle. -/
def Dev.groupStart (d : Dev) (q : Group) (old : Option Group) : Dev :=
  let wasUp := d.portUp q.lane
  let keep := old.any fun o => o.kind == q.kind && o.width == q.width
  let d := d.setPort q.lane fun p =>
    { p with disabled := if keep || old.isNone then p.disabled.filter fun k => k == (q.kind, q.width) else none
             preempt := 0, peer := none, conflict := none, downs := p.downs + b2n wasUp
             changed := if old.isNone then d.now else p.changed }
  let d := if (d.port q.lane).disabled.isSome then d else d.startLanes q
  if wasUp then d.linkLost q else d

/-- Preemption of a group that keeps its lanes. -/
def Dev.groupKept (d : Dev) (o q : Group) : Dev :=
  if o.preempt = q.preempt ∧ o.noVerify = q.noVerify ∨ !d.portUp q.lane ∨ q.kind ≠ 1 then d
  else d.setPort q.lane fun p => { p with preempt := if q.preempt then (if q.noVerify then 2 else 1) else 0 }

/-- The groups of the new version across a switch, which the device already runs. -/
def Dev.switchGroups (d : Dev) (old new : List VObj) : Dev :=
  (groups new).foldl (fun d q =>
    match Machine.group? old q.lane with
    | some o => if o.start = q.start then d.groupKept o q else d.groupStart q (some o)
    | none => d.groupStart q none) d

/-! ### The switch: carving, gates, gateway (09 R223, 10 R262, 13) -/

/-- A changed carving moves the boundaries at once, and the lowest free counts start from the present ones (R231). -/
def Switch.recarve (w : Switch) (old new : List VObj) : Switch :=
  if Machine.carving old = Machine.carving new then w
  else
    let moved := (Machine.carving old).1 != (Machine.carving new).1
    let w := { w with sizes := (Machine.carving new).1, lres := (Machine.carving new).2, freed := if moved then [] else w.freed }
    { w with low := (List.range 5).map fun p => (p, w.freeSegs p) }

/-- The gateway across a switch: a lane whose mode changes starts anew, but for its slips since reset; a circuit that goes takes its
state with it, and the first commit makes page 0 active (13 R323). -/
def Tdm.switch (t : Tdm) (old new : List VObj) (first : Bool) : Tdm :=
  let moved := fun (l : Nat) => (hlane old l).mode != (hlane new l).mode
  let kept := fun (a : Nat) => !moved (adLane a)
  { t with
    lanes := t.lanes.filter fun l => !moved l.1
    defects := t.defects.filter fun x => kept x.1
    seen := t.seen.filter fun x => kept x.1
    ptrs := t.ptrs.filter fun x => kept x.1
    multis := t.multis.filter fun x => kept x.1
    paths := t.paths.filter fun x => kept x.1
    txPtrs := t.txPtrs.filter fun x => kept x.1
    tuSent := t.tuSent.filter fun x => kept x.1
    circs := t.circs.filter fun c => (circuits new).any fun x => x.circ == c.1
    page := if first then 0 else t.page }

/-- Channels and heritage lanes that are on in a mode they did not have start with the taps of that mode (15 R371). -/
def Dev.startMoved (d : Dev) (old new : List VObj) : Dev :=
  let d := (modeChanges old new).foldl (fun d g => if d.mode g = 0 then d else d.startPon g) d
  ((List.range 32).filter fun l => (hlane old l).mode != (hlane new l).mode && (hlane new l).mode != 0).foldl Dev.startHeritage d

/-! ### The switch (R63 to R65) -/

/-- Lowest free slot of four. -/
def Dev.freeSlot (d : Dev) : Nat := ((List.range 4).find? fun i => !d.slots.contains i).getD 0

/-- The version switches at an instant; the replaced version awaits retirement. -/
def Dev.switchVersion (d : Dev) (c : Commit) (instant : Nat) : Dev :=
  let old := d.objs
  let new := d.vers.openObjs
  let slot := d.freeSlot
  let first := !d.vers.committed
  let d := d.fillAll old
  let d := (modeChanges old new).foldl (fun d g => d.changeMode old g) d
  let d := (groups old).foldl (fun d o => if (Machine.group? new o.lane).isNone then d.groupGone o else d) d
  let d := d.setVers fun v => { v with
    running := some { num := c.version, slot, objs := new, places := c.places }
    retiring := v.retiring ++ v.running.toList.map fun r => { r with due := d.inNs (v.retireMs * 1000000) }
    openNum := 0, openObjs := [], commit := none, committed := true
    switched := v.switched ++ [{ c with phase := .switched slot instant }] }
  let d := d.fillAll new
  let d := { d with gates := switchGates old new d.gates instant, sw := d.sw.recarve old new, tdm := d.tdm.switch old new first }
  let off := (List.range 192).filter fun g => (discCfg old g).on && !(discCfg new g).on
  let d := off.foldl Dev.discoveryOff d
  let d := (List.range 192).foldl (fun d g => (d.announceNew old new g).endDisabled g) d
  let d := { d with terms := d.terms.mapAll fun _ (t : Term) => t.reprofile new }
  (d.switchGroups old new).startMoved old new |>.relink

/-- A commit armed on a beacon switches when it fires; its final reply carries the beacon's instant. -/
def Dev.fireCommit (d : Dev) (e : Exec) (instant : Nat) : Dev :=
  match d.vers.commit with
  | some c =>
    if c.dom = e.dom ∧ c.seq = e.seq then (d.park { e with armed := none, stamp := some instant }).switchVersion c instant else d
  | none => d

/-- An immediate commit switches at its instant, when that has come. -/
def Dev.switchDue (d : Dev) (instant : Nat) : Dev :=
  match d.vers.commit with
  | some c =>
    match c.phase with
    | .waiting i => if i ≤ instant then d.switchVersion c i else d
    | _ => d
  | none => d

/-- The event COMMIT_DONE: every pipeline stamps the new slot, the outputs light (R68), and the commit replies. After a fatal fault
nothing lights. -/
def commitDone (d : Dev) : Dev :=
  match d.vers.switched with
  | [] => d
  | c :: rest =>
    match c.phase with
    | .switched slot instant =>
      let d := d.setVers fun v => { v with switched := rest }
      let d := ({ d with sys := { d.sys with dark := d.sys.fatal } }).relink
      d.finishId c.dom c.seq .done [c.version, slot, instant % 2 ^ 32, d.live]
    | _ => d

/-- See `commitDone`. -/
def execCommitDone (s : State) : Host.Outcome State Fault Refusal := live commitDone s

/-! ### Retirement (R65) -/

/-- A version awaiting retirement leaves its slot. -/
def Dev.retire (d : Dev) (slot : Nat) : Dev := d.setVers fun v => { v with retiring := v.retiring.filter fun r => r.slot != slot }

/-- The event VERSION_RETIRE: no packet in flight carries the slot. -/
def versionRetire (slot : Nat) (d : Dev) : Dev := if d.allFrames.any fun x => x.slot == slot then d else d.retire slot

/-- See `versionRetire`. -/
def execVersionRetire (slot : Nat) (s : State) : Host.Outcome State Fault Refusal := live (versionRetire slot) s

/-- The event RETIREMENT_LIMIT_EXPIRY: packets that still carry the slot are discarded and counted. -/
def retirementLimitExpiry (slot : Nat) (d : Dev) : Dev :=
  match d.vers.retiring.find? fun r => r.slot == slot with
  | none => d
  | some r =>
    let d := d.goCounter r.due
    let n := (d.allFrames.filter fun x => x.slot == slot).length
    ((d.dropFrames fun x => x.slot == slot).countSome (ctrDev 0) n).retire slot

/-- See `retirementLimitExpiry`. -/
def execRetirementLimitExpiry (slot : Nat) (s : State) : Host.Outcome State Fault Refusal := live (retirementLimitExpiry slot) s

/-! ### The end of a drain (R71) -/

/-- Flows whose queued downstream frames an object's drain concerns. -/
def Dev.drainFlows (d : Dev) : DrainObj → List Nat
  | .channel g => d.flowsOn g
  | .terminal t => (d.flows.filter fun f => f.2.term == t).map Prod.fst
  | .flow f => [f]
  | _ => []

/-- Frames of flows that a channel sends or has preempted. -/
def Dev.sendingOf (d : Dev) (fs : List Nat) : List Frame :=
  d.chans.flatMap fun c => ((c.2.sending.toList ++ c.2.fragment.toList).map Sending.frame).filter fun x => fs.contains x.flow

/-- Frames of a port: queued, on the wire, or the rest of a preempted one. -/
def Dev.portFrames (d : Dev) (l : Nat) : List Frame :=
  (d.port l).queues.flatMap Queue.all ++ ((d.port l).sending.toList ++ (d.port l).fragment.toList).map PortSend.frame

/-- Work in flight for an object: frames, and a transmit ring's entries. -/
def Dev.drainWork (d : Dev) (o : DrainObj) : Nat :=
  match o with
  | .domain _ => 0
  | .rxRing r => ((d.sw.rx.find? r).map fun q => q.queue.length).getD 0
  | .txRing r => ((d.sw.tx.find? r).map fun q => q.chain.length).getD 0
  | .port l => (d.portFrames l).length
  | _ =>
    let fs := d.drainFlows o
    (d.flows.filter fun f => fs.contains f.1).foldl (fun n f => n + f.2.queue.all.length) 0
    + (d.chans.flatMap fun c => c.2.lanternOf fun f => fs.contains f).length + (d.sendingOf fs).length

/-- Commands in execution for an object, apart from the disable itself. -/
def Dev.drainExecs (d : Dev) (x : Drain) : List Exec := d.execs.filter fun e => e.isFor x.obj && !(e.dom == x.dom && e.seq == x.seq)

/-- The rest of an object's frames is discarded at the limit; the second part is how many. -/
def Dev.drainDiscard (d : Dev) (o : DrainObj) : Dev × Nat :=
  match o with
  | .domain _ => (d, 0)
  | .rxRing r =>
    let l := ((d.sw.rx.find? r).map FrameRing.queue).getD []
    ((d.freeFrames l).setRx r fun q => { q with queue := [] }, l.length)
  | .txRing r => (d.stopTx r, if d.drainWork o = 0 then 0 else 1)
  | .port l =>
    let fs := d.portFrames l
    ((d.freeFrames fs).setPort l fun p => { p with queues := p.queues.map Queue.empty, sending := none, fragment := none }, fs.length)
  | o =>
    let fs := d.drainFlows o
    let going := d.sendingOf fs
    let (d, n) := d.discardFlows fun h => fs.contains h
    let cut := fun (s : Option Sending) => s.filter fun x => !fs.contains x.frame.flow
    let d := { d.freeFrames going with chans := d.chans.mapAll fun _ (c : Chan) => { c with sending := cut c.sending, fragment := cut c.fragment } }
    (d, n + going.length)

/-- What an object becomes when its drain has ended: a channel's lane idles and its terminals are deactivated (03 R78); a terminal
gets Disable_Serial_Number (04 R123); a port's lanes idle (15 R383). -/
def Dev.drainDone (d : Dev) (x : Drain) : Dev :=
  match x.obj with
  | .channel g => ((d.deactivateChan g true (some (x.dom, x.seq))).endDisabled g).relink
  | .terminal t =>
    match d.term? t with
    | some y =>
      let d := d.setChan y.chan fun c => { c with ranging := c.ranging.filter fun r => r.1 != t }
      (d.setTerm t fun y => { y.enter 6 d.now with draining := false }).ploam y.chan plDisable plAll [y.serial, 0]
    | none => d
  | .port l =>
    let d := match d.group? l with
      | some q => d.lockLanes q false
      | none => d
    d.setPort l fun p => { p with link := 1, changed := d.now, retryAt := none, preempt := 0, peer := none, hold := none, flushed := false }
  | _ => d

/-- The event DRAIN_END: the work in flight has finished, or the limit has come and the rest is discarded. -/
def drainEnd (o : DrainObj) (d : Dev) : Dev :=
  match d.drains.find? fun x => x.obj == o with
  | none => d
  | some x =>
    let quiet := d.drainWork o = 0 ∧ (d.drainExecs x).isEmpty
    let d := if quiet then d else d.goCounter x.due
    let n := (d.drainExecs x).length
    let d := d.endAll (fun e => e.isFor o && !(e.dom == x.dom && e.seq == x.seq)) .abandoned
    let (d, k) := d.drainDiscard o
    match d.drains.find? fun x => x.obj == o with
    | none => d
    | some y =>
      let y := { y with discarded := y.discarded + k, abandoned := y.abandoned + n }
      let d := { d with drains := d.drains.filter fun x => x.obj != o }
      (d.drainDone y).finishId y.dom y.seq .done (y.results d.now)

/-- See `drainEnd`. -/
def execDrainEnd (obj : DrainObj) (s : State) : Host.Outcome State Fault Refusal := live (drainEnd obj) s

end Sys2Proof.Machine
end

