-- ==== Sys2Proof/Machine/Fetch.lean ====
section
/-!
DEFINITION. BAR0 and the rings (02 R30 to R37), the fetch of a command by its opcode, beacons that fire, and the frame instant with
the order of 01 R28.
-/
namespace Sys2Proof.Machine

/-! ### Commands by opcode -/

/-- Group 0x01 of Table 2-5. -/
def cmdsSystem : List CmdDef :=
  [cmdIdentityRead, cmdHeartbeatSet, cmdFirmwareLoad, cmdFirmwareStart, cmdBootStatus, cmdMeshStatus, cmdEpochPin,
    cmdEpochQuery, cmdDomainGrant, cmdDomainRevoke, cmdDomainDisable, cmdDomainEnable]

/-- Group 0x02 of Table 2-5. -/
def cmdsVersion : List CmdDef :=
  [cmdVersionOpen, cmdVersionCommit, cmdVersionAbort, cmdVersionQuery, cmdVersionRetireLimit]

/-- Group 0x03 of Table 2-5. -/
def cmdsChannel : List CmdDef :=
  [cmdChannelModeSet, cmdChannelEnable, cmdChannelDisable, cmdBurstProfileSet, cmdBearingRead, cmdBearingClear,
    cmdChannelStatus, cmdMgmtRingSet, cmdOmciSend, cmdModuleAccess]

/-- Group 0x04 of Table 2-5. -/
def cmdsTerminal : List CmdDef :=
  [cmdTerminalSet, cmdTerminalDelete, cmdTerminalDisable, cmdTerminalEnable, cmdTerminalDeactivate, cmdTerminalStatus,
    cmdDiscoverySet, cmdDiscoveryRead, cmdRerange, cmdTerminalRegidSet]

/-- Group 0x05 of Table 2-5. -/
def cmdsPlanner : List CmdDef :=
  [cmdPlannerSet, cmdLanternAllocSet, cmdAllocSet, cmdAllocDelete, cmdPlannerForecast, cmdAllocStatus, cmdPlanRead,
    cmdLanternFlowSet, cmdLanternBoundRead]

/-- Group 0x06 of Table 2-5. -/
def cmdsClassifier : List CmdDef :=
  [cmdClsTableSet, cmdClsProgramSet, cmdClsBindSet, cmdClsRuleSet, cmdClsEntrySet, cmdClsEntryRead, cmdClsSearch,
    cmdExceptionSet, cmdClsUsage]

/-- Group 0x07 of Table 2-5. -/
def cmdsForwarding : List CmdDef :=
  [cmdFwdEntryWrite, cmdFwdEntryDelete, cmdFwdEntryRead, cmdFwdSearch, cmdFwdFlush, cmdFwdSourceSet, cmdLearnSet]

/-- Group 0x08 of Table 2-5. -/
def cmdsSwitch : List CmdDef :=
  [cmdPoolCarveSet, cmdPoolStatus, cmdQueueProfileSet, cmdCutSet, cmdReplListSet, cmdRxRingSet, cmdTxRingSet, cmdRingDisable,
    cmdSegmentLogRead]

/-- Group 0x09 of Table 2-5. -/
def cmdsTraffic : List CmdDef :=
  [cmdFlowSet, cmdFlowDisable, cmdFlowEnable, cmdShapeProfileSet, cmdTerminalShapeSet, cmdTmChannelSet, cmdTmPortSet,
    cmdMeterSet, cmdGateListSet, cmdGateStatus, cmdSampleSet, cmdQueueSampleRead]

/-- Group 0x0A of Table 2-5. -/
def cmdsCipher : List CmdDef :=
  [cmdKeyWrite, cmdKeyErase, cmdKeySwitch, cmdKeyExchange, cmdKeyBindSet, cmdSessionKeySet, cmdKeyStatus, cmdKeyRead]

/-- Group 0x0B of Table 2-5. -/
def cmdsTime : List CmdDef :=
  [cmdTimeSourceSet, cmdTimeSet, cmdTimeRateSet, cmdTimeRebase, cmdTimeStatus, cmdBeaconSet, cmdBeaconClear, cmdBeaconStatus,
    cmdPtpPortSet, cmdSyncePortSet, cmdTodQuery, cmdTeInputSet, cmdTeCaptureRead, cmdTsRingSet]

/-- Group 0x0C of Table 2-5. -/
def cmdsGateway : List CmdDef :=
  [cmdHeritageLaneSet, cmdTsiConnSet, cmdTsiPageSwap, cmdCircuitSet, cmdHeritageStatus, cmdTdmPmRead]

/-- Group 0x0D of Table 2-5. -/
def cmdsProt : List CmdDef :=
  [cmdProtSet, cmdClaimSet, cmdProtIsolate, cmdShadowSet, cmdShadowRead, cmdProtStatus]

/-- Group 0x0E of Table 2-5. -/
def cmdsLane : List CmdDef :=
  [cmdPortSet, cmdPortDisable, cmdPortEnable, cmdEqTableWrite, cmdLaneTrain, cmdTreeTrain, cmdPatternSet, cmdPatternRead,
    cmdEyeScan, cmdLaneStatus, cmdPortStatus]

/-- Group 0x0F of Table 2-5. -/
def cmdsHealth : List CmdDef :=
  [cmdCounterRead, cmdCounterChainSet, cmdCounterClear, cmdDumpSet, cmdDumpStart, cmdAlarmClear, cmdFaultLogRead,
    cmdSensorRead, cmdLedgerRead, cmdLedgerLoad]

/-- Every command that the device knows, by opcode group (02 Table 2-5). -/
def allCmds : List CmdDef :=
  cmdsSystem ++ cmdsVersion ++ cmdsChannel ++ cmdsTerminal ++ cmdsPlanner ++ cmdsClassifier ++ cmdsForwarding ++ cmdsSwitch
    ++ cmdsTraffic ++ cmdsCipher ++ cmdsTime ++ cmdsGateway ++ cmdsProt ++ cmdsLane ++ cmdsHealth

/-- The command of an opcode. -/
def cmdByOp (op : Nat) : Option CmdDef := allCmds.find? fun c => c.op == op

/-- Runs a command by its opcode; an unknown one ends at step 1 or 2 of R45. -/
def Dev.runOp (d : Dev) (e : Exec) : Dev :=
  match cmdByOp e.op with
  | some c => runCmd c e d
  | none => d.finish e (if e.pkt.domain.toNat = e.dom then .badOpcode else .denied) []

/-- A fetched entry starts, or waits for its fence. -/
def Dev.startOp (d : Dev) (op : Nat) (p : Packet) : Dev :=
  match cmdByOp op with
  | some c => startCmd c p d
  | none =>
    let e : Exec := { dom := p.ring, seq := (d.dom p.ring).nextSeq, op, pkt := p, par := Packet.bytes p }
    let d := d.setDom p.ring fun m => { m with nextSeq := m.nextSeq + 1 }
    if Packet.fence p ∧ d.fenceBlocked e then d.park { e with started := false } else d.runOp e

/-! ### BAR0 (R31 to R35) -/

/-- The base registers and LOG2_ENTRIES may change: ENABLE reads 0 and IDLE reads 1. -/
def Dev.ringQuiet (d : Dev) (fn : Nat) : Bool := !(d.dom fn).enable && d.idle fn

/-- The error that an enable finds, in the order of R32; 0 for none. -/
def Dom.enableError (m : Dom) (log2 : BitVec 4) : BitVec 4 :=
  if !within log2.toNat 6 15 then 1#4
  else if m.cmdBaseLo.toNat % 4096 ≠ 0 ∨ m.replyBaseLo.toNat % 4096 ≠ 0 then 2#4 else 0#4

/-- A ring error: the latest code, and the count, saturating at 255 (R33). -/
def Dom.ringError (m : Dom) (code : BitVec 4) : Dom := { m with err := code, errCount := sat 8 (m.errCount + 1) }

/-- A RING_CTRL write of ENABLE = 1: without effect while ENABLE reads 1, while IDLE reads 0, and in a disabled domain (R32, R52). -/
def ringEnable (fn : Nat) (log2 : BitVec 4) (d : Dev) : Dev :=
  if 15 < fn ∨ (d.dom fn).disabled ∨ !d.ringQuiet fn then d
  else
    let err := (d.dom fn).enableError log2
    d.setDom fn fun m =>
      if err = 0#4 then
        { m with log2, enable := true, active := true, producer := 0#16, consumer := 0#16, replyIdx := 0#16, err := 0#4, errCount := 0 }
      else { m with log2 }.ringError err

/-- The write RING_ENABLE. -/
def execRingEnable (fn : Nat) (log2 : BitVec 4) (s : State) : Host.Outcome State Fault Refusal := live (ringEnable fn log2) s

/-- A RING_CTRL write of ENABLE = 0: fetching stops at once (R34). -/
def ringCtrlDisable (fn : Nat) (log2 : BitVec 4) (d : Dev) : Dev :=
  if 15 < fn then d
  else
    let quiet := d.ringQuiet fn
    d.setDom fn fun m => { m with enable := false, active := false, log2 := if quiet then log2 else m.log2 }

/-- The write RING_CTRL_DISABLE. -/
def execRingCtrlDisable (fn : Nat) (log2 : BitVec 4) (s : State) : Host.Outcome State Fault Refusal := live (ringCtrlDisable fn log2) s

/-- A doorbell (R35): ignored in a disabled domain (R52), stored without a check while ENABLE reads 0, ignored with ERR = 4 when it
passes the ring. -/
def doorbell (fn : Nat) (value : Word) (d : Dev) : Dev :=
  let v := value.setWidth 16
  if 15 < fn ∨ (d.dom fn).disabled then d
  else
    d.setDom fn fun m =>
      if m.enable ∧ m.entries < (v - m.consumer).toNat then m.ringError 4#4 else { m with producer := v }

/-- The write CMD_PRODUCER_DOORBELL. -/
def execCmdProducerDoorbell (fn : Nat) (value : Word) (s : State) : Host.Outcome State Fault Refusal := live (doorbell fn value) s

/-- A write of a BAR0 register: whole aligned words alone, the base registers only while they may change, nothing else but RING_CTRL
and CMD_PRODUCER (R30 to R32). -/
def registerWrite (fn offset size : Nat) (v : Word) (d : Dev) : Dev :=
  if size ≠ 4 ∨ 15 < fn then d
  else if offset = 0x1010 then
    if v.getLsbD 31 then ringEnable fn (v.setWidth 4) d else ringCtrlDisable fn (v.setWidth 4) d
  else if offset = 0x1014 then doorbell fn v d
  else if !d.ringQuiet fn then d
  else
    match offset with
    | 0x1000 => d.setDom fn fun m => { m with cmdBaseHi := v }
    | 0x1004 => d.setDom fn fun m => { m with cmdBaseLo := v }
    | 0x1008 => d.setDom fn fun m => { m with replyBaseHi := v }
    | 0x100C => d.setDom fn fun m => { m with replyBaseLo := v }
    | _ => d

/-- The write REGISTER_WRITE. -/
def execRegisterWrite (fn offset size : Nat) (value : Word) (s : State) : Host.Outcome State Fault Refusal :=
  live (registerWrite fn offset size value) s

/-- RING_CTRL as read (02 Table 2-2): bits 30:4 are reserved and read 0. -/
def Dom.ringCtrl (m : Dom) : Nat := b2n m.enable * 2147483648 + m.log2.toNat

/-- RING_STATUS of a function as read (02 Table 2-3): bits 29:12 are reserved and read 0. -/
def Dev.ringStatus (d : Dev) (fn : Nat) : Nat :=
  let m := d.dom fn
  b2n m.active * 2147483648 + b2n (d.idle fn) * 1073741824 + m.errCount % 256 * 16 + m.err.toNat

/-- What a whole, aligned read of a function's BAR0 returns (02 R31, Table 2-1). An RW register returns what it holds (00 R14);
offsets that are not listed are reserved and read 0 (00 R12). A read changes nothing (00 R13), so no row stands for it. -/
def Dev.registerRead (d : Dev) (fn offset : Nat) : Word :=
  let m := d.dom fn
  match offset with
  | 0x0000 => Config.identPart
  | 0x0004 => w32 (Config.siliconRev.toNat * 256 + d.sys.fwRev.toNat)
  | 0x0008 => w32 (Config.epochLow * 65536 + Config.epochHigh)
  | 0x000C => w32 (d.sys.devId.toNat * 16 + fn % 16)
  | 0x0010 => w32 (Config.serial.toNat / 4294967296)
  | 0x0014 => w32 (Config.serial.toNat % 4294967296)
  | 0x1000 => m.cmdBaseHi
  | 0x1004 => m.cmdBaseLo
  | 0x1008 => m.replyBaseHi
  | 0x100C => m.replyBaseLo
  | 0x1010 => w32 m.ringCtrl
  | 0x1014 => m.producer.setWidth 32
  | 0x1018 => m.consumer.setWidth 32
  | 0x101C => w32 (d.ringStatus fn)
  | _ => 0#32

/-! ### COMMAND_FETCH (R36, R37, R41, R42) -/

/-- The first command held by its fence that may start. -/
def Dev.heldReady? (d : Dev) : Option Exec := d.execs.find? fun e => !e.started && !d.fenceBlocked e

/-- Commands whose fence is satisfied start, in fetch order; each may satisfy the next one's fence. -/
def Dev.startHeld (d : Dev) : (fuel : Nat) → Dev
  | 0 => d
  | fuel + 1 =>
    match d.heldReady? with
    | some e => ((d.park { e with started := true }).runOp { e with started := true }).startHeld fuel
    | none => d

/-- A place in execution is free for a domain: 4,096, of which domain 0 keeps 256. -/
def Dev.placeFree (d : Dev) (dom : Nat) : Bool :=
  decide (d.execs.length < 4096) && (dom == 0 || decide ((d.execs.filter fun e => e.dom != 0).length < 3840))

/-- A domain's ring has an entry to fetch. -/
def Dev.fetchable (d : Dev) (dom : Nat) : Bool :=
  let m := d.dom dom
  m.enable && m.active && !m.disabled && m.consumer != m.producer && d.placeFree dom

/-- The domain whose turn it is. -/
def Dev.turn? (d : Dev) : Option Nat := ((List.range 16).map fun i => (d.rotor + i) % 16).find? fun n => d.fetchable n

/-- A command entry (Table 2-3A), with what the read of its INDIRECT buffer gave. -/
def packetOf (ring : Nat) (entry : Bytes) (buf : Option Bytes) : Packet where
  ring
  tag := BitVec.ofNat 16 (field entry 2 2)
  domain := BitVec.ofNat 8 (field entry 4 1)
  flags := BitVec.ofNat 8 (field entry 5 1)
  plen := BitVec.ofNat 16 (field entry 6 2)
  tver := w32 (field entry 8 4)
  beacon := w32 (field entry 12 4)
  param := slice entry 16 48
  buf

/-- The event COMMAND_FETCH: the read of the next entry gave its 64 bytes, or failed. -/
def commandFetch (entry : Option Bytes) (buf : Option Bytes) (d : Dev) : Dev :=
  if d.sys.fatal then d
  else
    let d := d.startHeld d.execs.length
    match d.turn? with
    | none => d
    | some n =>
      let d := { d with rotor := (n + 1) % 16, prot := { d.prot with hung := false } }
      match entry with
      | none => d.setDom n fun m => { m.ringError 3#4 with active := false }
      | some b => (d.setDom n fun m => { m with consumer := m.consumer + 1 }).startOp (field b 0 2) (packetOf n b buf)

/-- See `commandFetch`. -/
def execCommandFetch (entry : Option Bytes) (buf : Option Bytes) (s : State) : Host.Outcome State Fault Refusal :=
  live (commandFetch entry buf) s

/-! ### Beacons that fire (12 R303 to R305) -/

/-- The commands armed on a beacon run in the order in which they were armed. -/
def Dev.runArmed (d : Dev) (b instant : Nat) : Dev :=
  (d.armedOn b).foldl (fun d e =>
    match d.exec? e.dom e.seq with
    | some e =>
      if e.armed ≠ some b then d
      else if e.op = 0x0202 then d.fireCommit e instant
      else
        match cmdByOp e.op with
        | some c => fireCmd c e instant d
        | none => d
    | none => d) d

/-- A beacon that is set fires at its instant: its pin action, then its commands, then the restore of APRIO. -/
def Dev.fireBeacon (d : Dev) (b : Nat) : Dev :=
  let x := d.beacon b
  if x.state = .set ∨ x.state = .armed then
    ((((d.goTime x.instant).pinAction b).noteFiring b).runArmed b x.instant).restorePrio b |>.rearm b
  else d

/-- The beacon that is due first, by instant and then by index (01 R28, 12 R304). -/
def Dev.dueBeacon? (d : Dev) (limit : Nat) : Option Nat :=
  ((sortBy (fun b : Nat × Beacon => (tdiff b.2.instant limit + 2 ^ 63).toNat * 512 + b.1)
    (d.time.beacons.filter fun b => (b.2.state == .set || b.2.state == .armed) && decide (tdiff b.2.instant limit ≤ 0))).head?).map Prod.fst

/-- Every beacon whose instant has come. Beacons fire at most every 1,000 ns each, which bounds the firings of a frame. -/
def Dev.fireDue (d : Dev) (limit : Nat) : (fuel : Nat) → Dev
  | 0 => d
  | fuel + 1 =>
    match d.dueBeacon? limit with
    | some b => (d.fireBeacon b).fireDue limit fuel
    | none => d

/-- The beacons that come before beacon `b` at its instant fire, those of a lower index among them, and then `b` itself, unless one
of them has cleared or moved it (01 R28). -/
def Dev.fireUntil (d : Dev) (b limit : Nat) : (fuel : Nat) → Dev
  | 0 => d
  | fuel + 1 =>
    let x := d.beacon b
    if (x.state = .set ∨ x.state = .armed) ∧ x.instant = limit then
      match d.dueBeacon? limit with
      | some a => if a = b then d.fireBeacon b else (d.fireBeacon a).fireUntil b limit fuel
      | none => d
    else d

/-- The PHY frames of every channel end (03 R84). -/
def Dev.endPhyFrames (d : Dev) : Dev := (d.chans.map Prod.fst).foldl Dev.phyEnd d

/-- Steps 1 and 2 of 01 R28 for frame `n`, once, behind the end of the PHY frames. -/
def Dev.frameHead (d : Dev) (n : Nat) : Dev :=
  if d.time.headDone then d else ((d.endPhyFrames.closeFrame n).takeDecision n).setTime fun t => { t with headDone := true }

/-- The event BEACON_FIRE: every beacon that is due before it fires first, by instant and, at one instant, by index (01 R28). At
the next frame instant, steps 1 and 2 of 01 R28 come before the beacons of that instant. -/
def beaconFire (b : Nat) (d : Dev) : Dev :=
  let x := d.beacon b
  if x.state ≠ .set ∧ x.state ≠ .armed then d
  else
    let n := d.time.frame + 1
    let d := if x.instant = n * frameNs then ((d.fireDue (x.instant - 1) 65536).goTime x.instant).frameHead n else d
    d.fireUntil b x.instant 65536

/-- See `beaconFire`. -/
def execBeaconFire (b : Nat) (s : State) : Host.Outcome State Fault Refusal := live (beaconFire b) s

/-! ### The frame instant (01 R28) -/

/-- A channel that `CHANNEL_ENABLE` restarts. -/
def Dev.restartChans (d : Dev) : Dev :=
  { d with chans := d.chans.mapAll fun _ (c : Chan) => if c.restart then { c with disabled := false, restart := false } else c }

/-- The announcements of new profiles in this frame (03 R88); a dark lane carries none. -/
def Dev.announceFrame (d : Dev) (g : Nat) : Dev :=
  let d := if !d.chanLink g then d else
    (d.chan g).announce.foldl (fun d a =>
      let p := profileOr0 d.objs g a.1
      d.ploam g plProfile plAll [a.1, b2n p.fec, p.preRep, p.delimLen, p.tol, p.prePat, p.delimPat]) d
  if (d.chan g).announce.isEmpty then d
  else d.setChan g fun c => { c with announce := (c.announce.map fun a => (a.1, a.2 - 1)).filter fun a => decide (0 < a.2) }

/-- The MIC of a downstream PLOAM message (11 R276): under the PLOAM_IK of the terminal that it addresses, or of the default session key
where it addresses none. -/
def Dev.signPloam (d : Dev) (g kind onu : Nat) (fields : List Nat) : BitVec 64 :=
  let mode := d.mode g
  let key := match List.find? (fun t : Nat × Term => t.2.chan == g && t.2.onu == onu) d.terms with
    | some t => d.sessionKey t.2
    | none => Config.defaultSession mode
  Config.ploamMic (Config.derivePloamIk mode key) (Config.ploamEncode kind onu fields)

/-- The downstream frame of a channel starts: its burst map, and up to 4 PLOAM messages (03 R100, 05 R125). A lane behind disabled optics
carries it as well (14 Table 14-4), but its PLOAM messages wait for the link; one in electrical idle carries none. -/
def Dev.ponFrame (d : Dev) (n g : Nat) : Dev :=
  if d.chanIdle g then d
  else
    let d := (d.announceFrame g).phyBegin g
    let c := d.chan g
    let map := ((c.plan? n).map Plan.entries).getD []
    let d := d.emit (.ponFrame g n (d.superframe n) map)
    if !d.chanLink g then d
    else
      let d := (c.ploam.take 4).foldl (fun d m => d.emit (.ploam g m.1 m.2.1 m.2.2 (d.signPloam g m.1 m.2.1 m.2.2))) d
      d.setChan g fun c => { c with ploam := c.ploam.drop 4 }

/-- Step 4 of 01 R28: frame `n` starts. -/
def Dev.startFrameN (d : Dev) (n : Nat) : Dev :=
  let d := d.setTime fun t => { t with frame := n, headDone := false }
  let d := (((d.eqdFrame).restartChans).relink.protFrame n).sendTimeWords
  (((List.range 192).foldl (fun d g => d.ponFrame n g) d).gatewayFrame n).buildPlans (n + 2)

/-- A step of the time base whose instant has come (12 R293). -/
def Dev.rebaseDue (d : Dev) (instant : Nat) : Dev :=
  match d.time.nextRebase with
  | some r => if r.at_ ≤ instant then rebaseStep d else d
  | none => d

/-- The event FRAME_INSTANT: the next frame instant, in the order of 01 R28. -/
def frameInstant (d : Dev) : Dev :=
  let d := d.rebaseDue ((d.time.frame + 1) * frameNs)
  let n := d.time.frame + 1
  let t := n * frameNs
  ((((((d.fireDue (t - 1) 65536).goTime t).frameHead n).fireDue t 65536).switchDue t).startFrameN n)

/-- See `frameInstant`. -/
def execFrameInstant (s : State) : Host.Outcome State Fault Refusal := live frameInstant s

end Sys2Proof.Machine
end

