-- ==== Sys2Proof/Machine/Dispatch.lean ====
section
/-!
DEFINITION. The meaning of each command: one arm per row of spec/opcode_table.json.
-/
namespace Sys2Proof.Machine

/-- The command's effect on everything but the queue. -/
def exec (i : Instr) (s : State) : Host.Outcome State Fault Refusal :=
  match i with
  | .ringEnable fn log2 => Sys2Proof.Machine.execRingEnable fn log2 s
  | .ringCtrlDisable fn log2 => Sys2Proof.Machine.execRingCtrlDisable fn log2 s
  | .cmdProducerDoorbell fn value => Sys2Proof.Machine.execCmdProducerDoorbell fn value s
  | .registerWrite fn offset size value => Sys2Proof.Machine.execRegisterWrite fn offset size value s
  | .commandFetch entry buf => Sys2Proof.Machine.execCommandFetch entry buf s
  | .identityRead p => Sys2Proof.Machine.execIdentityRead p s
  | .heartbeatSet p => Sys2Proof.Machine.execHeartbeatSet p s
  | .firmwareLoad p => Sys2Proof.Machine.execFirmwareLoad p s
  | .firmwareStart p => Sys2Proof.Machine.execFirmwareStart p s
  | .selfTestEnd failures repaired ms => Sys2Proof.Machine.execSelfTestEnd failures repaired ms s
  | .bootStatus p => Sys2Proof.Machine.execBootStatus p s
  | .meshStatus p => Sys2Proof.Machine.execMeshStatus p s
  | .epochPin p => Sys2Proof.Machine.execEpochPin p s
  | .epochQuery p => Sys2Proof.Machine.execEpochQuery p s
  | .domainGrant p => Sys2Proof.Machine.execDomainGrant p s
  | .domainRevoke p => Sys2Proof.Machine.execDomainRevoke p s
  | .domainDisable p => Sys2Proof.Machine.execDomainDisable p s
  | .domainEnable p => Sys2Proof.Machine.execDomainEnable p s
  | .versionOpen p => Sys2Proof.Machine.execVersionOpen p s
  | .versionCommit p => Sys2Proof.Machine.execVersionCommit p s
  | .commitChecksEnd => Sys2Proof.Machine.execCommitChecksEnd s
  | .commitDone => Sys2Proof.Machine.execCommitDone s
  | .versionAbort p => Sys2Proof.Machine.execVersionAbort p s
  | .versionQuery p => Sys2Proof.Machine.execVersionQuery p s
  | .versionRetireLimit p => Sys2Proof.Machine.execVersionRetireLimit p s
  | .versionRetire slot => Sys2Proof.Machine.execVersionRetire slot s
  | .retirementLimitExpiry slot => Sys2Proof.Machine.execRetirementLimitExpiry slot s
  | .frameInstant => Sys2Proof.Machine.execFrameInstant s
  | .beaconFire b => Sys2Proof.Machine.execBeaconFire b s
  | .pulseEnd pin => Sys2Proof.Machine.execPulseEnd pin s
  | .heartbeatPageWrite dom => Sys2Proof.Machine.execHeartbeatPageWrite dom s
  | .drainEnd obj => Sys2Proof.Machine.execDrainEnd obj s
  | .channelModeSet p => Sys2Proof.Machine.execChannelModeSet p s
  | .channelEnable p => Sys2Proof.Machine.execChannelEnable p s
  | .channelDisable p => Sys2Proof.Machine.execChannelDisable p s
  | .burstProfileSet p => Sys2Proof.Machine.execBurstProfileSet p s
  | .bearingRead p => Sys2Proof.Machine.execBearingRead p s
  | .bearingClear p => Sys2Proof.Machine.execBearingClear p s
  | .channelStatus p => Sys2Proof.Machine.execChannelStatus p s
  | .mgmtRingSet p => Sys2Proof.Machine.execMgmtRingSet p s
  | .omciSend p => Sys2Proof.Machine.execOmciSend p s
  | .omciSent term => Sys2Proof.Machine.execOmciSent term s
  | .moduleAccess p => Sys2Proof.Machine.execModuleAccess p s
  | .moduleAccessComplete master nack data => Sys2Proof.Machine.execModuleAccessComplete master nack data s
  | .moduleBusTimeout master => Sys2Proof.Machine.execModuleBusTimeout master s
  | .downstreamSelect g => Sys2Proof.Machine.execDownstreamSelect g s
  | .tailStomp g => Sys2Proof.Machine.execTailStomp g s
  | .bearingLoad g term discovery => Sys2Proof.Machine.execBearingLoad g term discovery s
  | .burstReceive rx => Sys2Proof.Machine.execBurstReceive rx s
  | .lossOfBurst term => Sys2Proof.Machine.execLossOfBurst term s
  | .bearingLockLoss term => Sys2Proof.Machine.execBearingLockLoss term s
  | .upstreamLos g => Sys2Proof.Machine.execUpstreamLos g s
  | .treeLosAssert tree => Sys2Proof.Machine.execTreeLosAssert tree s
  | .treeLosDeassert tree => Sys2Proof.Machine.execTreeLosDeassert tree s
  | .discoveryBurst rx => Sys2Proof.Machine.execDiscoveryBurst rx s
  | .rangingBurst rx => Sys2Proof.Machine.execRangingBurst rx s
  | .rangingAttemptsExhausted term => Sys2Proof.Machine.execRangingAttemptsExhausted term s
  | .losttimeExpiry term => Sys2Proof.Machine.execLosttimeExpiry term s
  | .upstreamPloam g term msg consumer => Sys2Proof.Machine.execUpstreamPloam g term msg consumer s
  | .upstreamOmci g term msg consumer => Sys2Proof.Machine.execUpstreamOmci g term msg consumer s
  | .terminalSet p => Sys2Proof.Machine.execTerminalSet p s
  | .terminalDelete p => Sys2Proof.Machine.execTerminalDelete p s
  | .terminalDisable p => Sys2Proof.Machine.execTerminalDisable p s
  | .terminalEnable p => Sys2Proof.Machine.execTerminalEnable p s
  | .terminalDeactivate p => Sys2Proof.Machine.execTerminalDeactivate p s
  | .terminalStatus p => Sys2Proof.Machine.execTerminalStatus p s
  | .discoverySet p => Sys2Proof.Machine.execDiscoverySet p s
  | .discoveryRead p => Sys2Proof.Machine.execDiscoveryRead p s
  | .rerange p => Sys2Proof.Machine.execRerange p s
  | .terminalRegidSet p => Sys2Proof.Machine.execTerminalRegidSet p s
  | .plannerSet p => Sys2Proof.Machine.execPlannerSet p s
  | .lanternAllocSet p => Sys2Proof.Machine.execLanternAllocSet p s
  | .allocSet p => Sys2Proof.Machine.execAllocSet p s
  | .allocDelete p => Sys2Proof.Machine.execAllocDelete p s
  | .allocDeleteComplete handle => Sys2Proof.Machine.execAllocDeleteComplete handle s
  | .plannerForecast p => Sys2Proof.Machine.execPlannerForecast p s
  | .allocStatus p => Sys2Proof.Machine.execAllocStatus p s
  | .planRead p => Sys2Proof.Machine.execPlanRead p s
  | .lanternFlowSet p => Sys2Proof.Machine.execLanternFlowSet p s
  | .lanternBoundRead p => Sys2Proof.Machine.execLanternBoundRead p s
  | .uplinkFrameReceive rx => Sys2Proof.Machine.execUplinkFrameReceive rx s
  | .brynlinkFrameReceive lane early data => Sys2Proof.Machine.execBrynlinkFrameReceive lane early data s
  | .brynlinkIdentity lane devId serial => Sys2Proof.Machine.execBrynlinkIdentity lane devId serial s
  | .pipelinePass pipe clocks => Sys2Proof.Machine.execPipelinePass pipe clocks s
  | .secondPass pipe clocks => Sys2Proof.Machine.execSecondPass pipe clocks s
  | .learnNoticeRelease => Sys2Proof.Machine.execLearnNoticeRelease s
  | .learnHoldExpiry fid mac => Sys2Proof.Machine.execLearnHoldExpiry fid mac s
  | .ageingScan => Sys2Proof.Machine.execAgeingScan s
  | .exceptionSet p => Sys2Proof.Machine.execExceptionSet p s
  | .clsTableSet p => Sys2Proof.Machine.execClsTableSet p s
  | .clsProgramSet p => Sys2Proof.Machine.execClsProgramSet p s
  | .clsBindSet p => Sys2Proof.Machine.execClsBindSet p s
  | .clsRuleSet p => Sys2Proof.Machine.execClsRuleSet p s
  | .clsEntrySet p => Sys2Proof.Machine.execClsEntrySet p s
  | .clsEntryRead p => Sys2Proof.Machine.execClsEntryRead p s
  | .clsSearch p => Sys2Proof.Machine.execClsSearch p s
  | .clsUsage p => Sys2Proof.Machine.execClsUsage p s
  | .fwdEntryWrite p => Sys2Proof.Machine.execFwdEntryWrite p s
  | .fwdEntryDelete p => Sys2Proof.Machine.execFwdEntryDelete p s
  | .fwdEntryRead p => Sys2Proof.Machine.execFwdEntryRead p s
  | .fwdSearch p => Sys2Proof.Machine.execFwdSearch p s
  | .fwdFlush p => Sys2Proof.Machine.execFwdFlush p s
  | .fwdFlushComplete => Sys2Proof.Machine.execFwdFlushComplete s
  | .fwdSourceSet p => Sys2Proof.Machine.execFwdSourceSet p s
  | .learnSet p => Sys2Proof.Machine.execLearnSet p s
  | .poolCarveSet p => Sys2Proof.Machine.execPoolCarveSet p s
  | .poolStatus p => Sys2Proof.Machine.execPoolStatus p s
  | .queueProfileSet p => Sys2Proof.Machine.execQueueProfileSet p s
  | .cutSet p => Sys2Proof.Machine.execCutSet p s
  | .replListSet p => Sys2Proof.Machine.execReplListSet p s
  | .rxRingSet p => Sys2Proof.Machine.execRxRingSet p s
  | .txRingSet p => Sys2Proof.Machine.execTxRingSet p s
  | .ringDisable p => Sys2Proof.Machine.execRingDisable p s
  | .segmentLogRead p => Sys2Proof.Machine.execSegmentLogRead p s
  | .segmentFree segment owner => Sys2Proof.Machine.execSegmentFree segment owner s
  | .deepBufferReturn => Sys2Proof.Machine.execDeepBufferReturn s
  | .deepBufferReadLate stack => Sys2Proof.Machine.execDeepBufferReadLate stack s
  | .hostRxWrite ring producer posted => Sys2Proof.Machine.execHostRxWrite ring producer posted s
  | .txRingPoll ring producer entries => Sys2Proof.Machine.execTxRingPoll ring producer entries s
  | .flowSet p => Sys2Proof.Machine.execFlowSet p s
  | .flowDisable p => Sys2Proof.Machine.execFlowDisable p s
  | .flowEnable p => Sys2Proof.Machine.execFlowEnable p s
  | .shapeProfileSet p => Sys2Proof.Machine.execShapeProfileSet p s
  | .terminalShapeSet p => Sys2Proof.Machine.execTerminalShapeSet p s
  | .tmChannelSet p => Sys2Proof.Machine.execTmChannelSet p s
  | .tmPortSet p => Sys2Proof.Machine.execTmPortSet p s
  | .portSchedule lane => Sys2Proof.Machine.execPortSchedule lane s
  | .meterSet p => Sys2Proof.Machine.execMeterSet p s
  | .gateListSet p => Sys2Proof.Machine.execGateListSet p s
  | .gateListStart kind target => Sys2Proof.Machine.execGateListStart kind target s
  | .gateStatus p => Sys2Proof.Machine.execGateStatus p s
  | .sampleSet p => Sys2Proof.Machine.execSampleSet p s
  | .sampleWindowEnd => Sys2Proof.Machine.execSampleWindowEnd s
  | .queueSampleRead p => Sys2Proof.Machine.execQueueSampleRead p s
  | .linkDownHoldExpiry kind target => Sys2Proof.Machine.execLinkDownHoldExpiry kind target s
  | .keyWrite p => Sys2Proof.Machine.execKeyWrite p s
  | .keyErase p => Sys2Proof.Machine.execKeyErase p s
  | .keySwitch p => Sys2Proof.Machine.execKeySwitch p s
  | .keySwitchApply slot => Sys2Proof.Machine.execKeySwitchApply slot s
  | .keyExchange p => Sys2Proof.Machine.execKeyExchange p s
  | .keyReportReceive term msg consumer => Sys2Proof.Machine.execKeyReportReceive term msg consumer s
  | .keyExchangeRetry term => Sys2Proof.Machine.execKeyExchangeRetry term s
  | .keyBindSet p => Sys2Proof.Machine.execKeyBindSet p s
  | .sessionKeySet p => Sys2Proof.Machine.execSessionKeySet p s
  | .keyStatus p => Sys2Proof.Machine.execKeyStatus p s
  | .keyRead p => Sys2Proof.Machine.execKeyRead p s
  | .timeSourceSet p => Sys2Proof.Machine.execTimeSourceSet p s
  | .timeSet p => Sys2Proof.Machine.execTimeSet p s
  | .timeSetTimeout => Sys2Proof.Machine.execTimeSetTimeout s
  | .timeRateSet p => Sys2Proof.Machine.execTimeRateSet p s
  | .timeRebase p => Sys2Proof.Machine.execTimeRebase p s
  | .rebaseStep => Sys2Proof.Machine.execRebaseStep s
  | .timeStatus p => Sys2Proof.Machine.execTimeStatus p s
  | .timeWord rx => Sys2Proof.Machine.execTimeWord rx s
  | .followerLock masterTime => Sys2Proof.Machine.execFollowerLock masterTime s
  | .timeSourceLoss cause averageRate => Sys2Proof.Machine.execTimeSourceLoss cause averageRate s
  | .ppsInEdge rising frac rate offset locked => Sys2Proof.Machine.execPpsInEdge rising frac rate offset locked s
  | .teInEdge pin rising frac => Sys2Proof.Machine.execTeInEdge pin rising frac s
  | .ppsOutRise => Sys2Proof.Machine.execPpsOutRise s
  | .ppsOutFall => Sys2Proof.Machine.execPpsOutFall s
  | .beaconSet p => Sys2Proof.Machine.execBeaconSet p s
  | .beaconClear p => Sys2Proof.Machine.execBeaconClear p s
  | .beaconStatus p => Sys2Proof.Machine.execBeaconStatus p s
  | .ptpPortSet p => Sys2Proof.Machine.execPtpPortSet p s
  | .ptpMessage rx => Sys2Proof.Machine.execPtpMessage rx s
  | .syncePortSet p => Sys2Proof.Machine.execSyncePortSet p s
  | .esmcPdu lane ql => Sys2Proof.Machine.execEsmcPdu lane ql s
  | .esmcInformationSend lane => Sys2Proof.Machine.execEsmcInformationSend lane s
  | .synceWaitToRestoreExpiry lane => Sys2Proof.Machine.execSynceWaitToRestoreExpiry lane s
  | .todQuery p => Sys2Proof.Machine.execTodQuery p s
  | .teInputSet p => Sys2Proof.Machine.execTeInputSet p s
  | .teCaptureRead p => Sys2Proof.Machine.execTeCaptureRead p s
  | .tsRingSet p => Sys2Proof.Machine.execTsRingSet p s
  | .heritageLaneSet p => Sys2Proof.Machine.execHeritageLaneSet p s
  | .heritageFrameReceive rx => Sys2Proof.Machine.execHeritageFrameReceive rx s
  | .heritageDefectDetect addr bit => Sys2Proof.Machine.execHeritageDefectDetect addr bit s
  | .heritageDefectClear addr bit => Sys2Proof.Machine.execHeritageDefectClear addr bit s
  | .tsiConnSet p => Sys2Proof.Machine.execTsiConnSet p s
  | .tsiPageSwap p => Sys2Proof.Machine.execTsiPageSwap p s
  | .circuitSet p => Sys2Proof.Machine.execCircuitSet p s
  | .heritageStatus p => Sys2Proof.Machine.execHeritageStatus p s
  | .tdmPmRead p => Sys2Proof.Machine.execTdmPmRead p s
  | .pmSecond => Sys2Proof.Machine.execPmSecond s
  | .pmBinClose day => Sys2Proof.Machine.execPmBinClose day s
  | .protSet p => Sys2Proof.Machine.execProtSet p s
  | .claimSet p => Sys2Proof.Machine.execClaimSet p s
  | .protIsolate p => Sys2Proof.Machine.execProtIsolate p s
  | .shadowSet p => Sys2Proof.Machine.execShadowSet p s
  | .shadowRead p => Sys2Proof.Machine.execShadowRead p s
  | .protStatus p => Sys2Proof.Machine.execProtStatus p s
  | .claimRound sampleA sampleB => Sys2Proof.Machine.execClaimRound sampleA sampleB s
  | .tenderStatusWord w => Sys2Proof.Machine.execTenderStatusWord w s
  | .mirrorRecordReceive r => Sys2Proof.Machine.execMirrorRecordReceive r s
  | .healthRefreshTimeout => Sys2Proof.Machine.execHealthRefreshTimeout s
  | .heldFrameExpiry => Sys2Proof.Machine.execHeldFrameExpiry s
  | .shadowLock tree => Sys2Proof.Machine.execShadowLock tree s
  | .shadowLoss tree => Sys2Proof.Machine.execShadowLoss tree s
  | .waitToRestoreExpiry => Sys2Proof.Machine.execWaitToRestoreExpiry s
  | .rbeaconRetry => Sys2Proof.Machine.execRbeaconRetry s
  | .portSet p => Sys2Proof.Machine.execPortSet p s
  | .portDisable p => Sys2Proof.Machine.execPortDisable p s
  | .portEnable p => Sys2Proof.Machine.execPortEnable p s
  | .eqTableWrite p => Sys2Proof.Machine.execEqTableWrite p s
  | .laneTrain p => Sys2Proof.Machine.execLaneTrain p s
  | .laneTrainComplete lane training partner us outcome => Sys2Proof.Machine.execLaneTrainComplete lane training partner us outcome s
  | .treeTrain p => Sys2Proof.Machine.execTreeTrain p s
  | .treeTrainComplete tree failed presets taps => Sys2Proof.Machine.execTreeTrainComplete tree failed presets taps s
  | .patternSet p => Sys2Proof.Machine.execPatternSet p s
  | .patternRead p => Sys2Proof.Machine.execPatternRead p s
  | .eyeScan p => Sys2Proof.Machine.execEyeScan p s
  | .eyeScanComplete kind lane errors interrupted => Sys2Proof.Machine.execEyeScanComplete kind lane errors interrupted s
  | .laneStatus p => Sys2Proof.Machine.execLaneStatus p s
  | .portStatus p => Sys2Proof.Machine.execPortStatus p s
  | .linkDown lane cause => Sys2Proof.Machine.execLinkDown lane cause s
  | .linkUp lane training => Sys2Proof.Machine.execLinkUp lane training s
  | .linkRecoveryRetry lane => Sys2Proof.Machine.execLinkRecoveryRetry lane s
  | .trainingTimeout lane => Sys2Proof.Machine.execTrainingTimeout lane s
  | .preemptionVerifyEnd lane ok => Sys2Proof.Machine.execPreemptionVerifyEnd lane ok s
  | .counterRead p => Sys2Proof.Machine.execCounterRead p s
  | .counterChainSet p => Sys2Proof.Machine.execCounterChainSet p s
  | .counterClear p => Sys2Proof.Machine.execCounterClear p s
  | .dumpSet p => Sys2Proof.Machine.execDumpSet p s
  | .dumpStart p => Sys2Proof.Machine.execDumpStart p s
  | .dumpInstant set => Sys2Proof.Machine.execDumpInstant set s
  | .dumpWriteComplete set => Sys2Proof.Machine.execDumpWriteComplete set s
  | .alarmClear p => Sys2Proof.Machine.execAlarmClear p s
  | .faultLogRead p => Sys2Proof.Machine.execFaultLogRead p s
  | .sensorRead p => Sys2Proof.Machine.execSensorRead p s
  | .ledgerRead p => Sys2Proof.Machine.execLedgerRead p s
  | .ledgerLoad p => Sys2Proof.Machine.execLedgerLoad p s
  | .ledgerTick readings => Sys2Proof.Machine.execLedgerTick readings s
  | .correctedMemoryError => Sys2Proof.Machine.execCorrectedMemoryError s
  | .containedFault detail index => Sys2Proof.Machine.execContainedFault detail index s
  | .recoverableFault detail index => Sys2Proof.Machine.execRecoverableFault detail index s
  | .fatalFault thermal => Sys2Proof.Machine.execFatalFault thermal s
  | .resetAssert ns => Sys2Proof.Machine.execResetAssert ns s
  | .supplyUndervoltage io millivolts ns => Sys2Proof.Machine.execSupplyUndervoltage io millivolts ns s
  | .resetRelease devId bootSel => Sys2Proof.Machine.execResetRelease devId bootSel s
  | .spiBoot image length crc => Sys2Proof.Machine.execSpiBoot image length crc s
  | .timeBasePllLock => Sys2Proof.Machine.execTimeBasePllLock s
  | .ptpMessageSend lane data => Sys2Proof.Machine.execPtpMessageSend lane data s

end Sys2Proof.Machine
end

