-- ==== Sys2Proof/Safety.lean ====
section
/-!
DEFINITION. The terms that claims use: when the device serves commands and a command's checks pass, what a command leaves on its
ring, and the invariants of a safe run.
-/
namespace Sys2Proof.Machine

/-! ### Commands -/

/-- Out of reset and without a fatal fault: the rings are fetched (18 R425, 16 Table 16-6). -/
def Dev.serves (d : Dev) : Prop := d.sys.inReset = false ∧ d.sys.fatal = false

/-- An entry of one of the 16 rings (02 R30) without FENCE, AT_BEACON and DRY. -/
def Packet.plain (p : Packet) : Prop :=
  p.ring ≤ 15 ∧ Packet.fence p = false ∧ Packet.atBeacon p = false ∧ Packet.dry p = false

/-- The device with an entry fetched from its ring. -/
def Dev.fetch (d : Dev) (p : Packet) : Dev := d.setDom p.ring fun m => { m with nextSeq := m.nextSeq + 1 }

/-- The command that an entry is in execution, from its fetch (02 R37). -/
def CmdDef.entry (c : CmdDef) (d : Dev) (p : Packet) : Exec :=
  { dom := p.ring, seq := (d.dom p.ring).nextSeq, op := c.op, pkt := p, par := Packet.bytes p, names := c.names d (Packet.bytes p) }

/-- The device serves the entry, it takes effect at once, and every check of 02 R45 passes. -/
def CmdDef.accepts (c : CmdDef) (d : Dev) (p : Packet) : Prop :=
  d.serves ∧ Packet.plain p ∧ c.refuse (d.fetch p) (c.entry d p) = none

/-- The reply of a command that ends at once: one 32-byte write in the next slot of its ring, stamped with the time base (02 R40, R43). -/
def Dev.replyOut (d : Dev) (p : Packet) (op : Nat) (st : Status) (res : List Nat) : Out :=
  let m := d.dom p.ring
  let k := m.replyIdx.toNat
  .hostWrite (m.replyBase + 32 * (k % m.entries)) (replyBytes p.ring p.tag op st d.now res (phaseOf k m.entries))

/-- What a command that ends at once leaves on its ring: its reply, and itself out of execution (02 R38). Nothing else changes. -/
def Dev.answer (d : Dev) (p : Packet) (op : Nat) (st : Status) (res : List Nat) : Dev :=
  let m := d.dom p.ring
  { d with
    doms := d.doms.put p.ring { m with nextSeq := m.nextSeq + 1, replyIdx := m.replyIdx + 1 }
    execs := d.execs.filter fun x => !(x.dom == p.ring && x.seq == m.nextSeq)
    out := d.out ++ [d.replyOut p op st res] }

/-- What an accepted versioned command leaves (02 R54): `STAGED`, and a change of the open version's content. -/
def Dev.staged (d : Dev) (p : Packet) (op : Nat) (f : List VObj → List VObj) : Dev :=
  Dev.answer { d with vers := { d.vers with openObjs := f d.vers.openObjs } } p op .staged []

/-- The version content after a single-object command with the parameters `b`, that removes its object or writes it (02 R60). -/
def stageOne (op : Nat) (key b : Bytes) (remove : Bool) (objs : List VObj) : List VObj :=
  if remove then delObj objs op key else putObj objs ⟨op, key, b⟩

/-- The command packet of a row, with the command of the manual that it is; none for a register write or an event. -/
def commandOf : Instr → Option (CmdDef × Packet)
  | .ringEnable _ _ => none
  | .ringCtrlDisable _ _ => none
  | .cmdProducerDoorbell _ _ => none
  | .registerWrite _ _ _ _ => none
  | .commandFetch _ _ => none
  | .identityRead p => some (cmdIdentityRead, p)
  | .heartbeatSet p => some (cmdHeartbeatSet, p)
  | .firmwareLoad p => some (cmdFirmwareLoad, p)
  | .firmwareStart p => some (cmdFirmwareStart, p)
  | .selfTestEnd _ _ _ => none
  | .bootStatus p => some (cmdBootStatus, p)
  | .meshStatus p => some (cmdMeshStatus, p)
  | .epochPin p => some (cmdEpochPin, p)
  | .epochQuery p => some (cmdEpochQuery, p)
  | .domainGrant p => some (cmdDomainGrant, p)
  | .domainRevoke p => some (cmdDomainRevoke, p)
  | .domainDisable p => some (cmdDomainDisable, p)
  | .domainEnable p => some (cmdDomainEnable, p)
  | .versionOpen p => some (cmdVersionOpen, p)
  | .versionCommit p => some (cmdVersionCommit, p)
  | .commitChecksEnd => none
  | .commitDone => none
  | .versionAbort p => some (cmdVersionAbort, p)
  | .versionQuery p => some (cmdVersionQuery, p)
  | .versionRetireLimit p => some (cmdVersionRetireLimit, p)
  | .versionRetire _ => none
  | .retirementLimitExpiry _ => none
  | .frameInstant => none
  | .beaconFire _ => none
  | .pulseEnd _ => none
  | .heartbeatPageWrite _ => none
  | .drainEnd _ => none
  | .channelModeSet p => some (cmdChannelModeSet, p)
  | .channelEnable p => some (cmdChannelEnable, p)
  | .channelDisable p => some (cmdChannelDisable, p)
  | .burstProfileSet p => some (cmdBurstProfileSet, p)
  | .bearingRead p => some (cmdBearingRead, p)
  | .bearingClear p => some (cmdBearingClear, p)
  | .channelStatus p => some (cmdChannelStatus, p)
  | .mgmtRingSet p => some (cmdMgmtRingSet, p)
  | .omciSend p => some (cmdOmciSend, p)
  | .omciSent _ => none
  | .moduleAccess p => some (cmdModuleAccess, p)
  | .moduleAccessComplete _ _ _ => none
  | .moduleBusTimeout _ => none
  | .downstreamSelect _ => none
  | .tailStomp _ => none
  | .bearingLoad _ _ _ => none
  | .burstReceive _ => none
  | .lossOfBurst _ => none
  | .bearingLockLoss _ => none
  | .upstreamLos _ => none
  | .treeLosAssert _ => none
  | .treeLosDeassert _ => none
  | .discoveryBurst _ => none
  | .rangingBurst _ => none
  | .rangingAttemptsExhausted _ => none
  | .losttimeExpiry _ => none
  | .upstreamPloam _ _ _ _ => none
  | .upstreamOmci _ _ _ _ => none
  | .terminalSet p => some (cmdTerminalSet, p)
  | .terminalDelete p => some (cmdTerminalDelete, p)
  | .terminalDisable p => some (cmdTerminalDisable, p)
  | .terminalEnable p => some (cmdTerminalEnable, p)
  | .terminalDeactivate p => some (cmdTerminalDeactivate, p)
  | .terminalStatus p => some (cmdTerminalStatus, p)
  | .discoverySet p => some (cmdDiscoverySet, p)
  | .discoveryRead p => some (cmdDiscoveryRead, p)
  | .rerange p => some (cmdRerange, p)
  | .terminalRegidSet p => some (cmdTerminalRegidSet, p)
  | .plannerSet p => some (cmdPlannerSet, p)
  | .lanternAllocSet p => some (cmdLanternAllocSet, p)
  | .allocSet p => some (cmdAllocSet, p)
  | .allocDelete p => some (cmdAllocDelete, p)
  | .allocDeleteComplete _ => none
  | .plannerForecast p => some (cmdPlannerForecast, p)
  | .allocStatus p => some (cmdAllocStatus, p)
  | .planRead p => some (cmdPlanRead, p)
  | .lanternFlowSet p => some (cmdLanternFlowSet, p)
  | .lanternBoundRead p => some (cmdLanternBoundRead, p)
  | .uplinkFrameReceive _ => none
  | .brynlinkFrameReceive _ _ _ => none
  | .brynlinkIdentity _ _ _ => none
  | .pipelinePass _ _ => none
  | .secondPass _ _ => none
  | .learnNoticeRelease => none
  | .learnHoldExpiry _ _ => none
  | .ageingScan => none
  | .exceptionSet p => some (cmdExceptionSet, p)
  | .clsTableSet p => some (cmdClsTableSet, p)
  | .clsProgramSet p => some (cmdClsProgramSet, p)
  | .clsBindSet p => some (cmdClsBindSet, p)
  | .clsRuleSet p => some (cmdClsRuleSet, p)
  | .clsEntrySet p => some (cmdClsEntrySet, p)
  | .clsEntryRead p => some (cmdClsEntryRead, p)
  | .clsSearch p => some (cmdClsSearch, p)
  | .clsUsage p => some (cmdClsUsage, p)
  | .fwdEntryWrite p => some (cmdFwdEntryWrite, p)
  | .fwdEntryDelete p => some (cmdFwdEntryDelete, p)
  | .fwdEntryRead p => some (cmdFwdEntryRead, p)
  | .fwdSearch p => some (cmdFwdSearch, p)
  | .fwdFlush p => some (cmdFwdFlush, p)
  | .fwdFlushComplete => none
  | .fwdSourceSet p => some (cmdFwdSourceSet, p)
  | .learnSet p => some (cmdLearnSet, p)
  | .poolCarveSet p => some (cmdPoolCarveSet, p)
  | .poolStatus p => some (cmdPoolStatus, p)
  | .queueProfileSet p => some (cmdQueueProfileSet, p)
  | .cutSet p => some (cmdCutSet, p)
  | .replListSet p => some (cmdReplListSet, p)
  | .rxRingSet p => some (cmdRxRingSet, p)
  | .txRingSet p => some (cmdTxRingSet, p)
  | .ringDisable p => some (cmdRingDisable, p)
  | .segmentLogRead p => some (cmdSegmentLogRead, p)
  | .segmentFree _ _ => none
  | .deepBufferReturn => none
  | .deepBufferReadLate _ => none
  | .hostRxWrite _ _ _ => none
  | .txRingPoll _ _ _ => none
  | .flowSet p => some (cmdFlowSet, p)
  | .flowDisable p => some (cmdFlowDisable, p)
  | .flowEnable p => some (cmdFlowEnable, p)
  | .shapeProfileSet p => some (cmdShapeProfileSet, p)
  | .terminalShapeSet p => some (cmdTerminalShapeSet, p)
  | .tmChannelSet p => some (cmdTmChannelSet, p)
  | .tmPortSet p => some (cmdTmPortSet, p)
  | .portSchedule _ => none
  | .meterSet p => some (cmdMeterSet, p)
  | .gateListSet p => some (cmdGateListSet, p)
  | .gateListStart _ _ => none
  | .gateStatus p => some (cmdGateStatus, p)
  | .sampleSet p => some (cmdSampleSet, p)
  | .sampleWindowEnd => none
  | .queueSampleRead p => some (cmdQueueSampleRead, p)
  | .linkDownHoldExpiry _ _ => none
  | .keyWrite p => some (cmdKeyWrite, p)
  | .keyErase p => some (cmdKeyErase, p)
  | .keySwitch p => some (cmdKeySwitch, p)
  | .keySwitchApply _ => none
  | .keyExchange p => some (cmdKeyExchange, p)
  | .keyReportReceive _ _ _ => none
  | .keyExchangeRetry _ => none
  | .keyBindSet p => some (cmdKeyBindSet, p)
  | .sessionKeySet p => some (cmdSessionKeySet, p)
  | .keyStatus p => some (cmdKeyStatus, p)
  | .keyRead p => some (cmdKeyRead, p)
  | .timeSourceSet p => some (cmdTimeSourceSet, p)
  | .timeSet p => some (cmdTimeSet, p)
  | .timeSetTimeout => none
  | .timeRateSet p => some (cmdTimeRateSet, p)
  | .timeRebase p => some (cmdTimeRebase, p)
  | .rebaseStep => none
  | .timeStatus p => some (cmdTimeStatus, p)
  | .timeWord _ => none
  | .followerLock _ => none
  | .timeSourceLoss _ _ => none
  | .ppsInEdge _ _ _ _ _ => none
  | .teInEdge _ _ _ => none
  | .ppsOutRise => none
  | .ppsOutFall => none
  | .beaconSet p => some (cmdBeaconSet, p)
  | .beaconClear p => some (cmdBeaconClear, p)
  | .beaconStatus p => some (cmdBeaconStatus, p)
  | .ptpPortSet p => some (cmdPtpPortSet, p)
  | .ptpMessage _ => none
  | .syncePortSet p => some (cmdSyncePortSet, p)
  | .esmcPdu _ _ => none
  | .esmcInformationSend _ => none
  | .synceWaitToRestoreExpiry _ => none
  | .todQuery p => some (cmdTodQuery, p)
  | .teInputSet p => some (cmdTeInputSet, p)
  | .teCaptureRead p => some (cmdTeCaptureRead, p)
  | .tsRingSet p => some (cmdTsRingSet, p)
  | .heritageLaneSet p => some (cmdHeritageLaneSet, p)
  | .heritageFrameReceive _ => none
  | .heritageDefectDetect _ _ => none
  | .heritageDefectClear _ _ => none
  | .tsiConnSet p => some (cmdTsiConnSet, p)
  | .tsiPageSwap p => some (cmdTsiPageSwap, p)
  | .circuitSet p => some (cmdCircuitSet, p)
  | .heritageStatus p => some (cmdHeritageStatus, p)
  | .tdmPmRead p => some (cmdTdmPmRead, p)
  | .pmSecond => none
  | .pmBinClose _ => none
  | .protSet p => some (cmdProtSet, p)
  | .claimSet p => some (cmdClaimSet, p)
  | .protIsolate p => some (cmdProtIsolate, p)
  | .shadowSet p => some (cmdShadowSet, p)
  | .shadowRead p => some (cmdShadowRead, p)
  | .protStatus p => some (cmdProtStatus, p)
  | .claimRound _ _ => none
  | .tenderStatusWord _ => none
  | .mirrorRecordReceive _ => none
  | .healthRefreshTimeout => none
  | .heldFrameExpiry => none
  | .shadowLock _ => none
  | .shadowLoss _ => none
  | .waitToRestoreExpiry => none
  | .rbeaconRetry => none
  | .portSet p => some (cmdPortSet, p)
  | .portDisable p => some (cmdPortDisable, p)
  | .portEnable p => some (cmdPortEnable, p)
  | .eqTableWrite p => some (cmdEqTableWrite, p)
  | .laneTrain p => some (cmdLaneTrain, p)
  | .laneTrainComplete _ _ _ _ _ => none
  | .treeTrain p => some (cmdTreeTrain, p)
  | .treeTrainComplete _ _ _ _ => none
  | .patternSet p => some (cmdPatternSet, p)
  | .patternRead p => some (cmdPatternRead, p)
  | .eyeScan p => some (cmdEyeScan, p)
  | .eyeScanComplete _ _ _ _ => none
  | .laneStatus p => some (cmdLaneStatus, p)
  | .portStatus p => some (cmdPortStatus, p)
  | .linkDown _ _ => none
  | .linkUp _ _ => none
  | .linkRecoveryRetry _ => none
  | .trainingTimeout _ => none
  | .preemptionVerifyEnd _ _ => none
  | .counterRead p => some (cmdCounterRead, p)
  | .counterChainSet p => some (cmdCounterChainSet, p)
  | .counterClear p => some (cmdCounterClear, p)
  | .dumpSet p => some (cmdDumpSet, p)
  | .dumpStart p => some (cmdDumpStart, p)
  | .dumpInstant _ => none
  | .dumpWriteComplete _ => none
  | .alarmClear p => some (cmdAlarmClear, p)
  | .faultLogRead p => some (cmdFaultLogRead, p)
  | .sensorRead p => some (cmdSensorRead, p)
  | .ledgerRead p => some (cmdLedgerRead, p)
  | .ledgerLoad p => some (cmdLedgerLoad, p)
  | .ledgerTick _ => none
  | .correctedMemoryError => none
  | .containedFault _ _ => none
  | .recoverableFault _ _ => none
  | .fatalFault _ => none
  | .resetAssert _ => none
  | .supplyUndervoltage _ _ _ => none
  | .resetRelease _ _ => none
  | .spiBoot _ _ _ => none
  | .timeBasePllLock => none
  | .ptpMessageSend _ _ => none

/-! ### Invariants of a safe run -/

/-- Every output pin is at the level that the rules give it (02 R68, 03 R77 to R80, 12 R308 and R310, 18 Table 18-6). -/
def State.pinsHold (s : State) : Prop := s.dev.pins = s.dev.pinsNow

end Sys2Proof.Machine
end

