-- ==== Sys2Proof/Certificates/Slice0/Obligations.lean ====
section
/-!
DEFINITION. The statements for the provers: what the block does as a whole, and for each command what it does when it is accepted.
`d` is the device before the command, `b` the effective parameter bytes (byte 0 is entry byte 16 for a command whose parameters are
counted from the entry).
-/
section
open Sys2Proof Sys2Proof.Machine

/-! ### Group 0x01: system and domains (02, 17) -/

/-- 02 R57, R73; 17 R412: what the status commands of the system answer. -/
def Obligations.SystemReadsAnswer : Prop := ∀ (p : Packet) (s : State),
  let d := s.dev
  (cmdEpochQuery.accepts d p → exec (.epochQuery p) s = .next { s with dev := (d.answer p 0x0111 .done
    [d.sys.epochPin.toNat, 1, 1, 0]).settle })
  ∧ (cmdVersionQuery.accepts d p → exec (.versionQuery p) s = .next { s with dev := (d.answer p 0x0204 .done
    [d.runNum, d.vers.openNum, d.live, d.runSlot + 256 * idMap d.slots]).settle })
  ∧ (cmdMeshStatus.accepts d p → ∃ map2 < 256, exec (.meshStatus p) s = .next { s with dev := (Dev.answer
      { d with freeCount := d.freeCount + 1 } p 0x0106 .done
      [idMap (d.meshLinks.filterMap fun q => d.peerUp? q.lane) + 256 * idMap (d.meshLinks.filterMap fun q => (d.port q.lane).conflict)
          + 65536 * map2,
        (((d.meshLinks.filter fun q => q.kind == 3).filterMap fun q => d.peerUp? q.lane).head?.getD 0xFF) + 256 * d.masterId,
        d.meshLinks.length, (d.meshLinks.filter fun q => d.portUp q.lane).length]).settle })

/-- 02 R72, R47, R51: the epoch pin, the heartbeat page's address and period with a page at once, and the ranges of handles that a domain is
granted or loses. 02 R52, R71: disabling a domain sets it disabled and inactive at once and leaves the command in execution with its drain;
enabling clears the disabled state alone. -/
def Obligations.SystemSettingsChange : Prop :=
  (∀ (p : Packet) (s : State),
    let d := s.dev
    let b := Packet.bytes p
    (cmdEpochPin.accepts d p → exec (.epochPin p) s = .next { s with dev := (Dev.answer
      { d with sys := { d.sys with epochPin := BitVec.ofNat 16 (ent b 16 2) } } p 0x0110 .done []).settle })
    ∧ (cmdHeartbeatSet.accepts d p → ent b 16 8 = 0 → exec (.heartbeatSet p) s = .next { s with dev := (Dev.answer
      (d.setDom p.ring fun m => { m with hbAddr := 0 }) p 0x0102 .done []).settle })
    ∧ (cmdHeartbeatSet.accepts d p → ent b 16 8 ≠ 0 → ∃ t, exec (.heartbeatSet p) s = .next t
      ∧ (t.dev.dom p.ring).hbAddr = ent b 16 8 ∧ (t.dev.dom p.ring).hbPeriod = (if ent b 24 4 = 0 then 100 else ent b 24 4)
      ∧ (t.dev.dom p.ring).hbDue = d.time.c + 1000 * (if ent b 24 4 = 0 then 100 else ent b 24 4)
      ∧ (t.dev.dom p.ring).hbSeq = (d.dom p.ring).hbSeq + 1
      ∧ ∃ page, page.length = 256 ∧ t.dev.out = d.out ++ [.hostWrite (ent b 16 8) page, d.replyOut p 0x0102 .done []])
    ∧ (cmdDomainGrant.accepts d p → exec (.domainGrant p) s = .next { s with dev := (Dev.answer
      (d.setOwners b (fillRange (d.owners b) (ent b 20 2) (ent b 24 4) (ent b 16 1))) p 0x0120 .done
        [ent b 24 4 - d.heldIn b]).settle })
    ∧ (cmdDomainRevoke.accepts d p → exec (.domainRevoke p) s = .next { s with dev := (Dev.answer
      (d.setOwners b ((d.owners b).filter fun o => !(inGrant b o.1 && o.2 == ent b 16 1))) p 0x0121 .done [d.heldIn b]).settle }))
  ∧ (∀ (p : Packet) (s : State),
    let d := s.dev
    let b := Packet.bytes p
    (cmdDomainDisable.accepts d p → exec (.domainDisable p) s = .next { s with dev := (((d.fetch p).setDom (ent b 16 1) fun m =>
      { m with disabled := true, active := false }).startDrain (cmdDomainDisable.entry d p) (.domain (ent b 16 1)) (ent b 20 4)).settle })
    ∧ (cmdDomainEnable.accepts d p → exec (.domainEnable p) s = .next { s with dev := (Dev.answer
      (d.setDom (ent b 16 1) fun m => { m with disabled := false }) p 0x0123 .done []).settle }))

/-- 17 R404, R405, R406: a load writes the staging memory alone; a start reads its image from there and is in execution until the self test
ends, which answers it with the failure bits and leaves the device running or in boot state 4. Whether an image's header is good is the
image's own (17 R405 gives no layout). 17 R404, log entry 8: the staging memory keeps its canonical form under every store, holds it at
reset, and reads back what was stored last: every byte of the range, and no other. -/
def Obligations.FirmwareAndItsStagingMemory : Prop :=
  (∀ (p : Packet) (s : State),
    let d := s.dev
    let b := Packet.bytes p
    let image := fun (n : Nat) => Memory.load d.sys.staging n
    (cmdFirmwareLoad.accepts d p → exec (.firmwareLoad p) s = .next { s with dev := (Dev.answer
      { d with sys := { d.sys with staging := Memory.store d.sys.staging (field b 0 4) (b.drop 8) } } p 0x0103 .done []).settle })
    ∧ (d.serves → Packet.plain p → p.ring = 0 → p.domain = 0#8 → p.tver = 0#32 → Packet.indirect p = false → entryForm p false false = true →
      64 ≤ ent b 16 4 → ent b 16 4 ≤ 16777216 → zeros 16 b [(24, 63)] = true → d.sys.fwStarted = false → d.sys.boot ≠ 3 →
      (crc32c (image (ent b 16 4))).toNat = ent b 20 4 →
      exec (.firmwareStart p) s = .next { s with dev :=
        (if Config.imageHeaderOk (image (ent b 16 4)) then
          Dev.park { d.fetch p with sys := { d.sys with
            fwStarted := true, starting := some (some (0, (d.dom 0).nextSeq))
            newRev := Config.imageRevision (image (ent b 16 4)) } } (cmdFirmwareStart.entry d p)
        else d.answer p 0x0104 .badParam [2]).settle })
    ∧ (∀ (failures : BitVec 8) (repaired ms dom seq : Nat) (e : Exec), d.sys.inReset = false → d.sys.starting = some (some (dom, seq)) →
      d.exec? dom seq = some e → exec (.selfTestEnd failures repaired ms) s = .next { s with dev := (Dev.finish
        { d with sys := { d.sys with
            boot := if failures &&& 0xFC#8 = 0#8 then 3 else 4
            fwRev := if failures &&& 0xFC#8 = 0#8 then d.sys.newRev else d.sys.fwRev
            selfBits := failures &&& 0xFC#8, repaired := repaired % 2 ^ 32, starting := none } } e .done
        [(failures &&& 0xFC#8).toNat, 256 * Config.siliconRev.toNat
            + (if failures &&& 0xFC#8 = 0#8 then d.sys.newRev else d.sys.fwRev).toNat, ms % 2 ^ 32, repaired % 2 ^ 32]).settle }))
  ∧ (∀ (m : Tbl Byte) (a : Nat) (bs : Bytes) (k : Nat),
    Memory.wf m = true →
    Memory.wf (Memory.store m a bs) = true
    ∧ Memory.wf State.reset.dev.sys.staging = true
    ∧ Memory.read (Memory.store m a bs) k = if a ≤ k ∧ k < a + bs.length then bs.getD (k - a) 0#8 else Memory.read m k)

/-! ### Rings (02 R30 to R37) -/

/-- 02 R32, R34, R52: what a write to RING_CTRL does. An enable that passes its checks resets the indices and the error fields; one that
fails sets the first failing check's code and counts it; a second enable, one while a command is in execution and one in a disabled domain
do nothing; ENABLE = 0 stops fetching at once and moves nothing else. 02 R35, R52: a doorbell stores the producer index, unless ENABLE
reads 1 and the index would pass the ring (ERR = 4), or the domain is disabled. 02 R31, R32, Table 2-1: a whole-word write of a base
register takes effect while ENABLE reads 0 and IDLE reads 1, and otherwise not; one of RING_CTRL or CMD_PRODUCER is that register's write;
any other offset or size changes nothing. 00 R12, R14, 02 R31, Tables 2-1 to 2-3: what a read of a register returns: an RW register what
was stored last, RING_CTRL its ENABLE and LOG2_ENTRIES, RING_STATUS its ACTIVE, IDLE, ERR_COUNT and ERR, the reserved bits and the offsets
that are not listed 0. -/
def Obligations.RegisterWritesActOnTheirRing : Prop :=
  (∀ (fn : Nat) (log2 : BitVec 4) (s : State),
    let d := s.dev
    let m := d.dom fn
    let badLog := log2.toNat < 6
    let badBase := m.cmdBaseLo.toNat % 4096 ≠ 0 ∨ m.replyBaseLo.toNat % 4096 ≠ 0
    d.sys.inReset = false → fn ≤ 15 →
    (m.disabled = false ∧ m.enable = false ∧ d.inExec fn = 0 ∧ ¬badLog ∧ ¬badBase →
      exec (.ringEnable fn log2) s = .next { s with dev := (d.setDom fn fun m => { m with
        log2, enable := true, active := true, producer := 0#16, consumer := 0#16, replyIdx := 0#16, err := 0#4, errCount := 0 }).settle })
    ∧ (m.disabled = false ∧ m.enable = false ∧ d.inExec fn = 0 ∧ (badLog ∨ badBase) →
      exec (.ringEnable fn log2) s = .next { s with dev := (d.setDom fn fun m => { m with
        log2, err := if badLog then 1#4 else 2#4, errCount := min 255 (m.errCount + 1) }).settle })
    ∧ (m.disabled = true ∨ m.enable = true ∨ d.inExec fn ≠ 0 → exec (.ringEnable fn log2) s = .next { s with dev := d.settle })
    ∧ exec (.ringCtrlDisable fn log2) s = .next { s with dev := (d.setDom fn fun x => { x with
        enable := false, active := false, log2 := if m.enable = false ∧ d.inExec fn = 0 then log2 else x.log2 }).settle })
  ∧ (∀ (fn : Nat) (value : Word) (s : State),
    let d := s.dev
    let m := d.dom fn
    let v := value.setWidth 16
    d.sys.inReset = false → fn ≤ 15 →
    (m.disabled = true → exec (.cmdProducerDoorbell fn value) s = .next { s with dev := d.settle })
    ∧ (m.disabled = false ∧ m.enable = true ∧ 2 ^ m.log2.toNat < (v - m.consumer).toNat →
      exec (.cmdProducerDoorbell fn value) s = .next { s with dev := (d.setDom fn fun m => { m with
        err := 4#4, errCount := min 255 (m.errCount + 1) }).settle })
    ∧ (m.disabled = false ∧ (m.enable = false ∨ (v - m.consumer).toNat ≤ 2 ^ m.log2.toNat) →
      exec (.cmdProducerDoorbell fn value) s = .next { s with dev := (d.setDom fn fun m => { m with producer := v }).settle }))
  ∧ (∀ (fn offset size : Nat) (v : Word) (s : State),
    let d := s.dev
    let quiet := (d.dom fn).enable = false ∧ d.inExec fn = 0
    d.sys.inReset = false → fn ≤ 15 →
    (quiet →
      exec (.registerWrite fn 0x1000 4 v) s = .next { s with dev := (d.setDom fn fun m => { m with cmdBaseHi := v }).settle }
      ∧ exec (.registerWrite fn 0x1004 4 v) s = .next { s with dev := (d.setDom fn fun m => { m with cmdBaseLo := v }).settle }
      ∧ exec (.registerWrite fn 0x1008 4 v) s = .next { s with dev := (d.setDom fn fun m => { m with replyBaseHi := v }).settle }
      ∧ exec (.registerWrite fn 0x100C 4 v) s = .next { s with dev := (d.setDom fn fun m => { m with replyBaseLo := v }).settle })
    ∧ exec (.registerWrite fn 0x1010 4 v) s =
        (if v.getLsbD 31 then exec (.ringEnable fn (v.setWidth 4)) s else exec (.ringCtrlDisable fn (v.setWidth 4)) s)
    ∧ exec (.registerWrite fn 0x1014 4 v) s = exec (.cmdProducerDoorbell fn v) s
    ∧ (size ≠ 4 ∨ (offset ≠ 0x1010 ∧ offset ≠ 0x1014 ∧ (¬quiet ∨ offset ∉ [0x1000, 0x1004, 0x1008, 0x100C])) →
      exec (.registerWrite fn offset size v) s = .next { s with dev := d.settle }))
  ∧ (∀ (d : Dev) (fn offset : Nat) (v : Word) (k : Nat),
    let m := d.dom fn
    let read := d.registerRead fn
    ((d.setDom fn fun m => { m with cmdBaseHi := v }).registerRead fn 0x1000 = v
      ∧ (d.setDom fn fun m => { m with cmdBaseLo := v }).registerRead fn 0x1004 = v
      ∧ (d.setDom fn fun m => { m with replyBaseHi := v }).registerRead fn 0x1008 = v
      ∧ (d.setDom fn fun m => { m with replyBaseLo := v }).registerRead fn 0x100C = v
      ∧ (d.setDom fn fun m => { m with producer := v.setWidth 16 }).registerRead fn 0x1014 = (v.setWidth 16).setWidth 32)
    ∧ ((read 0x1010).getLsbD 31 = m.enable ∧ (read 0x1010).setWidth 4 = m.log2 ∧ (4 ≤ k → k < 31 → (read 0x1010).getLsbD k = false))
    ∧ (m.errCount ≤ 255 → (read 0x101C).getLsbD 31 = m.active ∧ (read 0x101C).getLsbD 30 = (d.inExec fn == 0)
      ∧ (read 0x101C).toNat / 16 % 256 = m.errCount ∧ (read 0x101C).setWidth 4 = m.err)
    ∧ (12 ≤ k → k < 30 → (read 0x101C).getLsbD k = false)
    ∧ read 0x1018 = m.consumer.setWidth 32
    ∧ (offset ∉ [0x0000, 0x0004, 0x0008, 0x000C, 0x0010, 0x0014, 0x1000, 0x1004, 0x1008, 0x100C, 0x1010, 0x1014, 0x1018, 0x101C] →
      read offset = 0#32))

/-- 02 R36, R37: a fetch takes the entry of the domain whose turn it is, moves its CMD_CONSUMER on by one and starts its command; a failed
read sets ERR = 3 and ACTIVE = 0 and fetches nothing; with no domain to fetch from nothing changes. 02 R41: the held commands whose fence
is satisfied have started before. That a fetch shows the Keepers to be alive (14 R343) is the model's choice (log entry 178). -/
def Obligations.FetchTakesTheNextEntry : Prop := ∀ (s : State) (n : Nat) (entry : Bytes) (buf : Option Bytes),
  let d := s.dev.startHeld s.dev.execs.length
  let next := { d with rotor := (n + 1) % 16, prot := { d.prot with hung := false } }
  s.dev.serves →
  (s.dev.heldReady? = none → d = s.dev)
  ∧ (d.turn? = some n → exec (.commandFetch (some entry) buf) s = .next { s with dev := ((Dev.setDom next n fun m =>
      { m with consumer := m.consumer + 1 }).startOp (field entry 0 2) (packetOf n entry buf)).settle })
  ∧ (d.turn? = some n → exec (.commandFetch none buf) s = .next { s with dev := (Dev.setDom next n
      fun m => { m with err := 3#4, errCount := min 255 (m.errCount + 1), active := false }).settle })
  ∧ (d.turn? = none → ∀ e, exec (.commandFetch e buf) s = .next { s with dev := d.settle })

/-! ### Group 0x02: versions; frame instants, beacons, heartbeats, drains (01, 02, 12) -/

/-- 02 R56, R57, R58, R66: opening copies the running version, aborting discards the open one, the retirement limit is replaced, and a
commit freezes the open version and stays in execution while its checks run. -/
def Obligations.VersionCommandsChangeTheOpenVersion : Prop := ∀ (p : Packet) (s : State),
  let d := s.dev
  let b := Packet.bytes p
  (cmdVersionOpen.accepts d p → exec (.versionOpen p) s = .next { s with dev := (Dev.answer { d with vers := { d.vers with
    openNum := ent b 16 4, highest := ent b 16 4, openObjs := d.objs } } p 0x0201 .done []).settle })
  ∧ (cmdVersionAbort.accepts d p → d.vers.commit = none → exec (.versionAbort p) s = .next { s with dev := (Dev.answer
    { d with vers := { d.vers with openNum := 0, openObjs := [] } } p 0x0203 .done []).settle })
  ∧ (cmdVersionRetireLimit.accepts d p → exec (.versionRetireLimit p) s = .next { s with dev := (Dev.answer
    { d with vers := { d.vers with retireMs := if ent b 16 4 = 0 then 500 else ent b 16 4 } } p 0x0205 .done [d.vers.retireMs]).settle })
  ∧ (cmdVersionCommit.accepts d p → exec (.versionCommit p) s = .next { s with dev := (Dev.setVers
    ((d.fetch p).park (cmdVersionCommit.entry d p)) fun v => { v with
      commit := some ⟨p.ring, (d.dom p.ring).nextSeq, ent b 16 4, slice b 8 32, ent b 56 8, false, none, .checking, []⟩ }).settle })

/-- 02 R61 to R64: the end of a commit's checks. With failures the commit is refused, its report is written and the version stays open; with
none it waits for the first frame instant at least 250 µs later, or is armed on its beacon, unless that is not set, has gone, comes within
250 µs or has 16 commands already; a `DRY` commit only reports. A commit that passes keeps the characteristic of its version (05 R134).
02 R64, R68: when every pipeline stamps the new slot, the outputs light and
the commit answers `DONE` with its version, slot, switch instant and the live count. 02 R65: a version awaiting retirement leaves its slot
when no packet in flight carries it; at the limit the packets that still do are discarded and counted, and then it leaves. -/
def Obligations.CommitsFinishAndVersionsRetire : Prop :=
  (∀ (s : State) (c : Commit) (e : Exec),
    let d := s.dev
    d.sys.inReset = false → d.vers.commit = some c → c.phase = .checking → d.exec? c.dom c.seq = some e →
    (∀ f fs, d.commitFailures c = f :: fs → c.report ≠ 0 → exec .commitChecksEnd s = .next { s with dev := (Dev.finish
      { d.hostWrite c.report (reportBytes (f :: fs)) with vers := { d.vers with commit := none } } e .refused
        [f.cls, f.word, f.detail, fs.length + 1]).settle })
    ∧ (∀ f fs, d.commitFailures c = f :: fs → c.report = 0 → exec .commitChecksEnd s = .next { s with dev := (Dev.finish
      { d with vers := { d.vers with commit := none } } e .refused [f.cls, f.word, f.detail, fs.length + 1]).settle })
    ∧ (d.commitFailures c = [] → d.memoryBusy = true → exec .commitChecksEnd s = .next { s with dev := (Dev.finish
      { d with vers := { d.vers with commit := none } } e .busy []).settle })
    ∧ (d.commitFailures c = [] → d.memoryBusy = false → c.beacon = none → c.dry = true → exec .commitChecksEnd s = .next
      { s with dev := (Dev.finish { d with vers := { d.vers with commit := none } } e .done []).settle })
    ∧ (d.commitFailures c = [] → d.memoryBusy = false → c.beacon = none → c.dry = false → exec .commitChecksEnd s = .next
      { s with dev := (Dev.settle { d with vers := { d.vers with
        commit := some { c with phase := .waiting (roundUp (d.now + 250000) 125000), places := d.placesOf d.vers.openObjs } } }) })
    ∧ (∀ b, d.commitFailures c = [] → d.memoryBusy = false → c.beacon = some b →
      let x := d.beacon b
      let gone := x.state = .fired ∨ x.state = .missed ∨ tdiff x.instant d.now < 250000
      let full := 16 ≤ (d.armedOn b).length
      let ends := fun (st : Status) => exec .commitChecksEnd s = .next { s with dev := (Dev.finish
        { d with vers := { d.vers with commit := none } } e st []).settle }
      (x.state = .unset → ends .badParam)
      ∧ (x.state ≠ .unset → gone → ends .late)
      ∧ (x.state ≠ .unset → ¬gone → full → ends .noRoom)
      ∧ (x.state ≠ .unset → ¬gone → ¬full → c.dry = true → ends .done)
      ∧ (x.state ≠ .unset → ¬gone → ¬full → c.dry = false → exec .commitChecksEnd s = .next { s with dev := (Dev.arm
        { d with vers := { d.vers with commit := some { c with phase := .armed b, places := d.placesOf d.vers.openObjs } } } e).settle })))
  ∧ (∀ (s : State) (c : Commit) (rest : List Commit) (slot instant : Nat) (e : Exec),
    let d := s.dev
    let lit := Dev.relink { d with vers := { d.vers with switched := rest }, sys := { d.sys with dark := d.sys.fatal } }
    d.sys.inReset = false → d.vers.switched = c :: rest → c.phase = .switched slot instant → lit.exec? c.dom c.seq = some e →
    exec .commitDone s = .next { s with dev := (lit.finish e .done [c.version, slot, instant % 2 ^ 32, lit.live]).settle })
  ∧ (∀ (s : State) (slot : Nat) (r : Version),
    let d := s.dev
    d.sys.inReset = false →
    ((∀ x ∈ d.allFrames, x.slot ≠ slot) → exec (.versionRetire slot) s = .next { s with dev := (Dev.settle
      { d with vers := { d.vers with retiring := d.vers.retiring.filter fun v => v.slot != slot } }) })
    ∧ ((∃ x ∈ d.allFrames, x.slot = slot) → exec (.versionRetire slot) s = .next { s with dev := d.settle })
    ∧ ((d.vers.retiring.find? fun v => v.slot == slot) = some r → ∃ t, exec (.retirementLimitExpiry slot) s = .next t
      ∧ (∀ v ∈ t.dev.vers.retiring, v.slot ≠ slot) ∧ t.dev.time.c = max d.time.c r.due
      ∧ (∀ x ∈ t.dev.allFrames, x.slot ≠ slot)
      ∧ (let n := (d.allFrames.filter fun x => x.slot == slot).length
        let left := (Dev.goCounter d r.due).dropFrames fun x => x.slot == slot
        t.dev.health.counters = (if n = 0 then left else left.countBy 0x3E00 n).health.counters)))

/-- 01 R28: one frame instant is taken in the manual's order: the step of the time base, the beacons that were due before it, receipt and
the transmit decision, its beacons, the commit, and then the frame starts. 01 R28, 12 R304: of the beacons that are due the one with the
earliest instant is first, and at one instant the one with the lowest index. -/
def Obligations.FrameInstantTakesTheOrderOfR28 : Prop :=
  (∀ (s : State),
    let a := s.dev.rebaseDue ((s.dev.time.frame + 1) * 125000)
    let n := a.time.frame + 1
    let t := n * 125000
    s.dev.sys.inReset = false → exec .frameInstant s = .next { s with dev :=
      (((((((a.fireDue (t - 1) 65536).goTime t).frameHead n).fireDue t 65536).switchDue t).startFrameN n)).settle })
  ∧ (∀ (d : Dev) (limit b : Nat),
    let due := fun (x : Nat × Beacon) => (x.2.state = .set ∨ x.2.state = .armed) ∧ tdiff x.2.instant limit ≤ 0
    (∀ x ∈ d.time.beacons, x.1 < 512) →
    (d.dueBeacon? limit = none ↔ ∀ x ∈ d.time.beacons, ¬due x)
    ∧ (d.dueBeacon? limit = some b → ∃ x ∈ d.time.beacons, x.1 = b ∧ due x ∧ ∀ y ∈ d.time.beacons, due y →
      tdiff x.2.instant limit < tdiff y.2.instant limit
        ∨ (tdiff x.2.instant limit = tdiff y.2.instant limit ∧ b ≤ y.1)))

/-- 12 R303 to R305, 02 R46: a beacon that is set fires at its instant: its pin action, then the commands armed on it in the order in which
they were armed, then the restore of APRIO; a beacon that is not set does nothing. 01 R28: a beacon that is due before it, at the same
instant one of a lower index, fires first; at the next frame instant the steps of receipt and of the transmit decision come before. 02 R47,
R48: a domain's page is written when it is due, and the next one is due a period later; a domain without a page, and every domain after a
fatal fault, writes none. 02 R71: a drain whose work has finished ends at once, any other at its limit. The commands in execution for the
object end with `ABANDONED`, what is left of its frames is discarded, the object becomes what its disable says, and the disable answers
`DONE` with the frames sent, the frames discarded, the commands abandoned and the time. A domain's drain, with no command left, changes
nothing else. -/
def Obligations.BeaconsHeartbeatsAndDrainsAct : Prop :=
  (∀ (s : State) (b : Nat),
    let d := s.dev
    let x := d.beacon b
    d.sys.inReset = false →
    let n := d.time.frame + 1
    let fires := fun (d : Dev) (a : Nat) =>
      ((((((d.goTime (d.beacon a).instant).pinAction a).noteFiring a).runArmed a (d.beacon a).instant).restorePrio a).rearm a)
    (x.state = .set ∨ x.state = .armed → x.instant ≠ n * 125000 →
      (d.dueBeacon? x.instant = some b → exec (.beaconFire b) s = .next { s with dev := (fires d b).settle })
      ∧ (∀ a, d.dueBeacon? x.instant = some a → a ≠ b →
        exec (.beaconFire b) s = .next { s with dev := ((d.fireBeacon a).fireUntil b x.instant 65535).settle }))
    ∧ (x.state = .set ∨ x.state = .armed → d.fireBeacon b = fires d b)
    ∧ (x.state = .set ∨ x.state = .armed → x.instant = n * 125000 → exec (.beaconFire b) s = .next { s with dev :=
      ((((d.fireDue (x.instant - 1) 65536).goTime x.instant).frameHead n).fireUntil b x.instant 65536).settle })
    ∧ (x.state ≠ .set → x.state ≠ .armed → exec (.beaconFire b) s = .next { s with dev := d.settle })
    ∧ (∀ (k limit : Nat),
      ((x.state = .set ∨ x.state = .armed) ∧ x.instant = limit →
        (d.dueBeacon? limit = some b → d.fireUntil b limit (k + 1) = fires d b)
        ∧ (∀ a, d.dueBeacon? limit = some a → a ≠ b → d.fireUntil b limit (k + 1) = (d.fireBeacon a).fireUntil b limit k))
      ∧ (¬((x.state = .set ∨ x.state = .armed) ∧ x.instant = limit) → d.fireUntil b limit (k + 1) = d)))
  ∧ (∀ (s : State) (dom : Nat),
    let d := s.dev
    let m := d.dom dom
    let at_ := d.goCounter m.hbDue
    d.sys.inReset = false →
    (dom ≤ 15 → m.hbAddr ≠ 0 → d.sys.fatal = false → exec (.heartbeatPageWrite dom) s = .next { s with dev := (Dev.settle
      { at_ with
        out := d.out ++ [.hostWrite m.hbAddr (at_.page dom)]
        doms := d.doms.put dom { m with hbSeq := m.hbSeq + 1, hbRecovered := false, hbDue := m.hbDue + 1000 * m.hbPeriod }
        prot := { d.prot with hung := false } }) })
    ∧ (m.hbAddr = 0 ∨ d.sys.fatal = true → exec (.heartbeatPageWrite dom) s = .next { s with dev := d.settle }))
  ∧ (∀ (s : State) (o : DrainObj) (x : Drain),
    let d := s.dev
    let mine := fun (e : Exec) => e.isFor o && !(e.dom == x.dom && e.seq == x.seq)
    let quiet := d.drainWork o = 0 ∧ d.execs.filter mine = []
    d.sys.inReset = false → (d.drains.find? fun y => y.obj == o) = some x →
    (∀ (y : Drain) (at_ left : Dev) (k : Nat), (quiet → at_ = d) → (¬quiet → at_ = d.goCounter x.due) →
      (at_.endAll mine .abandoned).drainDiscard o = (left, k) → (left.drains.find? fun y => y.obj == o) = some y →
      let ended : Drain := { y with discarded := y.discarded + k, abandoned := y.abandoned + (at_.execs.filter mine).length }
      let last := Dev.drainDone { left with drains := left.drains.filter fun z => z.obj != o } ended
      exec (.drainEnd o) s = .next { s with dev := (last.finishId y.dom y.seq .done (ended.results last.now)).settle })
    ∧ (∀ (dom : Nat) (e : Exec), o = .domain dom → quiet → d.exec? x.dom x.seq = some e →
      exec (.drainEnd o) s = .next { s with dev := (Dev.finish { d with drains := d.drains.filter fun y => y.obj != o } e .done
        [min x.sent (2 ^ 32 - 1), min x.discarded (2 ^ 32 - 1), min x.abandoned (2 ^ 32 - 1), d.now % 2 ^ 32]).settle }))

/-! ### Group 0x03: channels and management (03) -/

/-- 02 R54, R60: every versioned command of one object stages it under its key, or removes it where its removing form says so, and changes
nothing else: 03 R76, R87; 04 R109; 05 R128, R130; 06 R166; 09 R222, R233, R221; 10 R248, R249, R256, R261; 13 R312, R326; 15 R367. -/
def Obligations.VersionedCommandsStageOneObject : Prop := ∀ (p : Packet) (s : State),
  let d := s.dev
  let b := Packet.bytes p
  let stages := fun (i : Instr) (c : CmdDef) (key : Bytes) (remove : Bool) =>
    c.accepts d p → exec i s = .next { s with dev := (d.staged p c.op (stageOne c.op key b remove)).settle }
  stages (.channelModeSet p) cmdChannelModeSet (slice b 0 2) false
  ∧ stages (.burstProfileSet p) cmdBurstProfileSet (slice b 0 3) (bit (ent b 19 1) 1)
  ∧ stages (.discoverySet p) cmdDiscoverySet (slice b 0 2) false
  ∧ stages (.plannerSet p) cmdPlannerSet (slice b 0 2) false
  ∧ stages (.lanternAllocSet p) cmdLanternAllocSet (slice b 0 2) (bit (ent b 32 1) 0)
  ∧ stages (.lanternFlowSet p) cmdLanternFlowSet (slice b 0 2) (bit (ent b 32 1) 0)
  ∧ stages (.poolCarveSet p) cmdPoolCarveSet [] false
  ∧ stages (.queueProfileSet p) cmdQueueProfileSet (slice b 0 1) (bit (ent b 17 1) 7)
  ∧ stages (.cutSet p) cmdCutSet (slice b 0 2) false
  ∧ stages (.shapeProfileSet p) cmdShapeProfileSet (slice b 0 2) (bit (ent b 18 1) 0)
  ∧ stages (.tmChannelSet p) cmdTmChannelSet (slice b 0 2) false
  ∧ stages (.tmPortSet p) cmdTmPortSet (slice b 0 1) false
  ∧ stages (.gateListSet p) cmdGateListSet (slice b 0 1 ++ slice b 2 2) (bit (field b 1 1) 0)
  ∧ stages (.heritageLaneSet p) cmdHeritageLaneSet (slice b 0 1) false
  ∧ stages (.circuitSet p) cmdCircuitSet (slice b 0 2) (bit (ent b 21 1) 0)
  ∧ stages (.portSet p) cmdPortSet (slice b 0 1) (ent b 17 1 == 0)

/-- 03 R78, R99; 02 R71: a channel's enable makes it restart at the next frame instant, its disable starts a drain, and its status gives
the state, the three LOS and transmit-disable bits with the terminals in loss of burst, the valid terminals and the missing bursts. 03
R102, R104, R81: a domain's management ring is set or removed; an OMCI message waits at its terminal with its MIC, under a key of the
channel's mode, until no Lantern frame and no preempted remainder waits and the link is up, and answers with the frame in which it leaves;
a module access starts on a free master and otherwise waits its turn, and ends with the data, with the number of bytes written, with a
NACK, or with a bus timeout. 03 R100, R101, R103: an upstream PLOAM or OMCI message whose check fails is counted at its terminal. A PLOAM
message that passes is copied to domain 0's ring where the channel says so, with the time of its burst; without that ring no copy is
written (the model's choice, log entry 158). An OMCI message that passes goes to the owning domain's ring, and is counted where that domain
has none. -/
def Obligations.ChannelsAndManagementAct : Prop :=
  (∀ (p : Packet) (s : State),
    let d := s.dev
    let b := Packet.bytes p
    let g := ent b 16 2
    let on := d.terms.filter fun t => t.2.chan == g
    (cmdChannelEnable.accepts d p → exec (.channelEnable p) s = .next { s with dev := (Dev.answer
      (d.setChan g fun c => { c with restart := true }) p 0x0302 .done []).settle })
    ∧ (cmdChannelDisable.accepts d p → exec (.channelDisable p) s = .next { s with dev := (((d.fetch p).setChan g fun c =>
      { c with disabled := true, restart := false, hold := none }).startDrain (cmdChannelDisable.entry d p) (.channel g) (ent b 20 4)).settle })
    ∧ (cmdChannelStatus.accepts d p → exec (.channelStatus p) s = .next { s with dev := (d.answer p 0x0307 .done
      [if d.mode g = 0 then 0 else if d.draining (.channel g) then 2 else if (d.chan g).disabled then 3 else 1,
        b2n (d.chan g).los + 2 * b2n (d.tree (g / 4)).losPin + 4 * b2n (d.treeDark (g / 4))
          + 256 * min (on.filter fun t => t.2.lossOfBurst).length 255,
        (on.filter fun t => within t.2.state 3 5).length, min (d.counter (64 * g + 1)) (2 ^ 32 - 1)]).settle }))
  ∧ (∀ (p : Packet) (s : State),
    let d := s.dev
    let b := Packet.bytes p
    (cmdMgmtRingSet.accepts d p → exec (.mgmtRingSet p) s = .next { s with dev := (Dev.answer (d.setDom p.ring fun m => { m with
      mgmt := if ent b 16 8 = 0 then none else some ⟨ent b 16 8, ent b 24 8, ent b 32 1, 0, 0⟩ }) p 0x0308 .done []).settle })
    ∧ (cmdOmciSend.accepts d p → exec (.omciSend p) s = .next { s with dev := (((d.fetch p).setTerm (field b 0 2) fun t => { t with
      omci := t.omci ++ [(p.ring, (d.dom p.ring).nextSeq,
        b.drop 8 ++ beBytes 4 (Config.omciMic (Config.deriveOmciIk (d.mode t.chan)
          (t.session.getD (Config.defaultSession (d.mode t.chan)))) (b.drop 8)).toNat)] }).park (cmdOmciSend.entry d p)).settle })
    ∧ (∀ h t dom seq msg rest, d.sys.inReset = false → d.term? h = some t → t.omci = (dom, seq, msg) :: rest →
      let c := d.chan t.chan
      let free := d.chanLink t.chan = true ∧ c.lantern = [] ∧ c.fragment = none ∧ d.mayStart = true
      let behind := d.endSending t.chan
      (free → exec (.omciSent h) s = .next { s with dev := (((behind.setTerm h fun t => { t with omci := rest }).sendPon
        t.chan t.onu 0 true msg).finishId dom seq .done [behind.time.frame * 125000 % 2 ^ 32]).settle })
      ∧ (¬free → exec (.omciSent h) s = .next { s with dev := d.settle }))
    ∧ (cmdModuleAccess.accepts d p → (d.accesses (ent b 16 1 / 3)).isEmpty = true → exec (.moduleAccess p) s = .next { s with dev :=
      (Dev.emit ((d.fetch p).park { cmdModuleAccess.entry d p with aux := [1] }) (.i2c (ent b 16 1) (ent b 17 1 == 0) (ent b 18 1)
        (ent b 20 1) (if ent b 17 1 = 0 then [] else slice b 8 (ent b 21 1)))).settle })
    ∧ (cmdModuleAccess.accepts d p → (d.accesses (ent b 16 1 / 3)).isEmpty = false → exec (.moduleAccess p) s = .next { s with dev :=
      ((d.fetch p).park { cmdModuleAccess.entry d p with
        aux := [0, 1 + maxBy (d.accesses (ent b 16 1 / 3)) fun x => x.aux.getD 1 0] }).settle })
    ∧ (∀ m e data, d.sys.inReset = false → d.access? m = some e →
      (exec (.moduleAccessComplete m none data) s = .next { s with dev := ((d.finish e .done
        (if ent e.par 17 1 = 0 then (List.range 4).map fun i => field (slice (data.take (ent e.par 21 1)) 0 16) (4 * i) 4
          else [ent e.par 21 1])).nextAccess m).settle })
      ∧ (∀ k, exec (.moduleAccessComplete m (some k) data) s = .next { s with dev := ((d.finish e .conflict [k % 256]).nextAccess m).settle })
      ∧ exec (.moduleBusTimeout m) s = .next { s with dev := (((d.emit (.i2cFree m)).finish e .busy []).nextAccess m).settle }))
  ∧ (∀ (s : State) (g h consumer : Nat) (msg : Bytes) (t : Term),
    let d := s.dev
    let key := t.session.getD (Config.defaultSession (d.mode g))
    let ik := Config.derivePloamIk (d.mode g) key
    let omciIk := Config.deriveOmciIk (d.mode g) key
    d.sys.inReset = false → d.term? h = some t → t.chan = g →
    ((chanCfg d.objs g).ploamCopy = false ∨ (d.dom 0).mgmt = none → exec (.upstreamPloam g h msg consumer) s = .next { s with dev :=
      (if Config.ploamMicOk ik msg then d else d.count (0x10000 + 16 * h + 1)).settle })
    ∧ (∀ r, (chanCfg d.objs g).ploamCopy = true → (d.dom 0).mgmt = some r → exec (.upstreamPloam g h msg consumer) s = .next { s with dev :=
      (if Config.ploamMicOk ik msg then d.toMgmt 0 r 2 h g t.burstTime msg consumer
        else d.count (0x10000 + 16 * h + 1)).settle })
    ∧ (∀ r, (d.dom (d.termOwner h)).mgmt = some r → exec (.upstreamOmci g h msg consumer) s = .next { s with dev :=
      (if Config.omciMicOk omciIk msg then d.toMgmt (d.termOwner h) r 1 h g t.burstTime msg consumer
        else d.count (0x10000 + 16 * h + 2)).settle })
    ∧ ((d.dom (d.termOwner h)).mgmt = none → exec (.upstreamOmci g h msg consumer) s = .next { s with dev :=
      (if Config.omciMicOk omciIk msg then d.count (64 * g + 5) else d.count (0x10000 + 16 * h + 2)).settle }))

/-! ### Group 0x04: terminals, activation and ranging (04), and the receiver (03) -/

/-- 04 R105, R107, R108, R123; 03 R92: a terminal record is written whole, a new PROFPIN starting the profile's choice again (R120),
deleted, given a registration ID, or its bearing cleared; its disable starts a drain and its enable makes it WAITING and sends
Disable_Serial_Number with the enable option. 04 R124, R114; 03 R89: what the status commands of a terminal and of the discovery list
answer. -/
def Obligations.TerminalCommandsAct : Prop :=
  (∀ (p : Packet) (s : State),
    let d := s.dev
    let b := Packet.bytes p
    let h := ent b 16 2
    (∀ t, cmdTerminalSet.accepts d p → d.term? h = some t → exec (.terminalSet p) s = .next { s with dev := (Dev.answer
      { d with terms := d.terms.put h { t with
        chan := ent b 18 1, regChk := bit (ent b 19 1) 0, onuId := ent b 20 2, profPin := ent b 22 1, serial := ent b 24 8
        profile := if t.profPin = ent b 22 1 then t.profile else d.profileOf t
        runs := if t.profPin = ent b 22 1 then t.runs else [] } }
      p 0x0401 .done []).settle })
    ∧ (cmdTerminalSet.accepts d p → d.term? h = none → exec (.terminalSet p) s = .next { s with dev := (Dev.answer
      { d with terms := d.terms.put h {
        chan := ent b 18 1, regChk := bit (ent b 19 1) 0, onuId := ent b 20 2, profPin := ent b 22 1, serial := ent b 24 8, since := d.now } }
      p 0x0401 .done []).settle })
    ∧ (cmdTerminalDelete.accepts d p → exec (.terminalDelete p) s = .next { s with dev := (Dev.answer
      { d with terms := d.terms.del h } p 0x0402 .done []).settle })
    ∧ (cmdTerminalRegidSet.accepts d p → exec (.terminalRegidSet p) s = .next { s with dev := (Dev.answer
      (d.setTerm h fun t => { t with regId := slice b 4 36 }) p 0x040A .done []).settle })
    ∧ (cmdBearingClear.accepts d p → exec (.bearingClear p) s = .next { s with dev := (Dev.answer (d.setTerm h fun t =>
      { t with locked := false, count := 0, locks := [], runs := [], profile := 0 }) p 0x0306 .done []).settle })
    ∧ (cmdTerminalDisable.accepts d p → exec (.terminalDisable p) s = .next { s with dev := (((d.fetch p).setTerm h fun t =>
      { t with draining := true }).startDrain (cmdTerminalDisable.entry d p) (.terminal h) (ent b 20 4)).settle })
    ∧ (∀ t, cmdTerminalEnable.accepts d p → d.term? h = some t → exec (.terminalEnable p) s = .next { s with dev := (Dev.answer
      ((d.setTerm h fun t => t.enter 1 d.now).ploam t.chan plDisable 0x3FF [t.serial, 1]) p 0x0404 .done []).settle }))
  ∧ (∀ (p : Packet) (s : State) (t : Term),
    let d := s.dev
    let b := Packet.bytes p
    let c := d.chan (ent b 24 2)
    let list := c.disc.flatMap DiscEntry.bytes ++ List.replicate 32 0#8
    (cmdTerminalStatus.accepts d p → d.term? (ent b 16 2) = some t → exec (.terminalStatus p) s = .next { s with dev := (d.answer p 0x0406 .done
      [t.onu * 65536 + d.profileOf t * 256 + t.state, if 3 ≤ t.state ∧ t.state ≤ 5 then t.eqd else 0,
        wrap 16 (if d.standby then t.meanAct else t.mean?.getD 0) * 65536 + min t.missing 255 * 256 + t.activations,
        t.since % 2 ^ 32]).settle })
    ∧ (cmdBearingRead.accepts d p → d.term? (ent b 16 2) = some t → exec (.bearingRead p) s = .next { s with dev := (d.answer p 0x0305 .done
      [t.bearing.toNat / 2 ^ 96, t.bearing.toNat / 2 ^ 64 % 2 ^ 32, t.bearing.toNat / 2 ^ 32 % 2 ^ 32, t.bearing.toNat % 2 ^ 32]).settle })
    ∧ (cmdDiscoveryRead.accepts d p → bit (ent b 26 1) 0 = false → exec (.discoveryRead p) s = .next { s with dev := (Dev.answer
      (d.hostWrite (ent b 16 8) list) p 0x0408 .done [c.disc.length]).settle })
    ∧ (cmdDiscoveryRead.accepts d p → bit (ent b 26 1) 0 = true → exec (.discoveryRead p) s = .next { s with dev := (Dev.answer
      ((d.hostWrite (ent b 16 8) list).setChan (ent b 24 2) fun c => { c with disc := [] }) p 0x0408 .done [c.disc.length]).settle }))

/-- 04 R122: what deactivation does to the terminal's record, and that every other record keeps its own. 04 R122, R119: a deactivation
discards the terminal's frames and answers with their number; a re-range waits for its windows, and its measurement gives the new EqD and
the change, the terminal's EqD in force being taken out of the measured delay, or a failure code. -/
def Obligations.TerminalsDeactivateAndRerange : Prop :=
  (∀ (d : Dev) (h : Nat) (t : Term) (msg : Bool) (self : Option (Nat × Nat)),
    d.execs = [] → d.term? h = some t → ∃ u, ((d.deactivate h msg self).1).term? h = some u ∧ u.state = 1 ∧ u.locked = false ∧ u.count = 0
      ∧ u.assigned = 0xFFFF ∧ u.eqd = 0 ∧ u.serial = t.serial ∧ u.chan = t.chan ∧ u.onuId = t.onuId ∧ u.graceTo = d.time.frame
      ∧ (∀ k, k ≠ h → ((d.deactivate h msg self).1).term? k = d.term? k))
  ∧ (∀ (p : Packet) (s : State) (t : Term),
    let d := s.dev
    let b := Packet.bytes p
    let h := ent b 16 2
    let r := (d.fetch p).deactivate h true (some (p.ring, (d.dom p.ring).nextSeq))
    (cmdTerminalDeactivate.accepts d p → exec (.terminalDeactivate p) s = .next { s with dev :=
      (r.1.finish (cmdTerminalDeactivate.entry d p) .done [0, min r.2 (2 ^ 32 - 1)]).settle })
    ∧ (cmdRerange.accepts d p → d.term? h = some t → exec (.rerange p) s = .next { s with dev :=
      ((((d.fetch p).setTerm h fun x => { x with attempts := 0 }).setChan t.chan fun c =>
        { c with ranging := c.ranging ++ [(h, teqNs d.objs t.chan)] }).park (cmdRerange.entry d p)).settle }))

/-- 04 R113, 03 R74, R94: a discovery window that a sent plan has opened is searched once, when it has passed. Two delimiters within the
length of a serial-number burst, or light and no good message, activate nothing and count; an unsupported terminal is listed with reason 6;
a serial number without a record is listed with reason 1, one of a stopped record with 5, one on another channel of the tree with 2, one
out of reach with 3; a WAITING record in reach is assigned an ONU-ID, and one that is active already is deactivated without a message,
counted, and assigned its ONU-ID again. Nothing else in the window changes anything. 03 R93, R94: the search gives the first position, and
a second one within that length. 04 R105, R113: assigning an ONU-ID moves a WAITING record to ASSIGNED with one activation more and a
ranging window requested; a record without an ONU-ID of its own takes the lowest that no other record of the channel holds. -/
def Obligations.DiscoveryAdmitsTerminals : Prop :=
  (∀ (s : State) (rx : DiscoveryRx) (w : Window),
    let d := s.dev
    let g := rx.chan
    let shut := d.setChan g fun c => c.useWindow w
    let lit := if (d.tree (g / 4)).losPin then shut else shut.setChan g fun c => { c with los := false }
    let found := searchWindow (chanCfg d.objs g) (profileOr0 d.objs g 0) (rx.bits.take (8 * w.len))
    let known := List.find? (fun t : Nat × Term => t.2.serial == rx.serial && t.2.chan / 4 == g / 4) d.terms
    let gives := fun (x : Dev) => exec (.discoveryBurst rx) s = .next { s with dev := x.settle }
    d.sys.inReset = false → d.standby = false → d.chanOn g = true → (d.chan g).windowOf? 5 0xFFFF = some w →
    (found = none → gives shut)
    ∧ (∀ pos second, found = some (pos, second) →
      let rtd := (coarseRtd d.objs g w pos rx.randDelay).toNat
      (second = true ∨ rx.badWithEnergy = true → gives (shut.count (64 * g + 1)))
      ∧ (second = false → rx.badWithEnergy = false →
        (rx.unsupported = true → gives ((lit.count (64 * g)).sight g rx.serial 6 rtd))
        ∧ (rx.unsupported = false → rx.decoded = false → gives shut)
        ∧ (rx.unsupported = false → rx.decoded = true →
          (known = none → gives (lit.sight g rx.serial 1 rtd))
          ∧ (∀ h t, known = some (h, t) →
            (t.state = 6 ∨ d.draining (.terminal h) = true → gives (lit.sight g rx.serial 5 rtd))
            ∧ (t.state ≠ 6 → d.draining (.terminal h) = false →
              (t.chan ≠ g → gives (lit.sight g rx.serial 2 rtd))
              ∧ (t.chan = g → inReach d.objs g rtd = false → gives (lit.sight g rx.serial 3 rtd))
              ∧ (t.chan = g → inReach d.objs g rtd = true → t.state = 1 → gives (lit.assign h rtd false))
              ∧ (t.chan = g → inReach d.objs g rtd = true → t.state ≠ 1 → gives
                (((((lit.deactivate h false none).1).count (0x10000 + 16 * h + 10)).setTerm h fun x =>
                  { x with assigned := if x.onuId ≠ 0xFFFF then 0xFFFF else t.onu }).assign h rtd true))))))))
  ∧ (∀ (c : ChanCfg) (p : Profile) (bits : List Bool) (i : Nat) (second : Bool),
    p.delimLen ≠ 0 → searchWindow c p bits = some (i, second) →
    searchDelim p.delimiter p.tol 0 bits = some i
    ∧ (second = true ↔ ∃ j, i < j ∧ j ≤ i + serialBits c p ∧ j + 8 * p.delimLen ≤ bits.length ∧ hamming p.delimiter (bits.drop j) ≤ p.tol))
  ∧ (∀ (d : Dev) (h rtd : Nat) (t : Term),
    d.standby = false → d.term? h = some t → t.onuId = 0xFFFF → (d.heldIds t.chan h).length ≤ 1020 →
    ∃ u, (d.assign h rtd false).term? h = some u ∧ u.state = 2 ∧ u.onu ∉ d.heldIds t.chan h ∧ u.onu ≤ 1020
      ∧ (∀ i < u.onu, i ∈ d.heldIds t.chan h) ∧ u.activations = min (t.activations + 1) 255
      ∧ ((d.assign h rtd false).chan t.chan).ranging = (d.chan t.chan).ranging ++ [(h, rtd)]
      ∧ ((d.assign h rtd false).chan t.chan).ploam = (d.chan t.chan).ploam ++ [(plAssign, u.onu, [t.serial])])

/-- 04 R116, R107: a good ranging burst of an ASSIGNED terminal in reach moves it to RANGED with EqD = T_eq − RTD in bits, rounded to the
nearest, and sends Ranging_Time; a wrong registration ID deactivates it with reason 4, a delay out of reach with reason 3. The round-trip
delay is that of the window's grant. 03 R100: the burst's Registration message is copied, or counted where its check fails. 04 R119, Table
4-6, 03 R91: a good burst of a re-range teaches the bearing and makes a LOST terminal OPERATING; its measurement gives the new EqD and the
change, the terminal's EqD in force being taken out of the measured delay, or fails with cause 2; an EqD within 8 frames of the last one
waits (R118). A window without a good burst asks for the next one, up to RANGEATT; with discovery off a re-range then ends with cause 3.
04 R116, R119, Table 4-6; 03 R92, R95: what the expiries of a terminal do. RANGEATT windows without a good burst end a re-range with cause 1
and otherwise deactivate; 4 missing bursts deactivate a RANGED terminal and make an OPERATING one LOST; LOSTTIME deactivates it; 4 bursts
without a delimiter clear the bearing. That a Registration message that fails its check matches no registration ID, and that reason 4 comes
before reason 3, are the model's choices (log entry 160). -/
def Obligations.RangingAndLossesMoveTheTerminal : Prop :=
  (∀ (s : State) (rx : RangingRx) (t : Term) (w : Window) (at_ : Nat),
    let d := s.dev
    let g := rx.chan
    let h := rx.term
    let shut := d.setChan g fun c => c.useWindow w
    let lit := if (d.tree (g / 4)).losPin then shut else shut.setChan g fun c => { c with los := false }
    let stamp := wrap 64 ((at_ : Int) + burstCorrection (chanCfg d.objs g))
    let timed := lit.setTerm h fun x => { x with burstTime := stamp }
    let told := if d.ploamPasses t rx.msg then timed.copyPloam g h stamp rx.msg rx.consumer else timed.count (0x10000 + 16 * h + 1)
    let rtd := rtdOf d.objs g w at_
    let gives := fun (x : Dev) => exec (.rangingBurst rx) s = .next { s with dev := x.settle }
    d.sys.inReset = false → d.standby = false → d.term? h = some t → t.chan = g → (d.chan g).windowOf? 6 h = some w →
    rx.delim = some at_ → rx.good = true →
    (t.state = 2 → d.rerange? h = none →
      let known := w.regChk = false ∨ (d.ploamPasses t rx.msg = true ∧ regMatches t.regId rx.regId = true)
      let inRange := 0 ≤ rtd ∧ rangeReach d.objs g rtd.toNat = true
      let eqd := (roundDiv ((teqBits d.objs g * 100000 : Nat) - (rtd.toNat * upRate5 (chanCfg d.objs g) : Nat) : Int) 100000).toNat
      (¬known → gives ((told.deactivate h true none).1.sight g t.serial 4 rtd.toNat))
      ∧ (known → ¬inRange → gives ((told.deactivate h true none).1.sight g t.serial 3 rtd.toNat))
      ∧ (known → inRange → gives ((told.setTerm h fun x => { x.enter 3 told.now with
          eqd, drift := [], eqdWait := 8, heldEqd := none, attempts := 0 }).ploam g plRanging t.onu [eqd])))
    ∧ (∀ e, d.rerange? h = some e →
      let heard := told.setTerm h fun x => told.chooseProfile (told.goodState { x.learn rx.final with missing := 0, noDelim := 0 })
      let r5 := upRate5 (chanCfg d.objs g)
      let eqd := (t.eqd : Int) - roundDiv (rtd * r5 - (teqBits d.objs g * 100000 : Nat)) 100000
      let own := rtd - roundDiv ((t.eqd : Int) * 100000) r5
      let fits := 0 ≤ eqd ∧ 0 ≤ own ∧ rangeReach d.objs g own.toNat = true
      (¬fits → gives (Dev.finish (heard.setTerm h fun x => { x with attempts := 0 }) e .done [0xFFFFFFFF, 2]))
      ∧ (fits → t.eqdWait ≠ 0 → gives (heard.setTerm h fun x => { x with heldEqd := some eqd.toNat, attempts := 0 }))
      ∧ (fits → t.eqdWait = 0 → gives (Dev.finish ((heard.setTerm h fun x => { x with
          eqd := eqd.toNat, drift := [], eqdWait := 8, heldEqd := none, attempts := 0 }).ploam g plRanging t.onu [eqd.toNat]) e .done
          [eqd.toNat, wrap 32 (eqd - t.eqd)]))))
  ∧ (∀ (s : State) (rx : RangingRx) (t : Term) (w : Window),
    let d := s.dev
    let g := rx.chan
    let h := rx.term
    let c := discCfg d.objs g
    let once := (d.setChan g fun c => c.useWindow w).setTerm h fun x => { x with attempts := x.attempts + 1 }
    let gives := fun (x : Dev) => exec (.rangingBurst rx) s = .next { s with dev := x.settle }
    d.sys.inReset = false → d.standby = false → d.term? h = some t → t.chan = g → t.state = 2 ∨ (d.rerange? h).isSome = true →
    (d.chan g).windowOf? 6 h = some w → rx.delim = none ∨ rx.good = false →
    (c.rangeAtt ≤ t.attempts + 1 → gives once)
    ∧ (t.attempts + 1 < c.rangeAtt → c.on = true → gives (once.setChan g fun c =>
      { c with ranging := c.ranging ++ [(h, if t.state = 2 then t.rtdCoarse else teqNs d.objs g)] }))
    ∧ (t.attempts + 1 < c.rangeAtt → c.on = false →
      (d.rerange? h = none → gives once)
      ∧ (∀ e, d.rerange? h = some e → gives (Dev.finish (once.setTerm h fun x => { x with attempts := 0 }) e .done [0xFFFFFFFF, 3]))))
  ∧ (∀ (s : State) (h : Nat) (t : Term),
    let d := s.dev
    let gone := (d.deactivate h true none).1
    d.sys.inReset = false → d.standby = false → d.term? h = some t →
    ((discCfg d.objs t.chan).rangeAtt ≤ t.attempts →
      (∀ e, d.rerange? h = some e → exec (.rangingAttemptsExhausted h) s = .next { s with dev := (Dev.finish
        (d.setTerm h fun x => { x with attempts := 0 }) e .done [0xFFFFFFFF, 1]).settle })
      ∧ (d.rerange? h = none → t.state = 2 → exec (.rangingAttemptsExhausted h) s = .next { s with dev :=
        (gone.count (0x10000 + 16 * h + 8)).settle }))
    ∧ (4 ≤ t.missing → t.state = 3 → exec (.lossOfBurst h) s = .next { s with dev := (gone.count (0x10000 + 16 * h + 8)).settle })
    ∧ (4 ≤ t.missing → t.state = 4 → exec (.lossOfBurst h) s = .next { s with dev := (d.setTerm h fun x => { x with
        state := 5, since := d.now, lossOfBurst := true, lostDue := d.time.c + (discCfg d.objs t.chan).lostTime * 1000000 }).settle })
    ∧ (t.missing < 4 → exec (.lossOfBurst h) s = .next { s with dev := d.settle })
    ∧ (t.state = 5 → exec (.losttimeExpiry h) s = .next { s with dev :=
        (((d.goCounter t.lostDue).deactivate h true none).1.count (0x10000 + 16 * h + 9)).settle })
    ∧ (4 ≤ t.noDelim → exec (.bearingLockLoss h) s = .next { s with dev := (d.setTerm h fun t =>
        { t with locked := false, count := 0, locks := [], runs := [], profile := 0 }).settle }))

/-- 03 R90, R98: the receiver loads a locked terminal's bearing, and the channel's cold preset for an unlocked terminal and in a discovery
window; a channel is in upstream LOS after LOSFR frames without a delimiter, and every channel of a tree at once while TREE_LOS is
asserted. 03 R93, R95, R91: a granted burst of a channel that is on is searched for its delimiter in the window; without one the burst is
missing, and with one at an offset it is received; profile and window are those of the version for which its plan was built. A burst that
no plan grants changes nothing. 03 R93: the search accepts the first position of the window at which the delimiter is met within TOL bits.
03 R91, R92; 04 R118: a good burst of an active terminal teaches its bearing: the final settings are kept, LOCKED is set, COUNT rises to at
most 63, and the delimiter's offset joins the drift record of 16; a bad burst leaves the bearing as it was, and a missing one counts
towards loss of lock. -/
def Obligations.ReceiverFollowsGrantedBursts : Prop :=
  (∀ (s : State) (g h tree : Nat) (discovery : Bool) (t : Term),
    let d := s.dev
    let preset := BitVec.ofNat 128 (Tbl.getD (α := Nat) (d.tree (g / 4)).presets (4 * (g % 4) + (chanCfg d.objs g).upRate) 0)
    let los := fun (d : Dev) (g : Nat) => d.setChan g fun c => { c with los := true }
    d.sys.inReset = false →
    (d.term? h = some t → t.chan = g → t.locked = true → discovery = false → exec (.bearingLoad g h discovery) s = .next { s with dev :=
      (d.setChan g fun c => { c with loaded := some h, loadedBits := t.bearing }).settle })
    ∧ (discovery = true ∨ (∀ x, d.term? h = some x → x.chan ≠ g ∨ x.locked = false) → exec (.bearingLoad g h discovery) s = .next
      { s with dev := (d.setChan g fun c => { c with loaded := none, loadedBits := preset }).settle })
    ∧ ((chanCfg d.objs g).losFr ≤ (d.chan g).losRun → d.mode g ≠ 0 → exec (.upstreamLos g) s = .next { s with dev := (los d g).settle })
    ∧ (tree < 48 → exec (.treeLosAssert tree) s = .next { s with dev := (los (los (los (los (d.setTree tree fun x =>
        { x with losPin := true }) (4 * tree + 0)) (4 * tree + 1)) (4 * tree + 2)) (4 * tree + 3)).settle })
    ∧ (tree < 48 → exec (.treeLosDeassert tree) s = .next { s with dev := (d.setTree tree fun x => { x with losPin := false }).settle }))
  ∧ (∀ (s : State) (rx : BurstRx) (t : Term) (plan : Plan) (e : PlanEntry) (es : List PlanEntry),
    let d := s.dev
    let m := d.searchMode rx
    let p := plan.prof e.profile
    d.sys.inReset = false → d.term? rx.term = some t → (d.chan rx.chan).plan? rx.frame = some plan →
    (d.burstGrants rx = [] → exec (.burstReceive rx) s = .next { s with dev := d.settle })
    ∧ (d.burstGrants rx = e :: es → m ≠ .none → d.chanIdle rx.chan = false →
      (d.delimiterAt rx m p = none → exec (.burstReceive rx) s = .next { s with dev := (d.burstMissing rx t (e :: es)).settle })
      ∧ (∀ off, d.delimiterAt rx m p = some off →
        exec (.burstReceive rx) s = .next { s with dev := (d.burstFound rx t (e :: es) m p off).settle })))
  ∧ (∀ (pat bits : List Bool) (tol i : Nat), pat ≠ [] →
    (searchDelim pat tol 0 bits = some i ↔
      (i + pat.length ≤ bits.length ∧ hamming pat (bits.drop i) ≤ tol
        ∧ ∀ j < i, tol < hamming pat (bits.drop j))))
  ∧ (∀ (t : Term) (rx : BurstRx) (at_ : Nat) (off : Int) (standby : Bool),
    (3 ≤ t.state → t.state ≤ 5 →
      let u := t.heard rx at_ off true
      u.final = rx.final ∧ u.locked = true ∧ u.count = min (t.count + 1) 63 ∧ u.drift = (off :: t.drift).take 16 ∧ u.missing = 0
        ∧ u.noDelim = 0 ∧ u.burstTime = at_ ∧ u.state = t.state ∧ u.eqd = t.eqd)
    ∧ (let u := t.heard rx at_ off false
      u.final = t.final ∧ u.locked = t.locked ∧ u.count = t.count ∧ u.drift = t.drift ∧ u.missing = 0 ∧ u.noDelim = 0)
    ∧ (let u := t.missed standby
      u.missing = t.missing + 1 ∧ u.noDelim = t.noDelim + 1 ∧ u.locked = t.locked ∧ u.final = t.final))

/-! ### Group 0x05: the grant planner (05, 06) -/

/-- 05 R129, R141, R155: an allocation is written whole, a forecast is added or all are cleared, and a deletion waits for the last planned
burst, whose receipt removes the allocation and answers the command. 05 R129: what ALLOC_SET leaves in the record: every field as given with
the defaults of WEIGHT and the report cap, the credit and bucket kept up to their ceilings while terminal and class stay, and emptied
otherwise; every other handle keeps its allocation. 05 R153, R154; 06 R169: what the planner's status commands answer. -/
def Obligations.AllocationCommandsAct : Prop :=
  (∀ (p : Packet) (s : State),
    let d := s.dev
    let b := Packet.bytes p
    let h := ent b 16 2
    (cmdAllocSet.accepts d p → exec (.allocSet p) s = .next { s with dev := (Dev.answer
      { d with allocs := d.allocsAfter b } p 0x0503 .done []).settle })
    ∧ (cmdAllocDelete.accepts d p → exec (.allocDelete p) s = .next { s with dev := (((d.fetch p).setAlloc h fun a =>
      { a with deleting := true, forecasts := [] }).park (cmdAllocDelete.entry d p)).settle })
    ∧ (cmdPlannerForecast.accepts d p → exec (.plannerForecast p) s = .next { s with dev := (Dev.answer (d.setAlloc h fun a => { a with
        forecasts := if bit (ent b 28 1) 0 then []
          else a.forecasts ++ [(((d.time.frame : Int) + d.frameDiff (ent b 20 4)).toNat, ent b 18 1, ent b 19 1, roundUp (ent b 24 4) 4)] })
      p 0x0505 .done []).settle })
    ∧ (∀ k a e, d.sys.inReset = false → d.alloc? k = some a → a.deleting = true → a.lastPlan = 0 →
      (d.execs.find? fun e => e.op == 0x0504 && e.started && e.armed.isNone && ent e.par 16 2 == k) = some e →
      exec (.allocDeleteComplete k) s = .next { s with dev := (Dev.finish { d with allocs := d.allocs.del k } e .done []).settle }))
  ∧ (∀ (d : Dev) (b : Bytes) (k : Nat),
    let h := ent b 16 2
    (∃ a, (d.allocsAfter b).find? h = some a ∧ a.term = ent b 18 2 ∧ a.allocId = ent b 20 2 ∧ a.cls = ent b 22 1 ∧ a.arate = ent b 24 4
      ∧ a.prate = ent b 28 4 ∧ a.weight = (if ent b 32 1 = 0 then 1 else ent b 32 1) ∧ a.maxGrant = ent b 36 4
      ∧ a.repCap = (if ent b 40 4 = 0 then 16777216 else ent b 40 4)
      ∧ a.credit ≤ 8 * ent b 24 4 ∧ a.bucket ≤ 2 * ent b 28 4
      ∧ (∀ old, d.alloc? h = some old → old.term = ent b 18 2 → old.cls = ent b 22 1 →
          a.credit = min old.credit (8 * ent b 24 4) ∧ a.bucket = min old.bucket (2 * ent b 28 4) ∧ a.fill = old.fill)
      ∧ (∀ old, d.alloc? h = some old → old.cls ≠ ent b 22 1 ∨ old.term ≠ ent b 18 2 → a.credit = 0 ∧ a.bucket = 0))
    ∧ (k ≠ h → (d.allocsAfter b).find? k = d.alloc? k))
  ∧ (∀ (p : Packet) (s : State),
    let d := s.dev
    let b := Packet.bytes p
    let h := ent b 16 2
    (∀ a, cmdAllocStatus.accepts d p → d.alloc? h = some a →
      let g := (d.termChan? a.term).getD 0
      let pc := planCfg d.objs g
      exec (.allocStatus p) s = .next { s with dev := (d.answer p 0x0506 .done
        [a.cls * 2 ^ 24 + a.detector pc * 65536 + (if a.detecting pc then a.period else 0) * 256, min a.report (2 ^ 32 - 1),
          d.lastGranted g a.term a.allocId, a.credit / 64]).settle })
    ∧ (∀ a, cmdAllocStatus.accepts d p → d.alloc? h = none → lalloc? d.objs h = some a → exec (.allocStatus p) s = .next { s with dev :=
      (d.answer p 0x0506 .done [0, 0, d.lastGranted ((d.termChan? a.term).getD 0) a.term a.allocId, 0]).settle })
    ∧ (cmdPlanRead.accepts d p →
      let n := ((d.time.frame : Int) + d.frameDiff (ent b 20 4)).toNat
      let q := ((d.chan h).plan? n).getD ⟨n, [], 0, 0, []⟩
      exec (.planRead p) s = .next { s with dev := (Dev.answer
        (d.hostWrite (ent b 24 8) (q.entries.flatMap planEntryBytes ++ List.replicate 16 0#8)) p 0x0507 .done
          [q.entries.length, sumBy q.entries PlanEntry.size, q.idle, q.displaced]).settle })
    ∧ (∀ objs x, cmdLanternBoundRead.accepts d p → d.boundObjs (bit (ent b 18 1) 0) = some objs → lflow? objs h = some x →
      let y := d.lanternBound objs x
      exec (.lanternBoundRead p) s = .next { s with dev := (d.answer p 0x0509 .done
        [y.up.getD 0xFFFFFFFF, y.dn.getD 0xFFFFFFFF, y.k * 65536 + min y.n 65535, y.wc]).settle }))

/-- 05 R125, R147, R153: planning a channel changes no other channel, keeps at most 18 plans, and the newest is the frame's. -/
def Obligations.PlanningIsKeptPerChannel : Prop := ∀ (d : Dev) (g n k : Nat),
  (k ≠ g → (d.buildPlan g n).chan k = d.chan k)
  ∧ ((d.buildPlan g n).chan g).plans.length ≤ 18
  ∧ (((d.buildPlan g n).chan g).plans.head?.map Plan.frame = some n)

/-! ### Groups 0x06 and 0x07: classifier and forwarding (07, 08) -/

/-- 07 R181, R182, R187, R192; 02 R54, R60: the versioned commands of the classifier stage their objects and change nothing else; a range of
rule records stages one object per record, or removes them all. 07 R192: in a subscriber table an entry command acts at once: it writes the
entry with its action, value and mask for the domain that sent it, or removes it. 07 R192, R194, R188: reading an entry writes it to the
host, a search answers the first match from an address on and whether more follow, and the usage command answers the tree bytes and the
banks of the live and of the open version. -/
def Obligations.ClassifierCommandsAct : Prop :=
  (∀ (p : Packet) (s : State),
    let d := s.dev
    let b := Packet.bytes p
    (cmdClsTableSet.accepts d p → exec (.clsTableSet p) s = .next { s with dev :=
      (d.staged p 0x0601 (stageOne 0x0601 (slice b 0 1) b (ent b 17 1 == 0))).settle })
    ∧ (cmdClsProgramSet.accepts d p → exec (.clsProgramSet p) s = .next { s with dev :=
      (d.staged p 0x0602 (stageOne 0x0602 (slice b 0 1) b (bit (ent b 17 1) 0))).settle })
    ∧ (cmdClsBindSet.accepts d p → exec (.clsBindSet p) s = .next { s with dev :=
      (d.staged p 0x0603 (stageOne 0x0603 (slice b 0 2) b (bit (ent b 20 1) 0))).settle })
    ∧ (cmdClsRuleSet.accepts d p → bit (field b 1 1) 0 = true → exec (.clsRuleSet p) s = .next { s with dev :=
      (d.staged p 0x0604 fun objs => (List.range (field b 8 4)).foldl (fun o i =>
        delObj o 0x0604 (slice b 0 1 ++ beBytes 4 (field b 4 4 + i))) objs).settle })
    ∧ (cmdClsRuleSet.accepts d p → bit (field b 1 1) 0 = false → exec (.clsRuleSet p) s = .next { s with dev :=
      (d.staged p 0x0604 fun objs => (List.range (field b 8 4)).foldl (fun o i =>
        putObj o ⟨0x0604, slice b 0 1 ++ beBytes 4 (field b 4 4 + i),
          slice b 0 1 ++ [0#8, 0#8, 0#8] ++ beBytes 4 (field b 4 4 + i) ++ slice b (16 + 64 * i) 64⟩) objs).settle })
    ∧ (cmdClsEntrySet.accepts d p → clsEntryKind d p b = .versioned → exec (.clsEntrySet p) s = .next { s with dev :=
      (d.staged p 0x0605 (stageOne 0x0605 (slice b 0 1 ++ slice b 2 2) (patch b 1 [0#8]) (bit (field b 1 1) 0))).settle }))
  ∧ (∀ (p : Packet) (s : State),
    let d := s.dev
    let b := Packet.bytes p
    let i := field b 0 1 * 65536 + field b 2 2
    let w := (b.length - 12) / 2
    cmdClsEntrySet.accepts d p → clsEntryKind d p b ≠ .versioned →
    (bit (field b 1 1) 0 = true → exec (.clsEntrySet p) s = .next { s with dev := (Dev.answer
      { d with cls := { d.cls with sub := d.cls.sub.del i } } p 0x0605 .done []).settle })
    ∧ (bit (field b 1 1) 0 = false → exec (.clsEntrySet p) s = .next { s with dev := (Dev.answer
      { d with cls := { d.cls with sub := d.cls.sub.put i ⟨field b 4 8, slice b 12 w, slice b (12 + w) w, p.ring⟩ } } p 0x0605 .done []).settle }))
  ∧ (∀ (p : Packet) (s : State),
    let d := s.dev
    let b := Packet.bytes p
    let isOpen := d.vers.openNum != 0
    (∀ t x owner, cmdClsEntryRead.accepts d p → clsTable? d.objs (ent b 16 1) = some t → d.entryAt? t (ent b 18 2) = some (x, owner) →
      exec (.clsEntryRead p) s = .next { s with dev := (Dev.answer (d.hostWrite (ent b 24 8)
        (slice b 0 1 ++ beBytes 1 (owner * 16) ++ beBytes 2 x.addr ++ beBytes 8 x.action ++ x.value ++ x.mask)) p 0x0606 .done []).settle })
    ∧ (∀ t, cmdClsSearch.accepts d p → clsTable? d.objs (field b 0 1) = some t →
      let hits := (d.assocMatches d.objs (beNat (slice b 16 128)) t).filter fun x => decide (field b 4 4 ≤ x.addr)
      (hits = [] → exec (.clsSearch p) s = .next { s with dev := (d.answer p 0x0607 .done [0xFFFFFFFF]).settle })
      ∧ (∀ x rest, hits = x :: rest → exec (.clsSearch p) s = .next { s with dev := (d.answer p 0x0607 .done
        [x.addr, if rest = [] then 0 else 1, x.action / 2 ^ 32, x.action % 2 ^ 32]).settle }))
    ∧ (cmdClsUsage.accepts d p → exec (.clsUsage p) s = .next { s with dev := (d.answer p 0x0609 .done
      [min (sumBy d.liveObjs treeBytes) (2 ^ 32 - 1), if isOpen then min (treeBytes d.vers.openObjs) (2 ^ 32 - 1) else 0,
        d.liveObjs.foldl (fun a o => a ||| bankMap o) 0, if isOpen then bankMap d.vers.openObjs else 0]).settle }))

/-- 08 R203, R205, R206: writing an entry replaces the one its key has, or places it at the head of the move chain with one move per step of
the chain; either way the pending notice of its key ends; deleting frees the slot. 08 R207, R208: an entry is read by its key or by its
slot, an absent one as zeros with 0xFFFF_FFFF; a search writes the matching entries of a window of the table and says where to go on. 08
R209, R198, R213: a flush stays in execution while it sweeps, and removes every matching entry that was written before it started, static
ones only where asked; a source's setting and the learning parameters are written whole. 08 R203, R205: a write that replaces a key's entry
is found under that key, in the same slot, and leaves every other key as it was. -/
def Obligations.ForwardingCommandsAct : Prop :=
  (∀ (p : Packet) (s : State),
    let d := s.dev
    let b := Packet.bytes p
    let fid := ent b 16 2
    let mac := ent b 18 6
    let pend := d.fwd.pend.filter fun x => !(x.fid == fid && x.mac == mac)
    let x : FwdEntry := ⟨fid, mac, bit (ent b 24 1) 1, bit (ent b 24 1) 3, ent b 25 1, ent b 26 2, ent b 32 4, false, 0, d.fwd.stamp + 1, false⟩
    (∀ i y, cmdFwdEntryWrite.accepts d p → d.fwd.find fid mac = some (i, y) → exec (.fwdEntryWrite p) s = .next { s with dev := (Dev.answer
      { d with fwd := { d.fwd with stamp := d.fwd.stamp + 1, pend, slots := d.fwd.slots.put i x } } p 0x0701 .done
        [i, 0, 1, d.fwd.moves % 2 ^ 32]).settle })
    ∧ (∀ i rest, cmdFwdEntryWrite.accepts d p → d.fwd.find fid mac = none → d.fwd.chain fid mac = some (i :: rest) →
      exec (.fwdEntryWrite p) s = .next { s with dev := (Dev.answer
      { d with fwd := { d.fwd with stamp := d.fwd.stamp + 1, pend, moves := d.fwd.moves + rest.length
                                   slots := (moveAlong d.fwd.slots (i :: rest)).put i x } } p 0x0701 .done
        [i, rest.length, 0, (d.fwd.moves + rest.length) % 2 ^ 32]).settle })
    ∧ (∀ i y, cmdFwdEntryDelete.accepts d p → d.fwd.find fid mac = some (i, y) → exec (.fwdEntryDelete p) s = .next { s with dev :=
      (Dev.answer { d with fwd := { d.fwd with slots := d.fwd.slots.del i, pend } } p 0x0702 .done [i]).settle }))
  ∧ (∀ (p : Packet) (s : State),
    let d := s.dev
    let b := Packet.bytes p
    let hit := if ent b 16 1 = 0 then d.fwd.find (ent b 18 2) (ent b 20 6)
      else (d.fwd.slots.find? (ent b 28 4)).map fun x => (ent b 28 4, x)
    let start := ent b 16 4
    let stop := min (start + 65536) fwdSlots
    let found := (d.fwd.slots.filter fun e => decide (start ≤ e.1) && decide (e.1 < stop) && e.2.matches (ent b 20 2) (ent b 22 1) (ent b 24 2)
      && (!bit (ent b 23 1) 0 || e.2.static) && (!bit (ent b 23 1) 1 || !e.2.static)).take (ent b 26 1)
    let next := if found.length = ent b 26 1 then (found.getLast?.map fun e => e.1 + 1).getD stop else stop
    (∀ i x, cmdFwdEntryRead.accepts d p → hit = some (i, x) → exec (.fwdEntryRead p) s = .next { s with dev := (Dev.answer
      (d.hostWrite (ent b 32 8) (x.bytes i)) p 0x0703 .done [i, 1]).settle })
    ∧ (cmdFwdEntryRead.accepts d p → hit = none → exec (.fwdEntryRead p) s = .next { s with dev := (Dev.answer
      (d.hostWrite (ent b 32 8) (List.replicate 32 0#8)) p 0x0703 .done [0xFFFFFFFF, 0]).settle })
    ∧ (cmdFwdSearch.accepts d p → exec (.fwdSearch p) s = .next { s with dev := (Dev.answer
      (d.hostWrite (ent b 32 8) (found.flatMap fun e => e.2.bytes e.1)) p 0x0704 .done
        [found.length, if next = fwdSlots then 0xFFFFFFFF else next, d.fwd.moves % 2 ^ 32, 0]).settle }))
  ∧ (∀ (p : Packet) (s : State) (f : Flush) (e : Exec),
    let d := s.dev
    let b := Packet.bytes p
    let goes := fun (x : Nat × FwdEntry) => decide (x.2.stamp ≤ f.stamp) && x.2.matches f.fid f.dkind f.dest && (f.statics || !x.2.static)
    (cmdFwdFlush.accepts d p → exec (.fwdFlush p) s = .next { s with dev := (Dev.park
      { d.fetch p with fwd := { d.fwd with
          flush := some ⟨p.ring, (d.dom p.ring).nextSeq, ent b 20 2, ent b 22 1, ent b 24 2, bit (ent b 23 1) 0, d.fwd.stamp⟩ } }
      (cmdFwdFlush.entry d p)).settle })
    ∧ (d.sys.inReset = false → d.fwd.flush = some f → d.exec? f.dom f.seq = some e → exec .fwdFlushComplete s = .next { s with dev := (Dev.finish
      { d with fwd := { d.fwd with slots := d.fwd.slots.filter fun x => !goes x, flush := none } } e .done
        [(d.fwd.slots.filter goes).length]).settle })
    ∧ (cmdFwdSourceSet.accepts d p → exec (.fwdSourceSet p) s = .next { s with dev := (Dev.answer
      { d with fwd := { d.fwd with sources := d.fwd.sources.put (ent b 16 2) ⟨ent b 18 2, bit (ent b 20 1) 0, bit (ent b 20 1) 1,
          bit (ent b 20 1) 2, ent b 21 1, ent b 22 2⟩ } } p 0x0706 .done []).settle })
    ∧ (cmdLearnSet.accepts d p → exec (.learnSet p) s = .next { s with dev := (Dev.answer
      { d with fwd := { d.fwd with
          ring := if ent b 16 2 = 0xFFFF then none else some (ent b 16 2), rate := ent b 20 4, burst := ent b 24 4
          hold := if ent b 28 2 = 0 then 10 else ent b 28 2, agePeriod := if ent b 30 2 = 0 then 60 else ent b 30 2
          ageMax := if ent b 32 1 = 0 then 5 else ent b 32 1, level := ent b 24 4 * 1000000000, last := d.now
          ageDue := d.time.c + (if ent b 30 2 = 0 then 60 else ent b 30 2) * 1000000000 } } p 0x0707 .done []).settle }))
  ∧ (∀ (w : Fwd) (x y : FwdEntry) (i : Nat),
    w.find x.fid x.mac = some (i, y) →
    let u := { w with slots := w.slots.put i x }
    u.find x.fid x.mac = some (i, x) ∧ ∀ fid mac, (fid, mac) ≠ (x.fid, x.mac) → u.find fid mac = w.find fid mac)

/-- 08 R211, R212, Table 8-5: the earliest notice is released 4 µs after its timestamp and meets the pending list: a repeat of its source
makes none, and a key that the full list does not hold is discarded and counted. Any other meets the learn bucket, as CONTESTED where
another source holds its key: it joins the notice ring and the list, or is discarded and counted, without a ring that takes it or with the
bucket empty, and the list stays as it is. 08 R213: the end of HOLD frees its key. 08 R214: an ageing scan falls due once in an AGEPERIOD,
clears hit bits, ages the entries that were not hit, and makes at most one notice for each that reaches the age limit. -/
def Obligations.LearningEventsAct : Prop :=
  (∀ (s : State) (n : Notice) (rest : List Notice),
    let d := s.dev
    let t := d.goTime (n.time + 4000)
    let w := { d.fwd with notices := rest }
    let level := min (w.level + w.rate * (t.now - w.last)) (w.burst * 1000000000)
    let base : Dev := { t with fwd := w }
    let filled := { w with level, last := t.now }
    let prior := d.fwd.pend.find? fun q => q.fid == n.fid && q.mac == n.mac
    let gives := fun (x : Dev) => exec .learnNoticeRelease s = .next { s with dev := x.settle }
    let lost : Dev := Dev.count { t with fwd := filled } (0x3E00 + 3)
    d.sys.inReset = false →
    (d.fwd.notices = [] → gives d)
    ∧ (sortBy (fun n : Notice => n.time * 8 + n.pipe) d.fwd.notices = n :: rest →
      (∀ q, prior = some q → q.src = n.src → gives base)
      ∧ (prior = none → 4096 ≤ d.fwd.pend.length → gives (base.count (0x3E00 + 2)))
      ∧ (∀ m : Notice, (prior = none ∧ d.fwd.pend.length < 4096 ∧ m = n)
            ∨ ((∃ q, prior = some q ∧ q.src ≠ n.src) ∧ m = { n with contested := true }) →
        (d.fwd.ring = none → gives lost)
        ∧ (∀ r, d.fwd.ring = some r →
          (level < 1000000000 ∨ (∀ q, d.sw.rx.find? r = some q → q.disabled = true) → gives lost)
          ∧ (∀ q, 1000000000 ≤ level → d.sw.rx.find? r = some q → q.disabled = false → gives
            { t with
              sw := { d.sw with rx := d.sw.rx.put r { q with queue := q.queue ++
                [{ data := m.bytes, src := n.src, flow := n.flow, itime := n.time, reason := 7 }] } }
              fwd := { filled with
                level := level - 1000000000
                pend := (d.fwd.pend.filter fun x => !(x.fid == n.fid && x.mac == n.mac))
                  ++ [⟨n.fid, n.mac, n.src, t.time.c + d.fwd.hold * 1000000⟩] } })))))
  ∧ (∀ (s : State) (fid mac : Nat) (q : Pend),
    let d := s.dev
    d.sys.inReset = false → (d.fwd.pend.find? fun q => q.fid == fid && q.mac == mac) = some q →
    exec (.learnHoldExpiry fid mac) s = .next { s with dev :=
      (Dev.settle { d.goCounter q.due with fwd := { d.fwd with pend := d.fwd.pend.filter fun x => !(x.fid == fid && x.mac == mac) } }) })
  ∧ (∀ (s : State),
    let d := s.dev
    d.sys.inReset = false →
    ∃ t notes, exec .ageingScan s = .next t ∧ t.dev.freeCount = d.freeCount + 1 ∧ t.dev.time.c = max d.time.c d.fwd.ageDue
      ∧ t.dev.fwd.ageDue = d.fwd.ageDue + d.fwd.agePeriod * 1000000000
      ∧ t.dev.fwd.slots = d.fwd.slots.map (fun x => (x.1, (x.2.scan d.fwd.ageMax).1))
      ∧ t.dev.fwd.notices = d.fwd.notices ++ notes
      ∧ notes.map (fun n : Notice => (n.kind, n.index, n.fid, n.mac, n.time)) = (d.fwd.slots.filter fun x => (x.2.scan d.fwd.ageMax).2).map
          fun x => (3, x.1, x.2.fid, x.2.mac, (d.goCounter d.fwd.ageDue).now))
  ∧ (∀ (x : FwdEntry) (ageMax : Nat),
    let y := x.scan ageMax
    (x.static = true → y = (x, false))
    ∧ (x.static = false → x.hit = true → y = ({ x with hit := false, age := 0, noticed := false }, false))
    ∧ (x.static = false → x.hit = false → y.1.age = min (x.age + 1) ageMax
      ∧ (y.2 = true ↔ ageMax ≤ x.age + 1 ∧ x.noticed = false) ∧ y.1.noticed = (x.noticed || y.2)))

/-! ### Group 0x08: packet memory, host rings and the frame path (01, 07, 09, 15) -/

/-- 09 R222, R231, R230, R232; 07 R180: pool status and the free-fault log are read, a replication list and an exception reason's ring and
bucket are written whole, the bucket full. 09 R238, R242: a host frame ring is set with its fields, or removed, and its disable starts a
drain. 09 R239, R240, R241: the producer word is read when the device knows of no buffer, or of too few. A receive ring's oldest frame is
discarded and counted where no buffer is posted, is written into the buffers it
needs, with their entries, and counted, or where they run out partway is abandoned whole in every buffer that it used; a poll of a transmit
ring takes the entries up to the producer, each in turn. -/
def Obligations.PacketMemoryAndHostRingsAct : Prop :=
  (∀ (p : Packet) (s : State),
    let d := s.dev
    let b := Packet.bytes p
    let k := ent b 16 1
    let list := (List.range (field b 2 1)).map fun i => (field b (4 + 4 * i) 1, field b (6 + 4 * i) 2)
    let exc : Exc := ⟨some (ent b 18 2), ent b 20 4, ent b 24 4, ent b 24 4 * 1000000000, d.now⟩
    (cmdPoolStatus.accepts d p → exec (.poolStatus p) s = .next { s with dev := (d.answer p 0x0802 .done
      [d.sw.poolSegs k, d.sw.poolSegs k - d.sw.usedSegs k false, (d.sw.low.find? k).getD (d.sw.poolSegs k), d.sw.usedSegs k true]).settle })
    ∧ (cmdSegmentLogRead.accepts d p → exec (.segmentLogRead p) s = .next { s with dev := (Dev.answer
      (d.hostWrite (ent b 16 8) (d.sw.freeLog.flatMap FreeFault.bytes ++ List.replicate 16 0#8)) p 0x0809 .done
        [d.sw.freeLog.length, min d.sw.freeFaults (2 ^ 32 - 1)]).settle })
    ∧ (cmdReplListSet.accepts d p → field b 2 1 = 0 → exec (.replListSet p) s = .next { s with dev := (Dev.answer
      { d with sw := { d.sw with repl := d.sw.repl.del (field b 0 2) } } p 0x0805 .done []).settle })
    ∧ (cmdReplListSet.accepts d p → field b 2 1 ≠ 0 → exec (.replListSet p) s = .next { s with dev := (Dev.answer
      { d with sw := { d.sw with repl := d.sw.repl.put (field b 0 2) list } } p 0x0805 .done []).settle })
    ∧ (cmdExceptionSet.accepts d p → exec (.exceptionSet p) s = .next { s with dev := (Dev.answer
      { d with cls := { d.cls with excs := d.cls.excs.put k exc } } p 0x0608 .done []).settle }))
  ∧ (∀ (p : Packet) (s : State),
    let d := s.dev
    let b := Packet.bytes p
    let r := ent b 16 2
    let poll := if ent b 36 2 = 0 then 10 else ent b 36 2
    let ring : FrameRing := { log2 := ent b 18 1, base := ent b 20 8, prodWord := ent b 28 8, poll, nextPoll := d.time.c + 1000 * poll }
    let off := fun (q : FrameRing) => { q with disabled := true }
    (cmdRxRingSet.accepts d p → bit (ent b 19 1) 0 = false → exec (.rxRingSet p) s = .next { s with dev := (Dev.answer
      { d with sw := { d.sw with rx := d.sw.rx.put r ring } } p 0x0806 .done []).settle })
    ∧ (cmdRxRingSet.accepts d p → bit (ent b 19 1) 0 = true → exec (.rxRingSet p) s = .next { s with dev := (Dev.answer
      { d with sw := { d.sw with rx := d.sw.rx.del r } } p 0x0806 .done []).settle })
    ∧ (cmdTxRingSet.accepts d p → bit (ent b 19 1) 0 = false → exec (.txRingSet p) s = .next { s with dev := (Dev.answer
      { d with sw := { d.sw with tx := d.sw.tx.put r ring } } p 0x0807 .done []).settle })
    ∧ (cmdTxRingSet.accepts d p → bit (ent b 19 1) 0 = true → exec (.txRingSet p) s = .next { s with dev := (Dev.answer
      { d with sw := { d.sw with tx := d.sw.tx.del r } } p 0x0807 .done []).settle })
    ∧ (cmdRingDisable.accepts d p → ent b 18 1 = 0 → exec (.ringDisable p) s = .next { s with dev := (Dev.startDrain
      { d.fetch p with sw := { d.sw with rx := d.sw.rx.adjust r off } } (cmdRingDisable.entry d p) (.rxRing r) (ent b 20 4)).settle })
    ∧ (cmdRingDisable.accepts d p → ent b 18 1 = 1 → exec (.ringDisable p) s = .next { s with dev := (Dev.startDrain
      { d.fetch p with sw := { d.sw with tx := d.sw.tx.adjust r off } } (cmdRingDisable.entry d p) (.txRing r) (ent b 20 4)).settle }))
  ∧ (∀ (s : State) (r producer : Nat) (q : FrameRing) (x : Frame) (rest : List Frame)
      (posted : List RxPosted) (entries : List TxPosted),
    let d := s.dev
    let ahead := fun (p : Nat) => (p % 65536 + 65536 - q.index % 65536) % 65536
    let short := ahead q.producer = 0 ∨ (spread (posted.take (ahead q.producer)) x.data).2 ≠ []
    d.sys.inReset = false →
    (d.sw.rx.find? r = some q → q.queue = x :: rest →
      (ahead q.producer = 0 → ahead producer = 0 → exec (.hostRxWrite r producer posted) s = .next { s with dev :=
        (((d.setRx r fun _ => { q with producer := producer % 65536, queue := rest }).freeFrame x).count (0x4000 + 4 * r)).settle })
      ∧ (∀ known : Nat, ¬(ahead q.producer = 0 ∧ ahead producer = 0) →
          (short → known = producer % 65536) → (¬short → known = q.producer) →
        let parts := spread (posted.take (ahead known)) x.data
        let wrote := fun (abandoned : Bool) => ((d.writeRx { q with producer := known } x parts.1 abandoned).setRx r fun _ =>
          { q with producer := known, queue := rest, index := q.index + parts.1.length }).freeFrame x
        (parts.2 = [] → exec (.hostRxWrite r producer posted) s = .next { s with dev :=
          ((((wrote false).count (0x4000 + 4 * r + 2)).countBy (0x4000 + 4 * r + 3) x.data.length).drainCount (.rxRing r) 1 0).settle })
        ∧ (parts.2 ≠ [] → exec (.hostRxWrite r producer posted) s = .next { s with dev :=
          ((wrote true).count (0x4000 + 4 * r + 1)).settle })))
    ∧ (d.sw.tx.find? r = some q → q.disabled = false → exec (.txRingPoll r producer entries) s = .next { s with dev :=
        ((entries.take (ahead producer)).foldl (fun t e => t.fetchTx r e) ((d.goCounter q.nextPoll).setTx r fun u =>
          { u with producer := producer % 65536, nextPoll := (d.goCounter q.nextPoll).time.c + 1000 * u.poll })).settle })
    ∧ (d.sw.tx.find? r = some q → q.disabled = true → exec (.txRingPoll r producer entries) s = .next { s with dev := d.settle }))

/-- 15 R378, R380, R381, R368; 01 R17; 12 R296: the receive MAC of an uplink port counts code and FCS errors, runts and giants, delivers
the latter two to the exceptions where the port says so, and hands an accepted frame, stamped with the correction of its lanes, to its
pipeline as express or normal. 03 R85: a frame that was handed over early and then fails goes on as bad, a giant cut at MAXFRAME. A
Brynlink strips the carriage header, takes the express bit and the ingress timestamp from it, and discards and counts a frame whose FCS
fails (the last is the model's choice, log entry 67). -/
def Obligations.ReceiveMacsJudgeFrames : Prop :=
  (∀ (s : State) (rx : UplinkRx) (q : Group),
    let d := s.dev
    let n := rx.data.length
    let first := 0x3000 + 32 * q.lane
    let itime := d.stamp (laneCorrection false q.rate q.fec)
    let express := (rx.path == .express && q.preempt) || bit q.exprx (outerPcp rx.data (bits q.flags 6 4))
    let x : Frame := { data := rx.data, src := 0x4000 + q.lane, itime, express, early := rx.early }
    let wrong := rx.path = .preemptable ∧ q.preempt = false
    let gives := fun (y : Dev) => exec (.uplinkFrameReceive rx) s = .next { s with dev := y.settle }
    d.sys.inReset = false →
    (d.receives? rx.lane 1 = none → gives d)
    ∧ (d.receives? rx.lane 1 = some q →
      (wrong → gives (d.count (first + 3)))
      ∧ (¬wrong → rx.pcsError = false → n < 64 → gives ((d.count (first + 1)).deliverError q rx.data 16 itime))
      ∧ (¬wrong → rx.pcsError = true ∨ (64 ≤ n ∧ fcsGood rx.data = false) →
        (rx.early = true ∧ 64 ≤ n → gives (d.ingress { x with bad := true, rxErr := 1 }))
        ∧ (rx.early = false ∨ n < 64 → gives (d.count first)))
      ∧ (¬wrong → rx.pcsError = false → 64 ≤ n → fcsGood rx.data = true → q.maxFrame < n →
        (rx.early = true → gives ((d.count (first + 2)).ingress { x with data := rx.data.take q.maxFrame, bad := true, rxErr := 2 }))
        ∧ (rx.early = false → gives ((d.count (first + 2)).deliverError q (rx.data.take q.maxFrame) 8 itime)))
      ∧ (¬wrong → rx.pcsError = false → 64 ≤ n → fcsGood rx.data = true → n ≤ q.maxFrame →
        gives (((d.count (first + 9)).countBy (first + 10) n).ingress x))))
  ∧ (∀ (s : State) (l : Nat) (early : Bool) (data : Bytes) (q : Group),
    let d := s.dev
    let frame := data.drop 8
    let first := 0x3000 + 32 * l
    let x : Frame := { data := frame, src := 0x8000 + q.lane, itime := fullTime d.now (field data 4 4), express := bit (field data 0 1) 7, early }
    let gives := fun (y : Dev) => exec (.brynlinkFrameReceive l early data) s = .next { s with dev := y.settle }
    d.sys.inReset = false →
    (d.receives? l 2 = none ∨ data.length < 8 → gives d)
    ∧ (d.receives? l 2 = some q → 8 ≤ data.length →
      (fcsGood frame = true → gives (((d.count (first + 9)).countBy (first + 10) frame.length).ingress x))
      ∧ (fcsGood frame = false → early = true ∧ 64 ≤ frame.length → gives (d.ingress { x with bad := true, rxErr := 1 }))
      ∧ (fcsGood frame = false → early = false ∨ frame.length < 64 → gives (d.count first))))
  ∧ (∀ (now low : Nat), low < 2 ^ 32 → low ≤ now → fullTime now low % 2 ^ 32 = low ∧ fullTime now low ≤ now ∧ now < fullTime now low + 2 ^ 32)

/-- 09 R228, R229, R230, R236: a free by a named owner takes its name off the segment, and the last one returns the segment; any other free
changes nothing but the counter, the log of the last 64 records and the alarm, with kind 1 for a second free and 2 otherwise. An index that
two segments in use bear names the latest (the model's choice, log entry 163). The earliest return read is placed behind its queue's
frames, or waits 2 µs more and is counted where the pool is empty. 01 R17, R18; 07 R175, R195; 09 R217: a pass takes the pipeline's front
frame, express before normal, when it is due for that pass, and so many core clocks of the crossbar follow; a frame due for the other pass
stays where it is. 10 R260: before a frame that names a meter, other pipelines pass theirs until none holds an earlier one for that meter.
-/
def Obligations.FramesCrossTheDevice : Prop :=
  (∀ (s : State) (idx a : Nat) (o : Byte) (x : Seg),
    let d := s.dev
    let others := x.owners.erase o
    let past := x.past ++ [o]
    let log := fun (kind : Nat) => (d.sw.freeLog ++ [(⟨idx, o, kind, d.now⟩ : FreeFault)]).drop (d.sw.freeLog.length + 1 - 64)
    let gives := fun (y : Dev) => exec (.segmentFree idx o) s = .next { s with dev := y.settle }
    let rejected := fun (second : Bool) => (Dev.count { d with sw := { d.sw with
      freeLog := log (if second then 1 else 2), freeFaults := d.sw.freeFaults + 1 } } (0x3E00 + 1)).alarm alFree
    let held := d.sw.segs.filter fun e => e.2.index == idx
    d.sys.inReset = false →
    (held = [] → gives (rejected ((d.sw.freed.getD idx []).contains o)))
    ∧ (held.getLast? = some (a, x) → (d.sw.segs.find? fun e => e.1 == a) = some (a, x) →
      (x.owners.contains o = true → others = [] → gives { d with sw := { d.sw with
        segs := d.sw.segs.filter fun e => e.1 != a, freed := d.sw.freed.put idx past } })
      ∧ (x.owners.contains o = true → others ≠ [] → gives { d with sw := { d.sw with
        segs := d.sw.segs.map fun e => if e.1 = a then (a, { x with owners := others, past }) else e } })
      ∧ (x.owners.contains o = false → gives (rejected (x.past.contains o)))))
  ∧ (∀ (s : State) (due k i c : Nat) (rest : List (Nat × Nat × Nat × Nat)) (u : Flow) (q : Queue) (y : Frame) (later : List (Frame × Nat)),
    let d := s.dev
    let t := d.goCounter due
    let gives := fun (z : Dev) => exec .deepBufferReturn s = .next { s with dev := z.settle }
    let placed := fun (segs : List Nat) => { q with frames := q.frames ++ [{ y with segs, owner := 0x10 }], returns := later }
    let waits := { q with returns := (y, due + 2000) :: later }
    d.sys.inReset = false →
    (d.returnsDue = [] → gives d)
    ∧ (sortBy (fun r : Nat × Nat × Nat × Nat => r.1) d.returnsDue = (due, k, i, c) :: rest → q.returns = (y, due) :: later →
      (k = 0 → d.flow? i = some u → u.queue = q →
        (∀ pool e, t.place y.data.length false y.slot (y.itime % 2 ^ 32) [0x10#8] = .error (pool, e) →
          gives ((t.count (0x3D00 + 16 * pool + 1)).setFlow i fun v => { v with queue := waits }))
        ∧ (∀ e segs, t.place y.data.length false y.slot (y.itime % 2 ^ 32) [0x10#8] = .ok (e, segs) →
          gives (e.setFlow i fun v => { v with queue := (placed segs).turn (qprof? d.objs u.qprof) e.time.c })))
      ∧ (k = 1 → (d.port i).queue c = q →
        (∀ pool e, t.place y.data.length false y.slot (y.itime % 2 ^ 32) [0x10#8] = .error (pool, e) →
          gives ((t.count (0x3D00 + 16 * pool + 1)).setPortQueue i c fun _ => waits))
        ∧ (∀ e segs, t.place y.data.length false y.slot (y.itime % 2 ^ 32) [0x10#8] = .ok (e, segs) →
          gives (e.setPortQueue i c fun _ => (placed segs).turn (t.portProf i c) e.time.c)))))
  ∧ (∀ (s : State) (pipe clocks : Nat) (x : Frame) (rest : List Frame),
    let d := s.dev
    let q := d.pipe pipe
    let ran : Dev → Host.Outcome State Fault Refusal := fun t => .next { s with dev := (crossbar clocks t).settle }
    let passes := fun (out : Dev) => (x.pass = 0 → exec (.pipelinePass pipe clocks) s = ran out)
      ∧ (x.pass = 1 → exec (.secondPass pipe clocks) s = ran out)
    let before := fun (m : Nat) => d.meterTurn pipe (x.itime * 8 + pipe) m
    d.sys.inReset = false → pipe ≤ 7 →
    (d.meterOfPass x = none →
      (q.express = x :: rest → passes (Dev.pass (d.setPipe pipe fun q => { q with express := rest }) pipe x))
      ∧ (q.express = [] → q.normal = x :: rest → passes (Dev.pass (d.setPipe pipe fun q => { q with normal := rest }) pipe x)))
    ∧ (∀ m, q.front = some x → d.meterOfPass x = some m →
      passes ((before m (sumBy (List.range 8) fun q => (d.pipe q).waiting.length)).takeFront pipe)
      ∧ ((∀ k < 8, k ≠ pipe → ∀ y ∈ (d.pipe k).waiting, y.itime * 8 + k < x.itime * 8 + pipe → d.meterOfPass y ≠ some m) →
        ∀ n, before m n = d))
    ∧ (∀ f, q.front = some f → (f.pass ≠ 0 → exec (.pipelinePass pipe clocks) s = ran d)
      ∧ (f.pass ≠ 1 → exec (.secondPass pipe clocks) s = ran d))
    ∧ (q.front = none → exec (.pipelinePass pipe clocks) s = ran d ∧ exec (.secondPass pipe clocks) s = ran d))

/-! ### Group 0x09: flows, queues, meters and gates (10) -/

/-- 10 R243, R244, R247, R249, R258, R267: a flow context is written with its fields, its queue and buckets kept on a rewrite, or removed
with its frames discarded; disable and enable, a terminal's shaper, a meter with both buckets full or its levels kept, the next sampling
window. -/
def Obligations.FlowCommandsAct : Prop := ∀ (p : Packet) (s : State) (f : Flow),
  let d := s.dev
  let b := Packet.bytes p
  let h := ent b 16 2
  let x : Flow := { term := ent b 18 2, dnPort := ent b 20 2, upPort := ent b 22 2, cls := ent b 24 1, sealedFlow := bit (ent b 25 1) 0
                    fprof := ent b 26 2, qprof := ent b 28 1, udKind := ent b 29 1, udest := ent b 30 2, cbase := ent b 32 4 }
  let full := fun (burst : Nat) => ({ level := burst * 1024, last := d.now, used := true } : Bucket)
  let m : Meter := ⟨ent b 18 1, bit (ent b 19 1) 0, ent b 20 4, ent b 24 4, ent b 28 4, ent b 32 4, ent b 36 1, ent b 37 1,
    signed 8 (ent b 38 1), ent b 40 4, full (ent b 24 4), full (ent b 32 4)⟩
  (cmdFlowSet.accepts d p → bit (ent b 25 1) 1 = false → d.flow? h = none → exec (.flowSet p) s = .next { s with dev := (Dev.answer
    { d with flows := d.flows.put h (x.fill d.objs d.now) } p 0x0901 .done []).settle })
  ∧ (cmdFlowSet.accepts d p → bit (ent b 25 1) 1 = false → d.flow? h = some f → ∃ t g, exec (.flowSet p) s = .next t
    ∧ t.dev.flow? h = some g ∧ g.queue = f.queue ∧ g.disabled = f.disabled ∧ g.keySrc = f.keySrc ∧ g.seq = f.seq
    ∧ (g.term, g.dnPort, g.upPort, g.cls, g.sealedFlow) = (x.term, x.dnPort, x.upPort, x.cls, x.sealedFlow)
    ∧ (g.fprof, g.qprof, g.udKind, g.udest, g.cbase) = (x.fprof, x.qprof, x.udKind, x.udest, x.cbase)
    ∧ t.dev.terms = d.terms ∧ t.dev.sw = d.sw ∧ ∀ k, k ≠ h → t.dev.flow? k = d.flow? k)
  ∧ (cmdFlowSet.accepts d p → bit (ent b 25 1) 1 = true → ∃ t, exec (.flowSet p) s = .next t
    ∧ t.dev.flow? h = none ∧ t.dev.terms = d.terms ∧ ∀ k, k ≠ h → t.dev.flow? k = d.flow? k)
  ∧ (cmdFlowDisable.accepts d p → exec (.flowDisable p) s = .next { s with dev := (((d.fetch p).setFlow h fun f =>
    { f with disabled := true }).startDrain (cmdFlowDisable.entry d p) (.flow h) (ent b 20 4)).settle })
  ∧ (cmdFlowEnable.accepts d p → exec (.flowEnable p) s = .next { s with dev := (Dev.answer
    (d.setFlow h fun f => { f with disabled := false }) p 0x0903 .done []).settle })
  ∧ (cmdTerminalShapeSet.accepts d p → exec (.terminalShapeSet p) s = .next { s with dev := (Dev.answer
    (d.setTerm h fun t => Term.fill { t.fill d.objs d.now with shaper := ent b 18 2 } d.objs d.now) p 0x0905 .done []).settle })
  ∧ (cmdMeterSet.accepts d p → ent b 18 1 = 0 → exec (.meterSet p) s = .next { s with dev := (Dev.answer
    { d with meters := d.meters.del h } p 0x0908 .done []).settle })
  ∧ (cmdMeterSet.accepts d p → ent b 18 1 ≠ 0 → d.meters.find? h = none → exec (.meterSet p) s = .next { s with dev := (Dev.answer
    { d with meters := d.meters.put h m } p 0x0908 .done []).settle })
  ∧ (∀ old, cmdMeterSet.accepts d p → ent b 18 1 ≠ 0 → d.meters.find? h = some old → exec (.meterSet p) s = .next { s with dev :=
    (Dev.answer { d with meters := d.meters.put h { m with
        c := { old.c with level := min old.c.level (ent b 24 4 * 1024 : Nat) }
        e := { old.e with level := min old.e.level (ent b 32 4 * 1024 : Nat) } } } p 0x0908 .done []).settle })
  ∧ (cmdSampleSet.accepts d p → exec (.sampleSet p) s = .next { s with dev := (Dev.answer
    { d with windowNext := if ent b 16 4 = 0 then 1000 else ent b 16 4 } p 0x090B .done []).settle })

/-- 10 R264, R268: a gate's status shows a list that waits for its start, or the list in force with its entry, or none; a queue sample shows
depth, the last window's extremes and its end. 10 R262, R265, R267: a waiting gate list governs from its realised start; a window's end
moves the extremes of every queue into the last window and starts the next one; the end of a link-down hold flushes the held frames of its
channel or port. -/
def Obligations.TrafficReadsAndEvents : Prop :=
  (∀ (p : Packet) (s : State),
    let d := s.dev
    let b := Packet.bytes p
    let i := ent b 18 2
    let q := d.gate (ent b 16 1) i
    let word := fun (n : Nat) => min n (2 ^ 32 - 1)
    let sample := fun (depth last sojourn : Nat) => exec (.queueSampleRead p) s = .next { s with dev := (d.answer p 0x090C .done
      [word depth, word last, word sojourn, d.windowEnd % 2 ^ 32]).settle }
    (∀ w, cmdGateStatus.accepts d p → q.waiting = some w → d.now < w.start → exec (.gateStatus p) s = .next { s with dev :=
      (d.answer p 0x090A .done [2, w.start / 2 ^ 32, w.start % 2 ^ 32, 0xFFFFFFFF]).settle })
    ∧ (∀ w, cmdGateStatus.accepts d p → q.waiting = some w → w.start ≤ d.now → exec (.gateStatus p) s = .next { s with dev :=
      (d.answer p 0x090A .done [1, w.start / 2 ^ 32, w.start % 2 ^ 32, w.entryAt d.now]).settle })
    ∧ (∀ l, cmdGateStatus.accepts d p → q.waiting = none → q.inForce = some l → exec (.gateStatus p) s = .next { s with dev :=
      (d.answer p 0x090A .done [1, l.start / 2 ^ 32, l.start % 2 ^ 32, l.entryAt d.now]).settle })
    ∧ (cmdGateStatus.accepts d p → q.waiting = none → q.inForce = none → exec (.gateStatus p) s = .next { s with dev :=
      (d.answer p 0x090A .done [0, 0, 0, 0xFFFFFFFF]).settle })
    ∧ (∀ f, cmdQueueSampleRead.accepts d p → ent b 16 1 = 0 → d.flow? i = some f → sample f.queue.depth f.queue.lastDepth f.queue.lastSojourn)
    ∧ (cmdQueueSampleRead.accepts d p → ent b 16 1 = 1 → let u := (d.port i).queue (ent b 17 1)
      sample u.depth u.lastDepth u.lastSojourn)
    ∧ (cmdQueueSampleRead.accepts d p → ent b 16 1 = 2 →
      sample (bytesOf (d.chan i).lantern) (d.chan i).lastDepth (d.chan i).lastSojourn))
  ∧ (∀ (s : State) (kind target : Nat) (w : GateList),
    let d := s.dev
    d.sys.inReset = false →
    ((d.gate kind target).waiting = some w → exec (.gateListStart kind target) s = .next { s with dev :=
      (Dev.settle { d.goTime w.start with gates := d.gates.put (kind * 1024 + target) ⟨some w, none⟩ }) })
    ∧ ((d.gate kind target).waiting = none → exec (.gateListStart kind target) s = .next { s with dev := d.settle })
    ∧ (∃ t, exec .sampleWindowEnd s = .next t ∧ t.dev.window = d.windowNext ∧ t.dev.windowEnd % (d.window * 1000000) = 0
      ∧ (∀ h f, d.flow? h = some f → t.dev.flow? h = some { f with queue := { f.queue with
          lastDepth := f.queue.maxDepth, lastSojourn := f.queue.maxSojourn, maxDepth := 0, maxSojourn := 0 } })
      ∧ t.dev.sw = d.sw ∧ t.dev.out = d.out ∧ t.dev.terms = d.terms ∧ t.dev.doms = d.doms)
    ∧ (∀ due, (d.chan target).hold = some due → exec (.linkDownHoldExpiry 0 target) s = .next { s with dev :=
      ((d.goCounter due).flushChan target).settle })
    ∧ (∀ due, (d.port target).hold = some due → exec (.linkDownHoldExpiry 1 target) s = .next { s with dev :=
      ((d.goCounter due).flushPort target).settle }))

/-- 03 R82, R84, R85, R104; 10 R251, R252; 14 R359: on a channel that is on with its link up, what was being sent ends; then a Lantern
frame starts before everything but the preempted remainder of its own port, a remainder before the flows, and otherwise, with no OMCI
message waiting, the flow that the committed and then the excess rounds choose; a device that takes over or hands over starts no frame of a
kind that may not start yet, or any more. A frame found bad after its start goes on with its FCS inverted. 10 R252: `next_down` of a
channel. A channel below its bucket serves nothing; a committed flow of the lowest class that has one goes before any excess flow, and is
the first at or after its class's pointer, or the first of all. 10 R256, R257, R263; 15 R379, R380: a port or Brynlink that is up refills
its bucket; a preemptable frame on its wire is cut while its gate is closed or for an express frame that may start, and otherwise ends;
then a fragment goes on behind the express frames, or the class that the mode picks is served: the head frame leaves the class queue, is
charged to the port's bucket and goes to the MAC. A Lantern frame whose gate lets it start is always picked. -/
def Obligations.ChannelsAndPortsSendInOrder : Prop :=
  (∀ (s : State) (g : Nat) (x : Frame) (rest : List Frame) (u : Sending),
    let d := s.dev
    let t := ((d.endSending g).dropNever g).fillChan g
    let lantern := if t.mayLantern then (t.chan g).lantern else []
    let inverted := u.stomped (((d.flow? u.frame.flow).map Flow.sealedFlow).getD false)
    let gives := fun (y : Dev) => exec (.downstreamSelect g) s = .next { s with dev := y.settle }
    d.sys.inReset = false → g ≤ 191 →
    (d.chanIdle g = true → gives d)
    ∧ (d.chanIdle g = false → (d.endSending g).chanLink g = false → gives (d.endSending g))
    ∧ (d.chanIdle g = false → (d.endSending g).chanLink g = true →
      (lantern = x :: rest → (t.chan g).fragment = none → gives (t.startLantern g x rest))
      ∧ (lantern = x :: rest → (t.chan g).fragment = some u → u.frame.flow ≠ x.flow → gives (t.startLantern g x rest))
      ∧ (lantern = x :: rest → (t.chan g).fragment = some u → u.frame.flow = x.flow → gives (t.goOn g u))
      ∧ (lantern = [] → (t.chan g).fragment = some u → t.mayGoOn = true → gives (t.goOn g u))
      ∧ (lantern = [] → (t.chan g).fragment = some u → t.mayGoOn = false → gives t)
      ∧ (lantern = [] → (t.chan g).fragment = none →
        (t.mayStart = false ∨ t.omciWaits g = true → gives t)
        ∧ (t.mayStart = true → t.omciWaits g = false →
          (t.nextDown g = none → gives t)
          ∧ (∀ h committed v, t.nextDown g = some (h, committed, v) → gives (v.startFlow g h committed)))))
    ∧ ((d.chan g).sending = some u → u.frame.early = true → exec (.tailStomp g) s = .next { s with dev :=
      ((d.count (64 * g + 2)).setChan g fun c => { c with sending := some inverted }).settle })
    ∧ ((∀ w, (d.chan g).sending = some w → w.frame.early = false) →
      ((d.chan g).fragment = some u → u.frame.early = true → exec (.tailStomp g) s = .next { s with dev :=
        ((d.count (64 * g + 2)).setChan g fun c => { c with fragment := some inverted }).settle })
      ∧ ((∀ w, (d.chan g).fragment = some w → w.frame.early = false) → exec (.tailStomp g) s = .next { s with dev := d.settle })))
  ∧ (∀ (d : Dev) (g c h : Nat),
    ((d.chan g).bucket.ok = false → d.nextDown g = none)
    ∧ ((d.chan g).bucket.ok = true → 1 ≤ c → c ≤ 3 → d.committed g c = some h → (∀ k, 1 ≤ k → k < c → d.committed g k = none) →
      ∃ v, d.nextDown g = some (h, true, v))
    ∧ ((d.chan g).bucket.ok = true → (∀ k, 1 ≤ k → k ≤ 3 → d.committed g k = none) → 1 ≤ c → c ≤ 3 →
      (∀ k, 1 ≤ k → k < c → d.excess g k = none) → ∀ v, d.excess g c = some (h, v) → d.nextDown g = some (h, false, v))
    ∧ ((d.flows.map Prod.fst).Pairwise (· < ·) → d.committed g c = some h →
      let ptr := (d.chan g).ptr.getD (c - 1) 0
      ∃ f ∈ d.ready g c, f.1 = h ∧ f.2.cir.used = true ∧ f.2.cir.ok = true
        ∧ ∀ k ∈ d.ready g c, k.2.cir.used = true → k.2.cir.ok = true → (ptr ≤ k.1 → ptr ≤ h ∧ h ≤ k.1) ∧ (h < ptr → h ≤ k.1)))
  ∧ (∀ (s : State) (l c : Nat) (q : Group) (v : Dev),
    let d := s.dev
    let r := d.releaseLantern
    let filled := r.setPort l fun p => { p with bucket := p.bucket.fill (r.portRate r.objs l) (tmPort r.objs l).pbs d.now }
    let t := (filled.dropNeverPort q).yieldPort q
    let gives := fun (y : Dev) => exec (.portSchedule l) s = .next { s with dev := y.settle }
    d.sys.inReset = false →
    (d.group? l = none → gives d)
    ∧ (d.group? l = some q → (q.kind ≠ 1 ∧ q.kind ≠ 2) ∨ d.portUp l = false ∨ d.groupLit q = false → gives d)
    ∧ (d.group? l = some q → q.kind = 1 ∨ q.kind = 2 → d.portUp l = true → d.groupLit q = true →
      ((t.port l).fragment = none → t.portPick q false = none → gives t)
      ∧ ((t.port l).fragment = none → t.portPick q false = some (c, v) → gives (v.startPort q c))
      ∧ (∀ w, (t.port l).fragment = some w →
        (t.portPick q true = some (c, v) → gives (v.startPort q c))
        ∧ (t.portPick q true = none →
          let held := t.portPreempts q = true ∧ (t.gate 1 l).openFor w.cls d.now = some 0
          (held → gives t)
          ∧ (¬held → gives (t.setPort l fun p => { p with fragment := none, sending := some w }))))))
  ∧ (∀ (t : Dev) (q : Group) (c : Nat) (x : Frame) (rest : List Frame) (w : PortSend) (only : Bool),
    (t.portReady q 0 = true → t.portPick q only = some (0, t))
    ∧ ((t.port q.lane).sending = none → t.yieldPort q = t)
    ∧ ((t.port q.lane).sending = some w →
      let cut := t.portPreempts q = true ∧ ((t.gate 1 q.lane).openFor w.cls t.now = some 0 ∨ (t.portPick q true).isSome = true)
      (cut → t.yieldPort q = t.cutPort q) ∧ (¬cut → t.yieldPort q = t.endPort q))
    ∧ (((t.port q.lane).queue c).frames = x :: rest →
      let u := Queue.turn { (t.port q.lane).queue c with frames := rest } (t.portProf q.lane c) t.time.c
      let o := (t.setPortQueue q.lane c fun _ => u).ptpOut q x
      let e := o.1.setPort q.lane fun p => { p with
        bucket := p.bucket.charge o.2.data.length (tmPort o.1.objs q.lane).overhead
        deficits := if u.frames = [] ∧ c ≠ 0 then p.deficits.set (c - 1) 0 else p.deficits }
      (x.src ≠ srcKeepers → o.2 = x)
      ∧ (q.kind = 2 → t.startPort q c = (e.portStart q c o.2).setPort q.lane fun p =>
        { p with sending := some { frame := o.2, cls := c, data := carriage e.sys.devId.toNat o.2 ++ o.2.wire } })
      ∧ (q.kind ≠ 2 → e.portPreempts q = true → q.expressClass c = false → t.startPort q c = (e.portStart q c o.2).setPort q.lane fun p =>
        { p with sending := some { frame := o.2, cls := c, data := o.2.wire } })
      ∧ (q.kind ≠ 2 → e.portPreempts q = false ∨ q.expressClass c = true → t.startPort q c = e.sendPort q c o.2)))

/-! ### Group 0x0A: the cipher (11) -/

/-- 11 R271, R276, R277: a key write makes the slot's parts anew, or with KEEP leaves its CTR part and makes the GCM part anew; an erase
empties the slot; a session key and a flow's key source are set. 11 R284, R271: the status of a slot shows its parts, whether it is active,
the target of a pending switch or spent, its use upstream in the last 16 frames, and its counts; a read writes its record of 64 bytes,
without a key that an exchange has brought. -/
def Obligations.KeyCommandsAct : Prop :=
  (∀ (p : Packet) (s : State),
    let d := s.dev
    let b := Packet.bytes p
    let flags := field b 4 1
    let gcm : KeySlot := { gcm := bit flags 1, gcmKey := slice b 32 32, salt := field b 8 4 }
    (cmdKeyWrite.accepts d p → bit flags 4 = false → exec (.keyWrite p) s = .next { s with dev := (Dev.answer
      { d with keys := d.keys.put (field b 0 4) { gcm with ctr := bit flags 0, ctrKey := slice b 16 16 } } p 0x0A01 .done []).settle })
    ∧ (cmdKeyWrite.accepts d p → bit flags 4 = true → exec (.keyWrite p) s = .next { s with dev := (Dev.answer
      (d.setKey (field b 0 4) fun k => { gcm with ctr := k.ctr, ctrKey := k.ctrKey, exchanged := k.exchanged, ctrCount := k.ctrCount
                                                  lastUp := k.lastUp, countedDn := k.countedDn, countedUp := k.countedUp })
      p 0x0A01 .done []).settle })
    ∧ (cmdKeyErase.accepts d p → exec (.keyErase p) s = .next { s with dev := (Dev.answer
      { d with keys := d.keys.del (ent b 16 4) } p 0x0A02 .done []).settle })
    ∧ (cmdKeyBindSet.accepts d p → exec (.keyBindSet p) s = .next { s with dev := (Dev.answer
      (d.setFlow (ent b 16 2) fun f => { f with keySrc := ent b 18 1 }) p 0x0A05 .done []).settle })
    ∧ (cmdSessionKeySet.accepts d p → exec (.sessionKeySet p) s = .next { s with dev := (Dev.answer
      (d.setTerm (ent b 16 2) fun t => { t with session := some (slice b 4 16) }) p 0x0A06 .done []).settle }))
  ∧ (∀ (p : Packet) (s : State),
    let d := s.dev
    let b := Packet.bytes p
    let i := ent b 16 4
    let k := d.key i
    let recent := match k.lastUp with
      | some f => decide (d.time.frame < f + 16)
      | none => false
    (cmdKeyStatus.accepts d p → exec (.keyStatus p) s = .next { s with dev := (d.answer p 0x0A07 .done
      [b2n k.ctrOk * 2 ^ 31 + b2n k.gcmOk * 2 ^ 30 + b2n (d.slotActive i) * 2 ^ 29 + b2n (d.slotPending i) * 2 ^ 28
        + b2n k.ctrSpent * 2 ^ 27 + b2n k.gcmSpent * 2 ^ 26 + b2n recent * 2 ^ 25,
        min k.ctrCount (2 ^ 32 - 1), min k.invDown (2 ^ 32 - 1), k.invUp.getD 0]).settle })
    ∧ (cmdKeyRead.accepts d p → exec (.keyRead p) s = .next { s with dev := (Dev.answer (d.hostWrite (ent b 20 8) (k.bytes i))
        p 0x0A08 .done []).settle })
    ∧ (k.exchanged = true → slice (k.bytes i) 16 16 = List.replicate 16 0#8))

/-- 11 R272: a switch waits as the pending one of its terminal or broadcast set, and its command stays in execution; once the superframe
count has reached SFC the slot's index is active, nothing is pending, and the command answers with the low word of the frame instant and
the slot; before, nothing changes. 11 R275: an exchange sends Key_Control for the standby index, up to three times 32 frames apart; a
Key_Report whose MIC passes is copied as every upstream PLOAM message (03 R100), puts the key that it brings into the standby slot's CTR
part and answers with the slot, one whose MIC fails is counted; the keys are those of the channel's mode (R276); after the third attempt
the command answers 0xFFFF_FFFF. -/
def Obligations.KeySwitchesAndExchanges : Prop :=
  (∀ (p : Packet) (s : State) (t : Nat) (x : Term) (e : Exec) (i sfc : Nat),
    let d := s.dev
    let b := Packet.bytes p
    let k := ent b 16 4
    let ahead := d.sfcAhead sfc
    let answered := fun (u : Dev) =>
      (u.finish e .done [((d.time.frame : Int) + ahead).toNat * 125000 % 2 ^ 32, i]).settle
    (cmdKeySwitch.accepts d p → k < 49152 → exec (.keySwitch p) s = .next { s with dev :=
      (((d.fetch p).setTerm (k / 2) fun y => { y with keySwitch := some (k, ent b 20 4) }).park (cmdKeySwitch.entry d p)).settle })
    ∧ (cmdKeySwitch.accepts d p → 49152 ≤ k → let n := (k - 49152) / 2
      exec (.keySwitch p) s = .next { s with dev := (Dev.park
      { d.fetch p with bsets := d.bsets.put n ((d.bset n).1, some (k, ent b 20 4)) } (cmdKeySwitch.entry d p)).settle })
    ∧ (d.sys.inReset = false → ahead ≤ 0 →
      (d.execs.find? fun e => e.op == 0x0A03 && e.started && e.armed.isNone && ent e.par 16 4 == i) = some e →
      (i < 49152 → i / 2 = t → d.term? t = some x → x.keySwitch = some (i, sfc) → exec (.keySwitchApply i) s = .next { s with dev :=
        (answered (d.setTerm t fun y => { y with activeKey := i % 2, keySwitch := none })) })
      ∧ (49152 ≤ i → let n := (i - 49152) / 2
        (d.bset n).2 = some (i, sfc) → exec (.keySwitchApply i) s = .next { s with dev :=
        (answered { d with bsets := d.bsets.put n (i % 2, none) }) }))
    ∧ (d.sys.inReset = false → d.slotSwitch? i = some (i, sfc) → 0 < ahead → exec (.keySwitchApply i) s = .next { s with dev := d.settle }))
  ∧ (∀ (p : Packet) (s : State) (h : Nat) (t : Term) (msg : Bytes) (consumer : Nat) (e : Exec),
    let d := s.dev
    let b := Packet.bytes p
    let mode := d.mode t.chan
    let session := t.session.getD (Config.defaultSession mode)
    let passes := Config.ploamMicOk (Config.derivePloamIk mode session) msg
    let told := d.copyPloam t.chan h t.burstTime msg consumer
    let brought : KeySlot := { ctr := true, ctrKey := Config.unwrapKey (Config.deriveKek mode session) msg, exchanged := true }
    let due := d.goTime ((e.aux.getD 1 0 + 32) * 125000)
    (cmdKeyExchange.accepts d p → d.term? (ent b 16 2) = some t → exec (.keyExchange p) s = .next { s with dev :=
      (((d.fetch p).ploam t.chan plKey t.onu [1 - t.activeKey]).park { cmdKeyExchange.entry d p with aux := [1, d.time.frame] }).settle })
    ∧ (d.sys.inReset = false → d.term? h = some t → d.exchange? h = some e →
      (exec (.keyReportReceive h msg consumer) s = .next { s with dev :=
        (if passes then Dev.finish { told with keys := told.keys.put (2 * h + (1 - t.activeKey)) brought } e .done [2 * h + (1 - t.activeKey)]
        else d.count (0x10000 + 16 * h + 1)).settle })
      ∧ (e.aux.getD 0 0 < 3 → exec (.keyExchangeRetry h) s = .next { s with dev :=
        ((due.ploam t.chan plKey t.onu [1 - t.activeKey]).park { e with aux := [e.aux.getD 0 0 + 1, due.time.frame] }).settle })
      ∧ (3 ≤ e.aux.getD 0 0 → exec (.keyExchangeRetry h) s = .next { s with dev := (due.finish e .done [0xFFFFFFFF]).settle }))
    ∧ (d.sys.inReset = false → d.term? h = some t → d.exchange? h = none →
      exec (.keyReportReceive h msg consumer) s = .next { s with dev :=
        (if passes then told else d.count (0x10000 + 16 * h + 1)).settle }
      ∧ exec (.keyExchangeRetry h) s = .next { s with dev := d.settle }))

/-- 11 R279: the replay check of sealed frames upstream. An INV that has been accepted is never fresh again, nor is one that was not fresh
before; one above the highest is, and one more than 64 below the highest is not. The highest stands among the INVs seen, which an empty slot
holds and every accepted frame keeps. -/
def Obligations.SealedFramesAreNotReplayed : Prop := ∀ (k : KeySlot) (inv old frame top : Nat),
  let good := fun (k : KeySlot) => ∀ top, k.invUp = some top → k.seen.contains top = true
  good {} ∧ (good k → good (k.accept inv frame))
  ∧ (k.accept inv frame).fresh inv = false
  ∧ (good k → k.fresh old = false → (k.accept inv frame).fresh old = false)
  ∧ (k.invUp = some top → top < inv → k.fresh inv = true)
  ∧ (k.invUp = some top → inv + 64 < top → k.fresh inv = false)

/-! ### Group 0x0B: the time base (12) -/

/-- 12 R286, R304: the time base is continuous through a change of RATE, and `edgeAt` is the first counter value at which it reads at least
an instant, for every RATE within 100 ppm. -/
def Obligations.TimeBaseRunsWithoutJumps : Prop := ∀ (t : Time) (rate : Int) (c x : Nat),
  -1759218604 ≤ t.rate → t.rate ≤ 1759218604 →
  t.raw c = t.t0 + ((c : Int) - t.c0) * 2 ^ 32 + ((c : Int) - t.c0) * t.rate / 2 ^ 12
  ∧ (t.setRate rate).raw t.c = t.raw t.c
  ∧ t.raw c < t.raw (c + 1)
  ∧ ((x : Int) * 2 ^ 32 ≤ t.raw c ↔ t.edgeAt x ≤ c)

/-- 12 R288, R291, R292, R309, R297, R298, R300: the settings of the time base: role and frequency source, a time set at once or at the next
PPS_IN edge within 2 s, RATE, a time-event input's edges, the ring of egress timestamps, and PTP on a port. 12 R295, R306, R301, R309: what
the reads of the time base answer. -/
def Obligations.TimeCommandsAct : Prop :=
  (∀ (p : Packet) (s : State) (dom seq v due : Nat) (e : Exec),
    let d := s.dev
    let b := Packet.bytes p
    let other := fun (t : Time) => if t.freq = ent b 17 1 then t else { t with pllLocked := false, pllLost := false }
    let fresh := fun (t : Time) => if t.role = ent b 16 1 then t else { t with
      ppsLocked := false, ppsLost := false, ptpLocked := false, ptpLost := false, folLocked := false, wasLocked := false, good := 0
      source := none, hops := 0, master := none, offset := 0, paths := [], conflict := false
      ptp := t.ptp.mapAll fun _ (q : PtpPort) => { q with slave := false, locked := false } }
    let port : PtpPort := { profile := ent b 17 1, flags := BitVec.ofNat 8 (ent b 18 1), domain := ent b 19 1
                            asym := BitVec.ofNat 32 (ent b 20 4), prio := ent b 25 1, addr := ent b 28 16 }
    let synce : SyncePort := { d.time.synce.getD (ent b 16 1) { flags := 0#8, prio := 0, sentQl := d.qlFor (ent b 16 1) } with
                               flags := BitVec.ofNat 8 (ent b 17 1), prio := ent b 18 1 }
    (cmdTimeSourceSet.accepts d p → exec (.timeSourceSet p) s = .next { s with dev := (Dev.finish
      ((d.fetch p).setTime fun t => Time.noteLock { fresh (other t) with
        role := ent b 16 1, freq := ent b 17 1, clockClass := ent b 18 1 }).esmcUpdate
      (cmdTimeSourceSet.entry d p) .done []).settle })
    ∧ (cmdTimeSet.accepts d p → ent b 24 1 = 1 → exec (.timeSet p) s = .next { s with dev := (Dev.finish
      (((d.fetch p).setStep (ent b 16 8)).setTime fun t => { t with stepped := true }) (cmdTimeSet.entry d p) .done []).settle })
    ∧ (cmdTimeSet.accepts d p → ent b 24 1 = 0 → exec (.timeSet p) s = .next { s with dev := (((d.fetch p).setTime fun t => { t with
      waiting := some (p.ring, (d.dom p.ring).nextSeq, ent b 16 8, d.time.c + 2000000000) }).park (cmdTimeSet.entry d p)).settle })
    ∧ (d.sys.inReset = false → d.time.waiting = some (dom, seq, v, due) → d.exec? dom seq = some e →
      exec .timeSetTimeout s = .next { s with dev :=
        (((d.goCounter due).setTime fun t => { t with waiting := none }).finish e .late []).settle })
    ∧ (d.sys.inReset = false → d.time.waiting = none → exec .timeSetTimeout s = .next { s with dev := d.settle })
    ∧ (cmdTeInputSet.accepts d p → exec (.teInputSet p) s = .next { s with dev := (Dev.answer
      (d.setTime fun t => { t with inputs := t.inputs.put (ent b 16 1) { t.inputs.getD (ent b 16 1) {} with mask := BitVec.ofNat 2 (ent b 17 1) } })
      p 0x0B0C .done []).settle })
    ∧ (cmdTsRingSet.accepts d p → exec (.tsRingSet p) s = .next { s with dev := (Dev.answer
      (d.setTime fun t => { t with tsRing := if ent b 16 2 = 0xFFFF then none else some (ent b 16 2) }) p 0x0B0E .done []).settle })
    ∧ (cmdPtpPortSet.accepts d p → exec (.ptpPortSet p) s = .next { s with dev := (Dev.answer
      (d.setTime fun t => { t with ptp := if ent b 17 1 = 0 then t.ptp.del (ent b 16 1) else t.ptp.put (ent b 16 1) port })
      p 0x0B09 .done []).settle })
    ∧ (cmdSyncePortSet.accepts d p → exec (.syncePortSet p) s = .next { s with dev := (Dev.finish
      ((d.fetch p).setTime fun t => { t with synce := t.synce.put (ent b 16 1) synce }).esmcUpdate
      (cmdSyncePortSet.entry d p) .done []).settle }))
  ∧ (∀ (p : Packet) (s : State),
    let d := s.dev
    let b := Packet.bytes p
    let t := d.time
    let x := d.beacon (ent b 16 2)
    let n := (t.frame : Int) + d.sfDiff (ent b 20 4)
    let at' := wrap 64 (n * 125000 + (if d.mode (ent b 16 2) = 2 then 1728 else 1344) - d.launchAdvance (ent b 16 2 / 4))
    let pin := ent b 16 1
    let caps := (t.inputs.getD pin {}).caps
    (cmdTimeStatus.accepts d p → exec (.timeStatus p) s = .next { s with dev := (d.answer p 0x0B05 .done
      [t.role * 2 ^ 24 + t.state * 65536 + t.hops * 256 + b2n (t.isSet || t.folLocked), d.timeSource, wrap 32 t.offset, wrap 32 t.rate]).settle })
    ∧ (cmdBeaconStatus.accepts d p → exec (.beaconStatus p) s = .next { s with dev := (d.answer p 0x0B08 .done
      [x.state.code * 2 ^ 24 + (d.execs.filter fun e => e.armed == some (ent b 16 2)).length, x.instant / 2 ^ 32, x.instant % 2 ^ 32,
        min x.firings (2 ^ 32 - 1)]).settle })
    ∧ (cmdTodQuery.accepts d p → exec (.todQuery p) s = .next { s with dev := (d.answer p 0x0B0B .done
      [at' / 2 ^ 32, at' % 2 ^ 32, 0, wrap 32 n]).settle })
    ∧ (cmdTeCaptureRead.accepts d p → exec (.teCaptureRead p) s = .next { s with dev := (Dev.answer
      ((d.hostWrite (ent b 24 8) (caps.flatMap (fun c => beBytes 1 pin ++ beBytes 1 (if c.rising then 1 else 2) ++ [0#8, 0#8]
          ++ beBytes 4 c.frac ++ beBytes 8 c.ns) ++ List.replicate 16 0#8)).setTime fun t =>
        { t with inputs := t.inputs.adjust pin fun (q : TeInput) => { q with caps := [] } })
      p 0x0B0D .done [caps.length]).settle }))

/-- 12 R293, R302, R303, R305, R310: a re-base is scheduled at the first frame instant at least 250 µs away, announced to the followers,
and at its instant steps the time base and answers; a beacon is set, or cleared with what is armed on it; a pulse and PPS_OUT fall at their
ends, and PPS_OUT rises at a whole second once the time is set. 12 R289, R290, R436; 17 R409: a follower notes a time word's path and
follows the word of its source, within the RATE limit, and passes an announced re-base on; after 1,000 measurements within the limit it
locks, and steps to the master's time at the first lock; a master's PLL locks; a lost source of each kind leaves the average frequency in
force where the device steers RATE, and a follower that keeps a path goes on with it. -/
def Obligations.TimeEventsAct : Prop :=
  (∀ (p : Packet) (s : State) (r : Rebase) (q : Nat × Nat × Nat) (pin : Nat),
    let d := s.dev
    let b := Packet.bytes p
    let f := d.frameAfter 250000
    let step := signed 64 (ent b 16 8)
    let told := d.timeLinks.foldl (fun (d : Dev) l => d.sendControl l 4 [(f : Int), step]) (d.fetch p)
    let t := (d.goTime r.at_).setTime fun t => { t with rebases := t.rebases.erase r }
    let beacon : Beacon := { state := if ent b 18 1 = 0 then .set else .armed, pinAct := ent b 18 1, pin := ent b 19 1, width := ent b 20 4
                             instant := ent b 24 8, base := ent b 24 8, period := ent b 32 8 }
    (cmdTimeRebase.accepts d p → exec (.timeRebase p) s = .next { s with dev := ((told.setTime fun t => { t with
      rebases := t.rebases ++ [(⟨p.ring, (d.dom p.ring).nextSeq, f, step, false⟩ : Rebase)] }).park (cmdTimeRebase.entry d p)).settle })
    ∧ (d.sys.inReset = false → d.time.nextRebase = some r →
      (r.remote = true → exec .rebaseStep s = .next { s with dev := (t.rebaseNow r.step).1.settle })
      ∧ (r.remote = false → exec .rebaseStep s = .next { s with dev := ((t.rebaseNow r.step).1.finishId r.dom r.seq .done
          [r.at_ / 2 ^ 32, r.at_ % 2 ^ 32, (t.rebaseNow r.step).2, 0]).settle }))
    ∧ (cmdBeaconSet.accepts d p → exec (.beaconSet p) s = .next { s with dev := (Dev.answer
      (d.setTime fun t => { t with beacons := t.beacons.put (ent b 16 2) beacon }) p 0x0B06 .done []).settle })
    ∧ (cmdBeaconClear.accepts d p → exec (.beaconClear p) s = .next { s with dev := ((((d.fetch p).setTime fun t =>
      { t with beacons := t.beacons.del (ent b 16 2) }).endAll (fun x => x.armed == some (ent b 16 2)
        && !(x.dom == p.ring && x.seq == (d.dom p.ring).nextSeq)) .abandoned).finish (cmdBeaconClear.entry d p) .done []).settle })
    ∧ (d.sys.inReset = false →
      ((d.time.pulses.find? fun x => x.1 == pin) = some q → exec (.pulseEnd pin) s = .next { s with dev :=
        ((d.goCounter q.2.2).setTime fun t => { t with pulses := t.pulses.erase q, teHigh := t.teHigh.filter fun n => n != pin }).settle })
      ∧ (d.time.ppsHigh = false → d.time.isSet = true → exec .ppsOutRise s = .next { s with dev :=
        ((d.goTime (roundUp d.now 1000000000)).setTime fun t => { t with ppsHigh := true, ppsFall := t.c + 100000000 }).settle })
      ∧ (d.time.isSet = false → exec .ppsOutRise s = .next { s with dev := d.settle })
      ∧ (d.time.ppsHigh = true → exec .ppsOutFall s = .next { s with dev :=
        ((d.goCounter d.time.ppsFall).setTime fun t => { t with ppsHigh := false }).settle })))
  ∧ (∀ (s : State) (rx : TimeWordRx) (avg : Int) (v : Nat),
    let d := s.dev
    let heard := d.setTime fun t => Time.reselect { t with paths := (t.paths.filter fun p => p.1 != rx.lane) ++ [(rx.lane, rx.hops, rx.master)] }
    let inside := decide (rx.offset.natAbs ≤ 128 * heard.time.hops)
    let clamp := fun (r : Int) => max (-1759218604 : Int) (min r 1759218604)
    let locked := fun (d : Dev) => (d.setTime fun t => { t with folLocked := true, folEver := true, wasLocked := true, isSet := true }).esmcUpdate
    let steered := heard.setTime fun t =>
      { t.setRate (clamp rx.rate) with offset := rx.offset, good := if inside then t.good + 1 else 0, folLocked := t.folLocked && inside }
    let relayed := fun (f : Nat) (step : Int) => (steered.timeLinks.filter fun l => l != rx.lane).foldl (fun (d : Dev) l =>
      d.sendControl l 4 [(f : Int), step]) steered
    let kept := fun (t : Time) => if t.role = 0 ∨ t.role = 4 then t else t.setRate (clamp avg)
    let lost := fun (l : Nat) => Time.reselect { d.time with paths := d.time.paths.filter fun p => p.1 != l }
    d.sys.inReset = false →
    (d.time.role = 3 → d.isGroup rx.lane [2, 3] = true → d.portUp rx.lane = true →
      (heard.time.source ≠ some rx.lane → exec (.timeWord rx) s = .next { s with dev := heard.settle })
      ∧ (heard.time.source = some rx.lane → rx.step = none → exec (.timeWord rx) s = .next { s with dev := steered.settle })
      ∧ (∀ f step, heard.time.source = some rx.lane → rx.step = some (f, step) → exec (.timeWord rx) s = .next { s with dev :=
        ((relayed f step).setTime fun t => { t with rebases := t.rebases ++ [(⟨0, 0, f, step, true⟩ : Rebase)] }).settle }))
    ∧ (d.time.role = 3 → 1000 ≤ d.time.good → d.time.folLocked = false →
      (d.time.folEver = false → exec (.followerLock v) s = .next { s with dev := (locked (d.setStep v)).settle })
      ∧ (d.time.folEver = true → exec (.followerLock v) s = .next { s with dev := (locked d).settle }))
    ∧ (d.time.role ≠ 3 → d.time.freq ≠ 2 → exec .timeBasePllLock s = .next { s with dev :=
      (d.setTime fun t => Time.noteLock { t with pllLocked := true, pllLost := false }).esmcUpdate.settle })
    ∧ (d.time.role ≠ 3 → d.time.freq = 2 → d.synceSource.isSome = true → exec .timeBasePllLock s = .next { s with dev :=
      (d.setTime fun t => Time.noteLock { t with pllLocked := true, pllLost := false }).esmcUpdate.settle })
    ∧ (d.time.pllLocked = true → exec (.timeSourceLoss .frequency avg) s = .next { s with dev :=
      (d.setTime fun t => { kept t with pllLocked := false, pllLost := true }).esmcUpdate.settle })
    ∧ (d.time.role = 2 → d.time.ppsLocked = true → exec (.timeSourceLoss .pps avg) s = .next { s with dev :=
      (d.setTime fun t => { t.setRate (clamp avg) with ppsLocked := false, ppsLost := true }).esmcUpdate.settle })
    ∧ (d.time.role = 1 → d.time.ptpLocked = true → exec (.timeSourceLoss .ptpMaster avg) s = .next { s with dev :=
      (d.setTime fun t => { t.setRate (clamp avg) with ptpLocked := false, ptpLost := true }).esmcUpdate.settle })
    ∧ (∀ l, d.time.role = 3 →
      ((lost l).source = none → d.time.source.isSome = true → exec (.timeSourceLoss (.path l) avg) s = .next { s with dev :=
        (d.setTime fun _ => (lost l).setRate (clamp avg)).esmcUpdate.settle })
      ∧ ((lost l).source.isSome = true → exec (.timeSourceLoss (.path l) avg) s = .next { s with dev :=
        (d.setTime fun _ => lost l).esmcUpdate.settle })))

/-- 12 R291, R292, R295, R309: an edge on an enabled input is captured 4 ns before its latch, or counted where the list of 64 is full; a
rising PPS_IN edge applies a waiting TIME_SET and answers it, and disciplines a grandmaster. 12 R296, R298, R299, R300: a PTP message moves
its port's state, an event message is timestamped, and a slave port, which only a ROLE 1 device has and no master-only port is, steers the
device; the Keepers' own message, with the fields that the port's settings give it, joins the port's Lantern queue, one at a time and of at
most 256 bytes; an ESMC PDU is heard, one is sent, and a wait to restore ends. -/
def Obligations.EdgesAndPortProtocolsAct : Prop :=
  (∀ (s : State) (pin frac : Nat) (rising locked : Bool) (rate offset : Int) (dom seq v due : Nat) (set : Dev),
    let d := s.dev
    let q : TeInput := d.time.inputs.getD pin {}
    let on := q.mask.getLsbD (if rising then 0 else 1)
    let pps := d.capture 8 true frac
    d.sys.inReset = false →
    (pin < 8 →
      (on = true → q.caps.length < 64 → exec (.teInEdge pin rising frac) s = .next { s with dev := (d.setTime fun t =>
        { t with inputs := t.inputs.put pin { q with caps := q.caps ++ [⟨rising, wrap 64 ((d.now : Int) - 4), frac % 2 ^ 32⟩] } }).settle })
      ∧ (on = true → 64 ≤ q.caps.length → exec (.teInEdge pin rising frac) s = .next { s with dev := (d.count (0x3E00 + 32 + pin)).settle })
      ∧ (on = false → exec (.teInEdge pin rising frac) s = .next { s with dev := d.settle }))
    ∧ (exec (.ppsInEdge false frac rate offset locked) s = .next { s with dev := (d.capture 8 false frac).settle })
    ∧ ((pps.time.waiting = none ∧ set = pps)
        ∨ (pps.time.waiting = some (dom, seq, v, due)
          ∧ set = ((pps.setStep v).setTime fun t => { t with stepped := true, waiting := none }).finishId dom seq .done []) →
      (set.time.role ≠ 2 → exec (.ppsInEdge true frac rate offset locked) s = .next { s with dev := set.settle })
      ∧ (set.time.role = 2 → exec (.ppsInEdge true frac rate offset locked) s = .next { s with dev := (set.setTime fun t =>
        Time.noteLock { t.setRate (max (-1759218604 : Int) (min rate 1759218604)) with
          offset, ppsLocked := locked, ppsLost := t.ppsLost && !locked }).esmcUpdate.settle })))
  ∧ (∀ (s : State) (rx : PtpRx) (q : PtpPort) (y : SyncePort) (l ql : Nat) (data : Bytes) (due : Nat),
    let d := s.dev
    let slave := rx.slave && d.time.role == 1 && !bit q.flags.toNat 1
    let heard : PtpPort := { q with slave, locked := slave && rx.locked
                                    rxStamp := if ptpEvent q rx.data then some (d.stamp (d.laneFix false rx.lane), d.frac) else q.rxStamp }
    let moved := d.setTime fun t => { t with ptp := t.ptp.put rx.lane heard }
    let sent := ((d.port l).queue 0).frames.any fun x => x.src == srcKeepers
    d.sys.inReset = false →
    (d.time.ptp.find? rx.lane = some q →
      (slave = true → exec (.ptpMessage rx) s = .next { s with dev :=
        (moved.setTime fun t => { t.setRate (max (-1759218604 : Int) (min rx.rate 1759218604)) with
          ptpLocked := rx.locked, ptpLost := t.ptpLost && !rx.locked, offset := rx.offset }).esmcUpdate.settle })
      ∧ (slave = false → d.time.role = 1 → moved.time.slaves = [] → exec (.ptpMessage rx) s = .next { s with dev :=
        (moved.setTime fun t => { t with ptpLocked := false, ptpLost := false }).esmcUpdate.settle })
      ∧ (slave = false → d.time.role ≠ 1 ∨ moved.time.slaves ≠ [] → exec (.ptpMessage rx) s = .next { s with dev :=
        moved.esmcUpdate.settle }))
    ∧ (d.time.ptp.find? l = some q →
      (data.length ≤ 256 → sent = false → exec (.ptpMessageSend l data) s = .next { s with dev :=
        (d.enqueuePort l { data := d.ptpFill q data, src := srcKeepers, cls := 0, slot := d.runSlot, itime := d.now }).settle })
      ∧ (256 < data.length ∨ sent = true → exec (.ptpMessageSend l data) s = .next { s with dev := d.settle }))
    ∧ (d.time.synce.find? l = some y → bit y.flags.toNat 0 = true → d.portUp l = true →
      exec (.esmcPdu l ql) s = .next { s with dev :=
        (d.setTime fun t => { t with synce := t.synce.put l (y.hear ql (d.time.c + 300300000000)) }).esmcUpdate.settle }
      ∧ exec (.esmcInformationSend l) s = .next { s with dev := ((d.emit (.esmc l (d.qlFor l) false)).setTime fun t =>
        { t with synce := t.synce.adjust l fun (z : SyncePort) => { z with sentQl := d.qlFor l } }).settle })
    ∧ (d.time.synce.find? l = some y → y.waitTo = some due → exec (.synceWaitToRestoreExpiry l) s = .next { s with dev :=
      ((d.goCounter due).setTime fun t => { t with synce := t.synce.adjust l fun (z : SyncePort) =>
        { z with waitTo := none, failed := false } }).esmcUpdate.settle }))

/-! ### Groups 0x0C and 0x0D: the TDM gateway and protection (13, 14) -/

/-- 13 R322, R324, R337, R336; 02 R46, R60: a connection buffer stages one object per connection, after emptying its page
where FLAGS says so; a page swap that passes its checks is armed on its beacon, and at that beacon moves the active page and
answers with its instant; status and bin reads answer. -/
def Obligations.GatewayCommandsAct : Prop := ∀ (p : Packet) (s : State),
  let d := s.dev
  let b := Packet.bytes p
  let page := slice b 0 1
  let conns := (List.range (field b 2 2)).map fun i => (field b (8 + 8 * i) 4, field b (12 + 8 * i) 4)
  let conn := fun (objs : List VObj) (c : Nat × Nat) =>
    if adKind c.2 = 0 then delObj objs 0x0C02 (page ++ beBytes 4 c.1)
    else putObj objs ⟨0x0C02, page ++ beBytes 4 c.1, page ++ [0#8, 0#8, 0#8] ++ beBytes 4 c.1 ++ beBytes 4 c.2⟩
  let h := d.hl (adLane (ent b 16 4))
  let under := if adAu (ent b 16 4) = 0 then 0 else d.tdm.defects.getD (noMon (ent b 16 4)) 0
  let i := ent b 20 1
  let bin := fun (k : Nat × Nat) => ((((d.tdm.pms.find? fun q => q.1 == k).map Prod.snd).getD (freshPm d.now)).bin i).bytes (i == 0 || i == 17)
  (cmdTsiConnSet.accepts d p → exec (.tsiConnSet p) s = .next { s with dev := (d.staged p 0x0C02 fun objs => conns.foldl conn
    (if bit (field b 1 1) 0 then objs.filter fun o => !(o.op == 0x0C02 && slice o.key 0 1 == page) else objs)).settle })
  ∧ (d.serves → p.ring ≤ 15 → Packet.fence p = false → Packet.dry p = false → Packet.atBeacon p = true →
    cmdTsiPageSwap.refuse (d.fetch p) (cmdTsiPageSwap.entry d p) = none → exec (.tsiPageSwap p) s = .next { s with dev :=
      ((((d.fetch p).reply p.ring p.tag 0x0C03 .armed d.now []).park { cmdTsiPageSwap.entry d p with
        armed := some p.beacon.toNat, replied := true }).rearm p.beacon.toNat).settle })
  ∧ (∀ (e : Exec) (instant : Nat), cmdTsiPageSwap.forbid (d.park { e with armed := none, stamp := some instant })
      { e with armed := none, stamp := some instant } = none →
    fireCmd cmdTsiPageSwap e instant d = Dev.finish { d.park { e with armed := none, stamp := some instant } with
      tdm := { d.tdm with page := ent e.par 16 1 } } { e with armed := none, stamp := some instant } .done [instant % 2 ^ 32, ent e.par 16 1])
  ∧ (cmdHeritageStatus.accepts d p → exec (.heritageStatus p) s = .next { s with dev := (d.answer p 0x0C05 .done
    [h.defects.toNat + under, min (d.tdm.slips.getD (adLane (ent b 16 4)) 0) (2 ^ 32 - 1), min h.fill (2 ^ 32 - 1),
      h.s1.toNat + 256 * b2n (d.j0Equal (adLane (ent b 16 4)))]).settle })
  ∧ (∀ k, cmdTdmPmRead.accepts d p → d.entityOf (ent b 16 4) = some k → exec (.tdmPmRead p) s = .next { s with dev :=
      (Dev.answer (d.hostWrite (ent b 24 8)
        (if adKind (ent b 16 4) = 1 ∧ adAu (ent b 16 4) = 0 then bin (k.1, 1) ++ bin k else bin k)) p 0x0C06 .done []).settle })

/-- 13 R314, R315: a lane in frame leaves it at the fourth consecutive errored pattern, and an unframed one is in frame at the first
candidate that recurs; out of frame, the first search after a loss tests the old position first. 13 R316, R319: a frame in alignment has its
section overhead compared and counted and its AU pointers heard, and enters the slip buffer of four; a lane that is off does nothing. 13
R318: a defect bit is set where its condition of Table 13-5 shows, and cleared where it has gone. 13 R333 to R335: at the end of a second
exactly the monitored entities take what the second held; the end of a bin closes every current bin that it ends and keeps it as the newest
of at most 16, or as the previous day. -/
def Obligations.HeritageLanesAndPerformance : Prop :=
  (∀ (s : State) (rx : HeritageRx) (h : Heritage) (sent : Bytes) (k a i : Nat),
    let d := s.dev
    let l := rx.lane
    let x := hlane d.objs l
    let n := lineN x.mode
    let bs := slice rx.bits 0 (2430 * n)
    let two := slice (d.hl l).prev 0 (2430 * n) ++ bs
    let al := ((d.hl l).align n two).elapse bs
    let aligned := d.setHl l fun _ => al
    let f := frameAt n two al.position
    let sec := al.section x f (scramble n f)
    let counted := (((aligned.setHl l fun _ => sec.1).countBy (0x4200 + 16 * l + 1) sec.2.b1).countBy (0x4200 + 16 * l + 2) sec.2.b2).countBy
      (0x4200 + 16 * l + 3) sec.2.m1
    let heard := counted.hearAus x l (scramble n f)
    (h.inFrame = true → framed k sent h.position = false → h.badRun = 3 → (h.align k sent).inFrame = false
      ∧ (h.align k sent).defects.getLsbD 1 = true)
    ∧ (h.inFrame = true → framed k sent h.position = false → h.badRun < 3 → (h.align k sent).inFrame = true)
    ∧ (h.inFrame = true → framed k sent h.position = true → h.align k sent = { h with badRun := 0 })
    ∧ (∀ c, h.inFrame = false → (h.candidate.find? fun c => (frameStarts k sent).contains c) = some c →
      (h.align k sent).inFrame = true ∧ (h.align k sent).position = c ∧ (h.align k sent).defects.getLsbD 1 = false)
    ∧ (h.inFrame = false → (∀ c ∈ h.candidate, c ∉ frameStarts k sent) → (h.align k sent).inFrame = false
      ∧ (∀ c, c ∈ (h.align k sent).candidate ↔ c ∈ frameStarts k sent)
      ∧ (h.left = true → h.position ∈ frameStarts k sent → (h.align k sent).candidate.head? = some h.position))
    ∧ (h.store rx.payload [] i).buffer.length ≤ 4
    ∧ (d.sys.inReset = false →
      (x.mode = 0 → exec (.heritageFrameReceive rx) s = .next { s with dev := d.settle })
      ∧ (x.mode ≠ 0 → l ≤ 31 → al.inFrame = false → exec (.heritageFrameReceive rx) s = .next { s with dev := aligned.settle })
      ∧ (x.mode ≠ 0 → l ≤ 31 → al.inFrame = true → exec (.heritageFrameReceive rx) s = .next { s with dev :=
        (heard.1.setHl l fun h => h.store rx.payload heard.2 heard.1.time.c).settle })
      ∧ (adKind a = 1 → (hlane d.objs (adLane a)).mode ≠ 0 → i ≤ 14 → i < 8 ∨ (hlane d.objs (adLane a)).has a = true →
        exec (.heritageDefectDetect a i) s = .next { s with dev := (if d.defectShows (noMon a) i then d.setDefect a i true else d).settle })
      ∧ (adKind a = 1 → i ≤ 14 →
        exec (.heritageDefectClear a i) s = .next { s with dev := (if d.defectGone (noMon a) i then d.setDefect a i false else d).settle })))
  ∧ (∀ (s : State) (day : Bool),
    let d := s.dev
    let second := d.goTime (roundUp d.now 1000000000)
    let old := fun (e : Nat × Nat) => ((d.tdm.pms.find? fun q => q.1 == e).map Prod.snd).getD (freshPm second.now)
    let len := if day then 86400000000000 else 900000000000
    let t := d.goTime (roundUp (d.now - 10000000000) len + 10000000000)
    d.sys.inReset = false →
    (∃ u, exec .pmSecond s = .next u ∧ u.dev.time = second.time
      ∧ u.dev.tdm.pms = second.monitored.map (fun e => (e, (old e).second (second.sesThreshold e) (second.now / 1000000000 - 1)
        (second.secondOf e).1 (second.secondOf e).2))
      ∧ (∀ l h, u.dev.tdm.lanes.find? l = some h → h.nearRs = 0 ∧ h.nearMs = 0 ∧ h.farMs = 0 ∧ h.seen = h.defects)
      ∧ u.dev.out = d.out ∧ u.dev.tdm.circs = d.tdm.circs ∧ u.dev.tdm.defects = d.tdm.defects)
    ∧ exec (.pmBinClose day) s = .next { s with dev := (Dev.settle { t with tdm := { t.tdm with pms := t.tdm.pms.map fun q => (q.1,
        if day then (if q.2.cur24.start < t.now - 10000000000 then
          { q.2 with prev24 := q.2.cur24, cur24 := { start := t.now - 10000000000, suspect := q.2.next24 }, next24 := false } else q.2)
        else if q.2.cur15.start < t.now - 10000000000 then
          { q.2 with prev15 := (q.2.cur15 :: q.2.prev15).take 16
                     cur15 := { start := t.now - 10000000000, suspect := q.2.next15 }, next15 := false } else q.2) } }) })

/-- 14 R339, R358, R363, R355, R364, R357: the settings of protection and of shadow ranging, a manual claim, isolation, and the reads. A
claim set and an isolation after slot 0 of a frame's round (R344) leave that round's claim and drive as they were. -/
def Obligations.ProtectionCommandsAct : Prop := ∀ (p : Packet) (s : State),
  let d := s.dev
  let b := Packet.bytes p
  let t := ent b 16 1
  let q := d.prot
  let delta := signed 32 (ent b 20 4)
  let round := d.now / 125000 + (if d.now % 125000 < 100000 then 1 else 2)
  (cmdProtSet.accepts d p → exec (.protSet p) s = .next { s with dev := (Dev.answer { d with prot := { q with
      mode := t, partner := ent b 17 1, tlane := ent b 18 1, aprio := ent b 19 1, prio := ent b 19 1
      wtr := if ent b 20 2 = 0 then 300 else ent b 20 2, rbeacon := ent b 22 2 } } p 0x0D01 .done []).settle })
  ∧ (cmdClaimSet.accepts d p → exec (.claimSet p) s = .next { s with dev := (Dev.answer (d.latchRound.setProt fun q => { q with prio := t })
      p 0x0D02 .done [round * 125000 % 2 ^ 32]).settle })
  ∧ (cmdProtIsolate.accepts d p → t = 1 → exec (.protIsolate p) s = .next { s with dev := ((((d.fetch p).latchRound.setProt fun q =>
      { q with isolated := true, wtrRunning := false, wtrDue := none, wtrOver := false }).finish
      (cmdProtIsolate.entry d p) .done []).roleFrom d.role).settle })
  ∧ (cmdProtIsolate.accepts d p → t = 0 → exec (.protIsolate p) s = .next { s with dev := ((((d.fetch p).latchRound.setProt fun q =>
      { q with isolated := false, wtrRunning := true, wtrDue := none, wtrOver := false, restoreArmed := false }).finish
      (cmdProtIsolate.entry d p) .done []).roleFrom d.role).settle })
  ∧ (d.isProtected = true → d.latchRound.roundClaim = d.roundClaim
    ∧ (100000 ≤ d.now % 125000 → ∃ n, d.latchRound.prot.latched = some (n, d.roundClaim) ∧ n = d.now / 125000))
  ∧ (d.prot.latched = none → d.roundClaim = (d.claim, !q.isolated))
  ∧ (∀ n c drives, d.prot.latched = some (n, c, drives) → d.roundClaim = if n = d.now / 125000 then (c, drives) else (d.claim, !q.isolated))
  ∧ (cmdShadowSet.accepts d p → (d.shadow t).delta0 = delta → exec (.shadowSet p) s = .next { s with dev := (Dev.answer
    (d.setShadow t fun x => { x with ratio := signed 32 (ent b 24 4), asym := signed 32 (ent b 28 4) }) p 0x0D04 .done []).settle })
  ∧ (cmdShadowSet.accepts d p → (d.shadow t).delta0 ≠ delta → exec (.shadowSet p) s = .next { s with dev := (Dev.answer
    (d.setShadow t fun x => { x with delta0 := delta, state := if d.follows then 1 else 0, samples := [], taken := 0, missed := 0
                                     ratio := signed 32 (ent b 24 4), asym := signed 32 (ent b 28 4) }) p 0x0D04 .done []).settle })
  ∧ (cmdShadowRead.accepts d p → exec (.shadowRead p) s = .next { s with dev := (d.answer p 0x0D05 .done
    [(d.shadow t).state, wrap 32 (d.shadow t).ro, wrap 32 (d.shadow t).advance, min (d.shadow t).taken (2 ^ 32 - 1)]).settle })
  ∧ (cmdProtStatus.accepts d p → exec (.protStatus p) s = .next { s with dev := (d.answer p 0x0D06 .done
    [d.role * 2 ^ 24 + 128 * b2n q.okA + 64 * b2n q.okB + 32 * b2n q.wonA + 16 * b2n q.wonB + 8 * b2n d.tenderUp + 4 * b2n d.mirrorOk
      + 2 * b2n q.transmitting, d.claim % 2 ^ 32, d.partnerClaim % 2 ^ 32, d.wtrLeft]).settle })

/-- 14 R345: a line is faulted when SYNC samples high or RELEASE samples low, whoever drives; a device wins a line that is not faulted and
that it has not lost by slot 32, having lost it where it released in a claim slot and sampled low. Table 14-7: a device in the round drives
slot 0, and each slot of a set bit of its claim until it has lost; never slot 33; one that does not arbitrate drives nothing. So of two
devices on a line that samples low where either drives, the one with the higher claim wins and the other does not. -/
def Obligations.HigherClaimWinsTheLine : Prop := ∀ (own partner : Nat) (drives : Bool) (slots : List Bool),
  let low := fun (i : Nat) => slots.getD i false
  let lost := fun (n : Nat) => ∃ i < n, low (i + 1) = true ∧ own.testBit (31 - i) = false
  ((lineRound drives own slots).1 = true ↔ low 0 = true ∧ low 33 = false)
  ∧ ((lineRound drives own slots).2 = true ↔ drives = true ∧ low 0 = true ∧ low 33 = false ∧ ¬ lost 32)
  ∧ (lineDrives drives own slots).length = 34
  ∧ (∀ i, i < 34 → ((lineDrives drives own slots).getD i false = true ↔
      drives = true ∧ (i = 0 ∨ (i ≤ 32 ∧ own.testBit (32 - i) = true ∧ ¬ lost (i - 1)))))
  ∧ (own < 2 ^ 32 → partner < 2 ^ 32 → own ≠ partner →
    (∀ i, i < 34 → low i = ((lineDrives true own slots).getD i false || (lineDrives true partner slots).getD i false)) →
    lineRound true own slots = (true, decide (partner < own)) ∧ lineRound true partner slots = (true, decide (own < partner)))

/-- 14 R343, R344, R346, R353, R357, R359, R362: what the events of protection do: a fall of HEALTH enters the round, the device's drives
leave, both lines' results and the decision for the next frame stand at slot 33, and an active that has lost acts there; a late refresh
claims with HEALTH 0; the oldest held frame of a standby expires after 500 µs; shadow ranging locks on 16 samples within 8 bits and is lost
after 64 bursts; the wait-to-restore timer ends and tries its beacon, again after a second. 14 R341, R346, R350, R352, R359, R360: over the
tender link, a status word is noted, and stops transmission with the claim alarm where both devices have transmitted; a standby applies each
record or part of one, and an incoming device the record of the ending frame, whole or in its parts, and then the closing entries; with the
link down neither does anything. That Keepers that hang stay so is the model's choice (DESIGN CHOICE, log entry 178). -/
def Obligations.ProtectionEventsAct : Prop :=
  (∀ (s : State) (la lb : List Bool) (tree due : Nat) (x : Nat × Frame) (later : List (Nat × Frame)),
    let d := s.dev
    let c := d.enterFalls.roundClaim
    let shown := d.enterFalls.emit (.claim (lineDrives c.2 c.1 la) (lineDrives c.2 c.1 lb))
    let t := shown.goTime (shown.time.frame * 125000 + 116500)
    let a := lineRound c.2 c.1 la
    let b := lineRound c.2 c.1 lb
    let r := { t with prot := { t.prot with okA := a.1, wonA := a.2, okB := b.1, wonB := b.2 } }
    let l := (d.shadow tree).samples.take 16
    let spread := l.foldl max (l.headD 0) - l.foldl min (l.headD 0)
    d.sys.inReset = false →
    (d.isProtected = false → exec (.claimRound la lb) s = .next { s with dev := d.settle })
    ∧ (d.isProtected = true → exec (.claimRound la lb) s = .next { s with dev :=
      ((Dev.startLosing { r with prot := { r.prot with decided := r.decideTransmit } }).goTime (t.time.frame * 125000 + 117000)).settle })
    ∧ (d.isProtected = true → d.prot.hung = false → d.enterFalls = { d with prot := { d.prot with
        health := (d.prot.health / 4096 &&& d.healthNow / 4096) * 4096 + d.prot.health % 4096 } })
    ∧ exec .healthRefreshTimeout s = .next { s with dev := (d.latchRound.setProt fun p => { p with health := 0, hung := true }).settle }
    ∧ (d.prot.held = [] → exec .heldFrameExpiry s = .next { s with dev := d.settle })
    ∧ (sortBy (fun h : Nat × Frame => h.2.itime) d.prot.held = x :: later → d.standby = true → exec .heldFrameExpiry s = .next { s with dev :=
      ((((d.goTime (x.2.itime + 500001)).freeFrame x.2).count (0x3E00 + 8)).setProt fun p => { p with held := p.held.erase x }).settle })
    ∧ (d.follows = true → (d.shadow tree).state = 1 → l.length = 16 → spread ≤ ((8 * d.bitUnits tree : Nat) : Int) →
      exec (.shadowLock tree) s = .next { s with dev :=
        (d.setShadow tree fun x => Shadow.track { x with state := 2, taken := 0, missed := 0 }).settle })
    ∧ (d.follows = true → (d.shadow tree).state = 1 → ((8 * d.bitUnits tree : Nat) : Int) < spread →
      exec (.shadowLock tree) s = .next { s with dev := d.settle })
    ∧ ((d.shadow tree).state = 2 → 64 ≤ (d.shadow tree).missed → exec (.shadowLoss tree) s = .next { s with dev :=
      (d.setShadow tree fun x => { x with state := 1, samples := [], missed := 0 }).settle })
    ∧ (d.prot.wtrDue = some due → d.prot.wtrRunning = true → d.prot.wtrOver = false → exec .waitToRestoreExpiry s = .next { s with dev :=
      ((d.goCounter due).setProt fun p => { p with wtrOver := true }).tryRestore.settle })
    ∧ (d.prot.wtrRunning = true → d.prot.wtrOver = true → d.restoring = false → exec .rbeaconRetry s = .next { s with dev :=
      ((d.goCounter (d.prot.triedAt + 1000000000)).count (0x3E00 + 9)).tryRestore.settle }))
  ∧ (∀ (s : State) (w : StatusWord) (r : MirrorRecord),
    let d := s.dev
    let noted := d.latchRound.setProt fun p => { p with status := some w }
    let cut := (r.frame + 1) * 125000 = d.prot.cutAt
    d.sys.inReset = false →
    (d.tenderUp = false → exec (.tenderStatusWord w) s = .next { s with dev := d.settle }
      ∧ exec (.mirrorRecordReceive r) s = .next { s with dev := d.settle })
    ∧ (d.tenderUp = true → w.transmitted = false → exec (.tenderStatusWord w) s = .next { s with dev := noted.settle })
    ∧ (d.tenderUp = true → w.transmitted = true → d.prot.sentLast = true → d.prot.status ≠ none → exec (.tenderStatusWord w) s = .next
      { s with dev := (((noted.alarm alClaim).setProt fun p => { p with transmitting := false }).roleFrom d.role).settle })
    ∧ (d.tenderUp = true → w.transmitted = true → d.prot.sentLast = false → d.prot.status = none → d.role = 2 →
      exec (.tenderStatusWord w) s = .next { s with dev := ((noted.setProt Prot.wait).roleFrom 2).settle })
    ∧ (d.tenderUp = true → d.follows = true →
      (r.part = 0 → exec (.mirrorRecordReceive r) s = .next { s with dev := (d.applyRecord r).relink.settle })
      ∧ (r.part = 1 → exec (.mirrorRecordReceive r) s = .next { s with dev := (d.applyChannelPart r).settle })
      ∧ (r.part = 2 → exec (.mirrorRecordReceive r) s = .next { s with dev := (d.applyFlowPart r).settle })
      ∧ (r.part = 3 → exec (.mirrorRecordReceive r) s = .next { s with dev := ((d.applyHeader r).applyChanges r).relink.settle })
      ∧ (3 < r.part → exec (.mirrorRecordReceive r) s = .next { s with dev := d.settle }))
    ∧ (d.tenderUp = true → d.follows = false → d.prot.transmitting = true →
      (d.prot.cutover = .incoming → r.part = 0 → cut → exec (.mirrorRecordReceive r) s = .next { s with dev :=
        (((d.applyRecord r).setProt fun p => { p with cutover := .closing }).applyClosings r.closing).settle })
      ∧ (d.prot.cutover = .incoming → r.part = 1 → cut → exec (.mirrorRecordReceive r) s = .next { s with dev :=
        ((d.applyChannelPart r).setProt fun p => { p with cutover := .opened }).settle })
      ∧ (d.prot.cutover = .opened → r.part = 2 → cut → exec (.mirrorRecordReceive r) s = .next { s with dev :=
        (((d.applyFlowPart r).setProt fun p => { p with cutover := .closing }).applyClosings r.closing).settle })
      ∧ (r.part = 3 → cut → exec (.mirrorRecordReceive r) s = .next { s with dev := ((d.applyHeader r).applyChanges r).settle })
      ∧ (d.prot.cutover = .closing → r.part = 4 → exec (.mirrorRecordReceive r) s = .next { s with dev :=
        (d.applyClosings r.closing).settle }))
    ∧ (d.follows = false → d.prot.transmitting = false → exec (.mirrorRecordReceive r) s = .next { s with dev := d.settle }))

/-! ### Group 0x0E: lanes and ports (15) -/

/-- 15 R383, R370, R373, R374, R375, R377; 02 R71: disabling a group drains it, enabling one starts its lanes again; an equaliser entry is
written, and RESULT0 says whether the lane is in service; trainings start from the table's taps and stay in execution, as eye scans do; a
pattern writes the directions that it names, and a USER generator sends the pattern's levels. 15 R376, R384: what the reads of lanes
answer: a stopped checker reads 0; the state, the taps and the precoding of a lane; the state of a group, its preemption, its link-down
events and its last change. What only the pins show (errors met, wake energy, corrections) is open (log entry 50). -/
def Obligations.LaneCommandsAct : Prop :=
  (∀ (p : Packet) (s : State) (q : Group),
    let d := s.dev
    let b := Packet.bytes p
    let k := ent b 16 1
    let l := ent b 18 2
    let eq : EqEntry := { cm1 := BitVec.ofNat 8 (ent b 20 1), c0 := BitVec.ofNat 8 (ent b 21 1), cp1 := BitVec.ofNat 8 (ent b 22 1)
                          ctle := BitVec.ofNat 8 (ent b 23 1), gain := BitVec.ofNat 8 (ent b 24 1) }
    let set := d.setLane k l fun x => { x with
      generator := if bit (ent b 17 1) 0 then ent b 20 1 else x.generator
      inject := if bit (ent b 17 1) 0 then ent b 21 1 else x.inject
      interval := if bit (ent b 17 1) 0 then ent b 22 1 else x.interval
      checker := if bit (ent b 17 1) 1 then ent b 20 1 else x.checker
      userPat := if bit (ent b 17 1) 0 ∨ bit (ent b 17 1) 1 then ent b 24 8 else x.userPat }
    (cmdPortDisable.accepts d p → d.group? k = some q → exec (.portDisable p) s = .next { s with dev := (((d.fetch p).setPort k fun x =>
      { x with disabled := some (q.kind, q.width), hold := none }).startDrain (cmdPortDisable.entry d p) (.port k) (ent b 20 4)).settle })
    ∧ (cmdPortEnable.accepts d p → d.group? k = some q → exec (.portEnable p) s = .next { s with dev := (Dev.finish
      (((d.fetch p).setPort k fun x => { x with disabled := none }).startLanes q) (cmdPortEnable.entry d p) .done []).settle })
    ∧ (cmdEqTableWrite.accepts d p → exec (.eqTableWrite p) s = .next { s with dev := (Dev.answer
      { d with eqTable := d.eqTable.put (k * 16384 + ent b 17 1 * 1024 + l) eq } p 0x0E04 .done
        [if d.laneFree (if k = 5 then 4 else k) l then 0 else 1]).settle })
    ∧ (cmdLaneTrain.accepts d p → d.group? k = some q → exec (.laneTrain p) s = .next { s with dev :=
      ((((d.fetch p).seedLanes q).setLane 1 k fun x => { x with training := true }).park (cmdLaneTrain.entry d p)).settle })
    ∧ (cmdTreeTrain.accepts d p → exec (.treeTrain p) s = .next { s with dev :=
      (((d.fetch p).setTree k fun x => { x with training := true }).park (cmdTreeTrain.entry d p)).settle })
    ∧ (cmdEyeScan.accepts d p → exec (.eyeScan p) s = .next { s with dev :=
      (((d.fetch p).setLane k l fun x => { x with scanning := true }).park (cmdEyeScan.entry d p)).settle })
    ∧ (cmdPatternSet.accepts d p → exec (.patternSet p) s = .next { s with dev := (Dev.answer (if bit (ent b 17 1) 0 ∧ ent b 20 1 = 11 then
      set.emit (.pattern k l (d.patternLevels k l (ent b 24 8) (ent b 21 1 == 1))) else set) p 0x0E07 .done []).settle })
    ∧ (∀ i, i < q.width → ((d.seedLanes q).lane 1 (q.lane + i)).taps = d.eqTable.getD (16384 + q.rate * 1024 + q.lane + i) {}
        ∧ ((d.seedLanes q).lane 1 (q.lane + i)).blockLock = false))
  ∧ (∀ (p : Packet) (s : State),
    let d := s.dev
    let b := Packet.bytes p
    let k := ent b 16 1
    let l := ent b 18 2
    let x := d.lane k l
    (cmdPatternRead.accepts d p → x.checker = 0 → exec (.patternRead p) s = .next { s with dev := (d.answer p 0x0E08 .done [0, 0, 0, 0]).settle })
    ∧ (cmdPatternRead.accepts d p → x.checker ≠ 0 → ∃ r : List Nat, r.length = 4 ∧ (∀ v ∈ r, v < 2 ^ 32) ∧ exec (.patternRead p) s = .next
      { s with dev := (Dev.answer { d with freeCount := d.freeCount + 4 } p 0x0E08 .done r).settle })
    ∧ (cmdLaneStatus.accepts d p → ∃ wake < 2, ∃ fixes < 2 ^ 32, (d.laneDormant k l = false → wake = 0) ∧ (d.laneFec k l = false → fixes = 0) ∧
      exec (.laneStatus p) s = .next { s with dev := (Dev.answer { d with freeCount := d.freeCount + 2 } p 0x0E0A .done
        [d.laneState k l * 2 ^ 24 + 4 * wake + 2 * b2n x.blockLock + b2n x.fecAlign,
          x.taps.cm1.toNat * 65536 + x.taps.c0.toNat * 256 + x.taps.cp1.toNat, x.taps.ctle.toNat % 32 * 256 + x.precode % 16, fixes]).settle })
    ∧ (cmdPortStatus.accepts d p → ∃ lost < 2 ^ 32, (d.laneFec 1 k = false → lost = 0) ∧ exec (.portStatus p) s = .next { s with dev :=
        (Dev.answer { d with freeCount := d.freeCount + 1 } p 0x0E0B .done
          [(if d.draining (.port k) then 3 else if (d.port k).disabled.isSome then 4 else (d.port k).link) * 2 ^ 24 + (d.port k).preempt,
            min (d.port k).downs (2 ^ 32 - 1), (d.port k).changed % 2 ^ 32, lost]).settle }))

/-- 15 R373, R374, R377: the end of a training or a scan answers its command and ends the lane's or the tree's test; a tree keeps which
modes it is trained for, its cold presets and its transmit taps; with no such command in execution nothing changes. 15 R371, R372, R380; 17
R411: a port's link comes up with its lanes, which keep what their training has left; a Brynlink or tender link needs the peer's identity
as well, and is held down by one that conflicts; a link that goes down counts, recovers after RECOV ms, and loses its peer; a failed
training is counted and retried; preemption is active after its verification, or failed. -/
def Obligations.TrainingsAndLinksAct : Prop :=
  (∀ (s : State) (l us outcome : Nat) (training : List LaneTraining) (partner : Word) (failed : List (Nat × BitVec 4))
      (presets taps : List (Nat × Nat)) (kind : Nat) (errors : List Nat) (cut : Bool) (e : Exec),
    let d := s.dev
    let modes := ent e.par 17 1
    let trained := fun (old : BitVec 2) (m : Nat) =>
      if bit modes m then failed.all fun f => f.1 != m + 1 || f.2 == 0#4 else old.getLsbD m
    let points := fun (e : Exec) => scanPoints (ent e.par 20 1) (ent e.par 21 1) errors
    let shown := fun (e : Exec) => Out.hostWrite (ent e.par 24 8) ((points e).flatMap pointBytes ++ List.replicate 8 0#8)
    let bad := (failed.filter fun f => bit modes (f.1 - 1) && f.1 != 0).foldl (fun a f => a ||| f.2) (0#4)
    d.sys.inReset = false →
    (∀ q, d.running? 0x0E05 l = some e → d.group? l = some q →
      (let t := d.trainLanes q true training
      let own := (t.lane 1 l).taps
      exec (.laneTrainComplete l training partner us outcome) s = .next { s with dev :=
        ((t.setLane 1 l fun x => { x with training := false }).finish e .done
          [own.cm1.toNat * 65536 + own.c0.toNat * 256 + own.cp1.toNat, partner.toNat % 2 ^ 24, us % 2 ^ 32,
            if outcome < 2 then outcome else 2]).settle }))
    ∧ (d.running? 0x0E05 l = none → exec (.laneTrainComplete l training partner us outcome) s = .next { s with dev := d.settle })
    ∧ (d.running? 0x0E06 l = some e → exec (.treeTrainComplete l failed presets taps) s = .next { s with dev :=
      ((d.setTree l fun x => { x with
        training := false, trained := BitVec.ofNat 2 (b2n (trained x.trained 0) + 2 * b2n (trained x.trained 1))
        presets := presets.foldl (fun t p => Tbl.put t p.1 p.2) x.presets
        taps := (taps.filter fun p => bit modes (p.1 % 4 - 1)).foldl (fun t p => Tbl.put t p.1 p.2) x.taps }).finish e .done
        [b2n (trained (d.tree l).trained 0) + 2 * b2n (trained (d.tree l).trained 1), bad.toNat]).settle })
    ∧ (d.running? 0x0E06 l = none → exec (.treeTrainComplete l failed presets taps) s = .next { s with dev := d.settle })
    ∧ (d.execs.find? (fun x => x.op == 0x0E09 && x.started && x.armed.isNone && ent x.par 16 1 == kind && ent x.par 18 2 == l) = some e →
      ∃ r1 < 2 ^ 32, ∃ r2 < 2 ^ 32,
        (127 % ent e.par 21 1 = 0 → r1 = widest ((points e).filter (fun x => x.1.2 == 0) |>.map fun x => (x.1.1, x.2)) none 0)
        ∧ (32 % ent e.par 20 1 = 0 → r2 = widest ((points e).filter (fun x => x.1.1 == 0) |>.map fun x => (x.1.2, x.2)) none 0)
        ∧ exec (.eyeScanComplete kind l errors cut) s = .next { s with dev := ((Dev.setLane
            { d with freeCount := d.freeCount + 2, out := d.out ++ [shown e] } kind l fun x => { x with scanning := false }).finish e .done
            [(points e).length, r1, r2, b2n cut]).settle }))
  ∧ (∀ (s : State) (l id : Nat) (serial : BitVec 64) (cause : LinkCause) (q : Group) (training : List LaneTraining)
      (due : Nat) (ok : Bool),
    let d := s.dev
    let back := d.time.c + q.recov * 1000000
    let up := (if (d.port l).link = 5 then d.trainLanes q q.train training else d).lockLanes q true
    d.sys.inReset = false →
    (d.linkGroup? l = some q →
      (d.portUp l = true → exec (.linkUp l training) s = .next { s with dev := d.settle }
        ∧ exec (.brynlinkIdentity l id serial) s = .next { s with dev := d.settle }
        ∧ exec (.linkRecoveryRetry l) s = .next { s with dev := d.settle })
      ∧ (d.portUp l = false → q.kind = 1 → exec (.linkUp l training) s = .next { s with dev := (up.bringUp q).settle })
      ∧ (d.portUp l = false → q.kind ≠ 1 → (d.port l).peer = none → exec (.linkUp l training) s = .next { s with dev :=
        (up.emit (.control l 3 [d.sys.devId.toNat, Config.serial.toNat])).settle })
      ∧ (d.portUp l = false → q.kind = 2 ∨ q.kind = 3 → d.idConflict l (id % 8) = true → exec (.brynlinkIdentity l id serial) s = .next
        { s with dev := (d.setPort l fun x => { x with
          link := 1, changed := d.now, peer := none, conflict := some (id % 8), retryAt := some (x.retryAt.getD back) }).settle })
      ∧ (d.portUp l = false → q.kind = 2 ∨ q.kind = 3 → d.idConflict l (id % 8) = false → (d.lane 1 l).blockLock = false →
        exec (.brynlinkIdentity l id serial) s = .next { s with dev :=
          (d.setPort l fun x => { x with peer := some (id % 8, serial.toNat), conflict := none }).settle })
      ∧ (d.portUp l = false → (d.port l).retryAt = some due → exec (.linkRecoveryRetry l) s = .next { s with dev :=
        (((d.goCounter due).setPort l fun x => { x with peer := none }).startLanes q).settle }))
    ∧ (d.group? l = some q → q.kind = 1 → exec (.linkDown l .timeWords) s = .next { s with dev := d.settle })
    ∧ (d.group? l = some q → cause ≠ .timeWords ∨ q.kind ≠ 1 → d.portUp l = true → exec (.linkDown l cause) s = .next { s with dev :=
      (Dev.linkLost ((if cause = .lossOfLock then d.lockLanes q false else d).setPort l fun x =>
        { x with peer := none, preempt := 0, link := 1, downs := x.downs + 1, changed := d.now, retryAt := some back }) q).settle })
    ∧ (d.groupOfLane? l = some q → q.train = true → d.groupLit q = true → d.portUp q.lane = false → exec (.trainingTimeout l) s = .next
      { s with dev := ((d.count (ctrLane l 8)).setPort q.lane fun x =>
        { x with link := 1, changed := d.now, retryAt := some back }).settle })
    ∧ (d.group? l = some q → q.kind = 1 → q.preempt = true → q.noVerify = false → d.portUp l = true →
      exec (.preemptionVerifyEnd l ok) s = .next { s with dev := (d.setPort l fun x => { x with preempt := if ok then 2 else 3 }).settle }))

/-! ### Group 0x0F: counters and health (16) -/

/-- 16 R387, R389, R390: a range of counters reads as the values of one instant, 8 bytes each; a clear zeroes its range and no other
counter, and no chain bit; a chain write sets the bits of its range and no other, and no counter. 16 R387, R388: a counter that is counted
up by one, below its end, rises by one, and no other counter moves; at its end, it stays and sets the saturation alarm where its chain bit
is clear. -/
def Obligations.CounterCommandsAct : Prop :=
  (∀ (p : Packet) (s : State),
    let d := s.dev
    let b := Packet.bytes p
    let first := ent b 16 4
    let n := ent b 20 4
    (cmdCounterRead.accepts d p → exec (.counterRead p) s = .next { s with dev := (Dev.answer (d.hostWrite (ent b 24 8)
      ((List.range (ent b 20 2)).flatMap fun i => beBytes 8 (d.counter (first + i)))) p 0x0F01 .done [d.now / 2 ^ 32, d.now % 2 ^ 32]).settle })
    ∧ (cmdCounterClear.accepts d p → ∃ t, exec (.counterClear p) s = .next { s with dev := (Dev.answer { d with health := t } p 0x0F03 .done []).settle }
      ∧ t = { d.health with counters := t.counters }
      ∧ ∀ k, Tbl.getD t.counters k 0 = if first ≤ k ∧ k < first + n then 0 else Tbl.getD d.health.counters k 0)
    ∧ (cmdCounterChainSet.accepts d p → ∃ t, exec (.counterChainSet p) s = .next { s with dev := (Dev.answer { d with health := t } p 0x0F02 .done []).settle }
      ∧ t = { d.health with chain := t.chain }
      ∧ ∀ k, Tbl.getD t.chain k false = if first ≤ k ∧ k < first + n then decide (ent b 24 1 = 1) else Tbl.getD d.health.chain k false))
  ∧ (∀ (d : Dev) (i k : Nat),
    i < 2097151 →
    (d.counter i < 2 ^ 64 - 1 → (d.count i).counter i = d.counter i + 1 ∧ (k ≠ i → (d.count i).counter k = d.counter k))
    ∧ (d.counter i = 2 ^ 64 - 1 → Tbl.getD d.health.chain i false = false → (d.count i).counter i = 2 ^ 64 - 1 ∧ (d.count i).counter k = d.counter k
      ∧ 15 ∈ ((d.count i).dom 0).sticky)
    ∧ (d.counter i = 2 ^ 64 - 1 → Tbl.getD d.health.chain i false = true → d.counter (i + 1) < 2 ^ 64 - 1 →
      (d.count i).counter i = 0 ∧ (d.count i).counter (i + 1) = d.counter (i + 1) + 1))

/-- 16 R391, R392, R393: a dump set is written or removed; a started dump takes every counter of its set behind the header's place and stays
in execution until its header is written, which then answers with its number; a dump that comes while one is written is skipped, counted and
alarmed. A periodic dump comes at the next whole multiple of PERIOD. -/
def Obligations.DumpsAreTaken : Prop := ∀ (p : Packet) (s : State) (n : Nat) (x : DumpSet) (r : DumpRun),
  let d := s.dev
  let b := Packet.bytes p
  let k := ent b 16 1
  let buf := fun (x : DumpSet) (num : Nat) => if num % 2 = 0 then x.bufA else x.bufB
  let values := fun (d : Dev) (x : DumpSet) => x.ranges.flatMap fun r => (List.range r.2).flatMap fun i => beBytes 8 (d.counter (r.1 + i))
  let begun := fun (d : Dev) (k : Nat) (x : DumpSet) (t : Nat) (who : Option (Nat × Nat)) =>
    (d.hostWrite (buf x x.next + 64) (values d x)).setDumps fun u => u.put k { x with
      next := x.next + 1, skipped := false, recovered := false
      writing := some { num := x.next, flags := b2n x.skipped + 2 * b2n x.recovered, time := t, skips := x.skips, exec := who } }
  let skipped := fun (d : Dev) (k : Nat) (x : DumpSet) => ((d.setDumps fun u => u.put k { x with
    skips := x.skips + 1, skipped := true }).count (0x3E00 + 43)).alarm 21
  let ms := x.period * 1000000
  let t := max ((d.now + ms - 1) / ms * ms) ((x.last / ms + 1) * ms)
  let header := beBytes 4 r.num ++ beBytes 1 n ++ beBytes 1 r.flags ++ [0#8, 0#8] ++ beBytes 8 r.time ++ beBytes 4 (sumBy x.ranges Prod.snd)
    ++ beBytes 4 r.skips ++ List.replicate 40 0#8
  let closed := (d.hostWrite (buf x r.num) header).setDumps fun u => u.put n { x with writing := none }
  (cmdDumpSet.accepts d p → exec (.dumpSet p) s = .next { s with dev := (Dev.answer (d.setDumps fun u =>
    if bit (field b 1 1) 0 then u.del (field b 0 1) else u.put (field b 0 1)
      { period := field b 4 4, bufA := field b 8 8, bufB := field b 16 8, last := d.now
        ranges := (List.range (field b 2 1)).map fun i => (field b (24 + 8 * i) 4, field b (28 + 8 * i) 4) }) p 0x0F04 .done []).settle })
  ∧ (cmdDumpStart.accepts d p → d.dump? k = some x → x.writing = none → exec (.dumpStart p) s = .next { s with dev :=
    (begun ((d.fetch p).park (cmdDumpStart.entry d p)) k x d.now (some (p.ring, (d.dom p.ring).nextSeq))).settle })
  ∧ (cmdDumpStart.accepts d p → d.dump? k = some x → x.writing ≠ none → exec (.dumpStart p) s = .next { s with dev :=
    ((skipped (d.fetch p) k x).finish (cmdDumpStart.entry d p) .busy []).settle })
  ∧ (d.sys.inReset = false → d.dump? n = some x →
    (x.period = 0 → exec (.dumpInstant n) s = .next { s with dev := d.settle })
    ∧ (x.period ≠ 0 → x.writing = none → exec (.dumpInstant n) s = .next { s with dev :=
      (begun (d.goTime t) n { x with last := t } t none).settle })
    ∧ (x.period ≠ 0 → x.writing ≠ none → exec (.dumpInstant n) s = .next { s with dev := (skipped (d.goTime t) n { x with last := t }).settle })
    ∧ (x.writing = some r → r.exec = none → exec (.dumpWriteComplete n) s = .next { s with dev := closed.settle })
    ∧ (∀ dom seq, x.writing = some r → r.exec = some (dom, seq) → exec (.dumpWriteComplete n) s = .next { s with dev :=
      (closed.finishId dom seq .done [r.num % 2 ^ 32]).settle }))

/-- 16 R395, R397, R399, R434: an alarm clear takes the masked sticky bits from every page; the fault log, a sensor and the life ledger read
as they stand; a loaded ledger is added to the counts since reset. -/
def Obligations.HealthCommandsAct : Prop := ∀ (p : Packet) (s : State) (v : Int),
  let d := s.dev
  let b := Packet.bytes p
  let l := d.health.ledger
  let loaded : Ledger := { equiv := l.equiv + field b 8 8 * 2 ^ 32, powered := l.powered + field b 16 8, hot95 := l.hot95 + field b 24 8
                           hot100 := l.hot100 + field b 32 8, highest := max l.highest (signed 16 (field b 40 2))
                           trips := l.trips + field b 42 2, powerUps := l.powerUps + field b 44 4 + 1, loaded := true }
  (cmdAlarmClear.accepts d p → ∃ t, exec (.alarmClear p) s = .next t
    ∧ (∀ n a, a ∈ (t.dev.dom n).sticky ↔ a ∈ (d.dom n).sticky ∧ bit (ent b 16 32) a = false)
    ∧ t.dev.health = d.health ∧ t.dev.out = d.out ++ [d.replyOut p 0x0F06 .done []])
  ∧ (cmdFaultLogRead.accepts d p → exec (.faultLogRead p) s = .next { s with dev := (Dev.answer (d.hostWrite (ent b 16 8)
    (d.health.log.flatMap (fun r => beBytes 4 r.index ++ beBytes 1 r.cls ++ [r.detail, 0#8, 0#8] ++ beBytes 8 r.time)
      ++ List.replicate 16 0#8)) p 0x0F07 .done [d.health.log.length, min d.health.logged (2 ^ 32 - 1), 0, 0]).settle })
  ∧ (cmdSensorRead.accepts d p → d.health.sensors.find? (ent b 16 1) = some v → exec (.sensorRead p) s = .next { s with dev :=
    (d.answer p 0x0F08 .done [wrap 32 v, wrap 32 (Tbl.getD d.health.highs (ent b 16 1) v)]).settle })
  ∧ (cmdLedgerRead.accepts d p → ∃ body : Bytes, body.length = 60 ∧ slice body 0 8 = beBytes 8 Config.serial.toNat
    ∧ slice body 16 8 = beBytes 8 l.powered ∧ slice body 24 8 = beBytes 8 l.hot95 ∧ slice body 32 8 = beBytes 8 l.hot100
    ∧ slice body 40 2 = beBytes 2 (wrap 16 l.highest) ∧ slice body 48 12 = List.replicate 12 0#8
    ∧ exec (.ledgerRead p) s = .next { s with dev := (Dev.answer (d.hostWrite (ent b 16 8) (body ++ beBytes 4 (crc32c body).toNat))
        p 0x0F09 .done []).settle })
  ∧ (d.serves → Packet.plain p → p.ring = 0 → p.domain = 0#8 → p.tver = 0#32 → d.sys.boot = 3 → b.length = 64 → entryForm p true false = true →
    zeros 0 b [(48, 59)] = true → field b 60 4 = (crc32c (slice b 0 60)).toNat → d.vers.committed = false → l.loaded = false →
    exec (.ledgerLoad p) s = .next { s with dev := (if field b 0 8 = Config.serial.toNat then
      Dev.answer { d with health := { d.health with ledger := loaded } } p 0x0F0A .done []
      else d.answer p 0x0F0A .badParam []).settle })

/-- 16 R396, R397, R398, Table 16-6; 09 R236: a second's readings go to the sensors and the ledger, and 105 °C trips; a corrected error is
counted; a contained one takes its entry, and is logged, counted and alarmed; a recoverable one ends every command `LOST`, and keeps the
counters, with the outputs dark; a second within 1 s, or a trip, is fatal. -/
def Obligations.FaultsAreHandledByClass : Prop := ∀ (s : State) (readings : List Int) (hot : Int) (detail : Byte) (index stack : Nat) (thermal : Bool),
  let d := s.dev
  let h := d.health
  let l := h.ledger
  let shown := { h with
    sensors := ((List.range 14).zip readings).foldl (fun t r => Tbl.put t r.1 r.2) h.sensors
    highs := ((List.range 14).zip readings).foldl (fun t r => Tbl.put t r.1 (max (Tbl.getD t r.1 r.2) r.2)) h.highs
    ledger := { l with equiv := l.equiv + accelFactor hot, powered := l.powered + 1, hot95 := l.hot95 + (if 1520 ≤ hot then 1 else 0)
                       hot100 := l.hot100 + (if 1600 ≤ hot then 1 else 0), highest := max l.highest hot } }
  let n := if h.correctedSec = d.now / 1000000000 then h.corrected + 1 else 1
  let counted := Dev.count { d with health := { h with corrected := n, correctedSec := d.now / 1000000000 } } (0x3E00 + 41)
  let tripped := fun (d : Dev) => { d with
    sys := { d.sys with fatal := true, dark := true }, prot := { d.prot with health := 0, hung := true }
    health := { d.health with ledger := { d.health.ledger with trips := d.health.ledger.trips + 1 } } }
  let soon := d.sys.recoveredAt.any fun c => decide (d.time.c ≤ c + 1000000000)
  let logged := fun (d : Dev) (cls : Nat) => { d with health := { d.health with
    log := (d.health.log ++ [(⟨index % 2 ^ 32, cls, detail, d.now⟩ : FaultRec)]).drop (d.health.log.length + 1 - 64)
    logged := d.health.logged + 1 } }
  d.sys.inReset = false →
  ((readings.take 8).max? = some hot → hot < 1680 → exec (.ledgerTick readings) s = .next { s with dev := (Dev.settle { d with health := shown }) })
  ∧ ((readings.take 8).max? = some hot → 1680 ≤ hot → d.sys.fatal = false → exec (.ledgerTick readings) s = .next { s with dev :=
    (tripped { d with health := shown }).settle })
  ∧ (exec .correctedMemoryError s = .next { s with dev := (if 1000 < n then counted.alarm 22 else counted).settle })
  ∧ (∀ u, d.contained? detail index = some u → exec (.containedFault detail index) s = .next { s with dev :=
    (((logged u 2).count (0x3E00 + 42)).alarm 16).settle })
  ∧ (d.contained? 0x10#8 index = some { d with terms := d.terms.del index } ∧ d.contained? 0x15#8 index = some { d with meters := d.meters.del index }
    ∧ d.contained? 0x13#8 index = some { d with fwd := { d.fwd with slots := d.fwd.slots.del index } }
    ∧ d.contained? 0x14#8 index = some { d with cls := { d.cls with sub := d.cls.sub.del index } }
    ∧ d.contained? 0x16#8 index = some { d with sw := { d.sw with repl := d.sw.repl.del index } })
  ∧ (d.contained? detail index = none → exec (.containedFault detail index) s = .next { s with dev := d.settle })
  ∧ (d.sys.fatal = false → 0x30 ≤ detail.toNat → detail.toNat ≤ 0x35 → soon = true → exec (.recoverableFault detail index) s = .next { s with dev :=
    (Dev.settle { d with sys := { d.sys with fatal := true, dark := true }, prot := { d.prot with health := 0, hung := true } }) })
  ∧ (d.sys.fatal = false → 0x30 ≤ detail.toNat → detail.toNat ≤ 0x35 → soon = false → ∃ t, exec (.recoverableFault detail index) s = .next t
    ∧ t.dev.execs = [] ∧ t.dev.sys.dark = true ∧ t.dev.sys.recoveredAt = some d.time.c ∧ t.dev.health.log = (logged d 3).health.log
    ∧ t.dev.health.chain = h.chain ∧ t.dev.health.ledger = l ∧ t.dev.keys = [] ∧ t.dev.terms = [] ∧ t.dev.flows = []
    ∧ t.dev.vers.openNum = 0 ∧ t.dev.vers.highest = d.vers.highest ∧ t.dev.time.rate = d.time.rate ∧ t.dev.time.c = d.time.c
    ∧ (∀ k, (d.dom k).enable = (t.dev.dom k).enable ∧ (t.dev.dom k).consumer = (d.dom k).consumer))
  ∧ (d.reading = true → ∃ t, exec (.deepBufferReadLate stack) s = .next t ∧ exec (.recoverableFault 0x34#8 (stack % 2 * 2 ^ 31)) s = .next t)
  ∧ (d.reading = false → exec (.deepBufferReadLate stack) s = .next { s with dev := d.settle })
  ∧ (thermal = true → d.sys.fatal = false → exec (.fatalFault thermal) s = .next { s with dev := (tripped d).settle })
  ∧ (thermal = false → soon = true → exec (.fatalFault thermal) s = .next { s with dev :=
    (Dev.settle { d with sys := { d.sys with fatal := true, dark := true }, prot := { d.prot with health := 0, hung := true } }) })

/-! ### Reset and boot (17, 18) -/

/-- 18 R423 to R425, 17 R400, R401, R403: a reset pulse of 1 µs or more, or an undervoltage as long, puts every register at its reset value
and leaves the device in reset, where it stays until the release samples the straps; the boot ROM starts the image that it reads from the
flash, or reports state 2. What has left the device, the levels at TREE_LOS and the waiting commands are not the device's (DESIGN CHOICE,
log entry 3). Whether an image's header is good is the image's own. -/
def Obligations.ResetAndRelease : Prop := ∀ (s : State) (ns mv : Nat) (io sel : Bool) (id : BitVec 3) (image : Bytes) (n : Nat) (crc : Word),
  let d := s.dev
  let limit := if io then 1600 else 700
  let bytes := slice image 0 n
  let inReset := fun (t : State) => t.pending = s.pending ∧ t.dev.sys = { Dev.reset.sys with inReset := true } ∧ t.dev.doms = Dev.reset.doms
    ∧ t.dev.vers = Dev.reset.vers ∧ t.dev.execs = [] ∧ t.dev.terms = [] ∧ t.dev.keys = [] ∧ t.dev.time = Dev.reset.time ∧ t.dev.tdm = Dev.reset.tdm
    ∧ t.dev.health = Dev.reset.health ∧ t.dev.prot = Dev.reset.prot ∧ t.dev.ports = [] ∧ t.dev.flows = [] ∧ t.dev.fwd = Dev.reset.fwd ∧ t.dev.out = d.out
    ∧ ∀ k, k < 48 → (t.dev.tree k).losPin = (d.tree k).losPin
  (1000 ≤ ns → ∃ t, exec (.resetAssert ns) s = .next t ∧ inReset t)
  ∧ (ns < 1000 → exec (.resetAssert ns) s = .next { s with dev := d.settle })
  ∧ (1000 ≤ ns → mv < limit → ∃ t, exec (.supplyUndervoltage io mv ns) s = .next t ∧ inReset t)
  ∧ (ns < 1000 ∨ limit ≤ mv → exec (.supplyUndervoltage io mv ns) s = .next { s with dev := d.settle })
  ∧ (d.sys.inReset = true → exec (.resetRelease id sel) s = .next { s with dev := (Dev.settle { d with
      sys := { d.sys with inReset := false, devId := id, bootSel := sel, boot := if sel then 1 else 0 } }) })
  ∧ (d.sys.inReset = false → exec (.resetRelease id sel) s = .next { s with dev := d.settle })
  ∧ (d.sys.inReset = false → d.sys.boot = 1 → d.sys.fwStarted = false → exec (.spiBoot image n crc) s = .next { s with dev :=
      (if 64 ≤ n ∧ n ≤ 16777216 ∧ crc32c bytes = crc ∧ Config.imageHeaderOk bytes then
        Dev.settle { d with sys := { d.sys with fwStarted := true, starting := some none, newRev := Config.imageRevision bytes } }
      else Dev.settle { d with sys := { d.sys with boot := 2 } }) })
  ∧ (d.sys.inReset = false → d.sys.boot ≠ 1 → exec (.spiBoot image n crc) s = .next { s with dev := d.settle })

/-- 18 R425, 16 Table 16-6: in reset only the pins of reset act: every other command leaves the device as it is (its pins as their rules
give them). After a fatal fault no command packet is taken. -/
def Obligations.ResetHoldsTheDevice : Prop := ∀ (i : Instr) (s : State),
  (s.dev.sys.inReset = true → (∀ ns, i ≠ .resetAssert ns) → (∀ io mv ns, i ≠ .supplyUndervoltage io mv ns) →
    (∀ id sel, i ≠ .resetRelease id sel) → exec i s = .next { s with dev := s.dev.settle })
  ∧ (s.dev.sys.fatal = true → commandOf i ≠ none → exec i s = .next { s with dev := s.dev.settle })

/-! ### The block as a whole -/

/-- A step takes the command at the front of the queue: it is that command's effect on the state with the rest of the queue. -/
def Obligations.StepRunsTheFrontCommand : Prop := ∀ (c : Instr) (rest : List Instr) (s : State),
  step { s with pending := c :: rest } = exec c { s with pending := rest }

/-- 12 R285: on an empty queue one edge of the 1 GHz clock passes: the free-running count rises by one out of reset, and nothing else
changes. That the idle step is a clock edge is the model's choice (DESIGN CHOICE, log entry 2). -/
def Obligations.IdleStepIsOneClockEdge : Prop := ∀ (d : Dev),
  (d.sys.inReset = false → step { dev := d, pending := [] } = .next { dev := { d with time := { d.time with c := d.time.c + 1 } }, pending := [] })
  ∧ (d.sys.inReset = true → step { dev := d, pending := [] } = .next { dev := d, pending := [] })

/-- Every command of the table ends in a next state, in every state and with every operand; it leaves the queue of waiting commands as it
is. No command faults and none is refused. -/
def Obligations.EveryCommandCompletes : Prop := ∀ (i : Instr) (s : State),
  ∃ t, exec i s = .next t ∧ t.pending = s.pending ∧ t.dev.pins = t.dev.pinsNow

/-- 02 R45: a command packet of one of the 16 rings whose checks all pass takes effect; one that fails a check answers with the first
failing check's status and result words, and nothing else changes. An object that is draining counts the commands that its drain turns away
(02 R71). -/
def Obligations.PacketsRunOrAnswerTheirFirstFailure : Prop := ∀ (i : Instr) (c : CmdDef) (p : Packet) (s : State) (st : Status) (res : List Nat),
  let d := s.dev
  commandOf i = some (c, p) →
  (c.accepts d p → exec i s = .next { s with dev := (c.run (c.entry d p) (d.fetch p)).settle })
  ∧ (d.serves → p.ring ≤ 15 → Packet.fence p = false → c.refuse (d.fetch p) (c.entry d p) = some (st, res) → st ≠ .abandoned →
    exec i s = .next { s with dev := (d.answer p c.op st res).settle })
  ∧ (d.serves → p.ring ≤ 15 → Packet.fence p = false → Packet.dry p = false →
    c.refuse (d.fetch p) (c.entry d p) = some (.abandoned, res) →
    exec i s = .next { s with dev := (((d.fetch p).noteAbandoned (c.drainsOf (d.fetch p) (c.entry d p))).finish (c.entry d p)
      .abandoned res).settle })

/-- 02 R45 steps 1 and 4, R48, R50; 17 R401: an entry whose DOMAIN is not its ring's is `DENIED`, whatever else it holds; in boot state
domain 0 may send the boot commands alone; a tenant may send no command that the manual gives to domain 0 alone. Each answers and changes
nothing else. -/
def Obligations.UnprivilegedSendersChangeNothing : Prop := ∀ (i : Instr) (c : CmdDef) (p : Packet) (s : State),
  let d := s.dev
  commandOf i = some (c, p) → d.serves → p.ring ≤ 15 → Packet.fence p = false →
  (p.domain.toNat ≠ p.ring → exec i s = .next { s with dev := (d.answer p c.op .denied []).settle })
  ∧ (p.domain.toNat = p.ring → p.ring = 0 → d.sys.boot ≠ 3 → c.op ∉ [0x0101, 0x0102, 0x0103, 0x0104, 0x0105, 0x0111] →
    exec i s = .next { s with dev := (d.answer p c.op .conflict []).settle })
  ∧ (p.domain.toNat = p.ring → p.ring ≠ 0 → d.sys.boot ≠ 3 → c.op ∉ [0x0101, 0x0102] →
    exec i s = .next { s with dev := (d.answer p c.op .conflict []).settle })
  ∧ (p.domain.toNat = p.ring → p.ring ≠ 0 → d.sys.boot = 3 → c.tenant = none →
    exec i s = .next { s with dev := (d.answer p c.op .denied []).settle })

/-- 02 R42: a DRY command of any row that is no read answers once and changes nothing else in the device, whatever its parameters are; its
answer is neither `ARMED` nor `STAGED`. A DRY VERSION_COMMIT answers when its checks end (02 R61), and is not in this statement. -/
def Obligations.DryCommandsChangeNothing : Prop := ∀ (i : Instr) (c : CmdDef) (p : Packet) (s : State),
  let d := s.dev
  commandOf i = some (c, p) → d.serves → p.ring ≤ 15 → Packet.fence p = false → Packet.dry p = true → c.read = false → c.op ≠ 0x0202 →
  ∃ st res, exec i s = .next { s with dev := (d.answer p c.op st res).settle } ∧ st ≠ .armed ∧ st ≠ .staged

/-- 02 R42, R46, R38: an AT_BEACON command whose checks pass answers `ARMED` and waits on its beacon, and nothing takes effect; a FENCE
command that an earlier command of its ring holds up stays in execution, not started, and nothing else changes. -/
def Obligations.CommandsWaitForBeaconAndFence : Prop := ∀ (i : Instr) (c : CmdDef) (p : Packet) (s : State),
  let d := s.dev
  let e := c.entry d p
  let b := p.beacon.toNat
  commandOf i = some (c, p) → d.serves → p.ring ≤ 15 →
  (Packet.fence p = false → Packet.dry p = false → Packet.atBeacon p = true → c.op ≠ 0x0202 → c.refuse (d.fetch p) e = none →
    exec i s = .next { s with dev :=
      ((((d.fetch p).reply p.ring p.tag c.op .armed d.now []).park { e with armed := some b, replied := true }).rearm b).settle })
  ∧ (Packet.fence p = true → (∃ x ∈ d.execs, x.dom = p.ring ∧ x.seq < (d.dom p.ring).nextSeq ∧ x.replied = false) →
    exec i s = .next { s with dev := ((d.fetch p).park { e with started := false }).settle })

/-- 02 R68, 03 R79, 12 R308, 18 Table 18-6: that every output pin is at the level that the rules give it is kept by every step; so with the
outputs dark, out of reset, every TREE_TXDIS is asserted, no uplink lane is active, the heritage lanes send AIS and TE_OUT is low. -/
def Obligations.PinsFollowTheirRules : Prop := ∀ (s t : State), s.pinsHold → step s = .next t → t.pinsHold
  ∧ (t.dev.sys.inReset = false → t.dev.sys.dark = true →
    t.dev.pins.txDis = List.range 48 ∧ t.dev.pins.utxActive = [] ∧ t.dev.pins.htx = .ais
    ∧ t.dev.pins.htxActive = [] ∧ t.dev.pins.teOut = [])
  ∧ (t.dev.sys.inReset = true → t.dev.pins.txDisDriven = false ∧ t.dev.pins.teOut = [] ∧ t.dev.pins.ppsOut = false ∧ t.dev.pins.htx = .idle)

/-- What reset leaves: the pins hold; every output is dark (02 R68); boot state with IDENT_REV[7:0] at 0 (17 R401); no domain's ring is
enabled (02 Table 2-1); no version runs (02 R54); no terminal, flow, key or counter holds anything; the epoch is unpinned (02 R72); no chain
bit is set (16 R387); the ledger is not loaded (16 R399). -/
def Obligations.ResetLeaves : Prop :=
  let d := State.reset.dev
  State.reset.pinsHold ∧ State.reset.pending = [] ∧ d.sys.dark = true ∧ d.sys.boot = 0 ∧ d.sys.fwRev = 0#8 ∧ d.sys.epochPin = 0#16
  ∧ (∀ n, (d.dom n).enable = false ∧ (d.dom n).active = false ∧ (d.dom n).producer = 0#16 ∧ (d.dom n).consumer = 0#16 ∧ (d.dom n).errCount = 0)
  ∧ d.vers.running = none ∧ d.vers.openNum = 0 ∧ d.objs = [] ∧ d.terms = [] ∧ d.flows = [] ∧ d.keys = [] ∧ d.execs = []
  ∧ (∀ k, d.counter k = 0 ∧ Tbl.getD d.health.chain k false = false) ∧ d.health.ledger.loaded = false ∧ d.time.isSet = false
  ∧ d.time.teHigh = [] ∧ d.pins.txDis = List.range 48 ∧ d.pins.ppsOut = false

/-! ### Commands whose rule is stated whole -/

/-- 17 R402: `IDENTITY_READ` returns IDENT_PART, IDENT_REV and both halves of the serial number, in any state and on any domain's ring. -/
def Obligations.IdentityReadAnswersInAnyState : Prop := ∀ (p : Packet) (s : State),
  let d := s.dev
  d.serves → Packet.plain p → p.domain.toNat = p.ring → p.tver = 0#32 → entryForm p false false = true → (Packet.indirect p = true → p.buf ≠ none) →
  allZero (Packet.bytes p) = true → exec (.identityRead p) s = .next { s with dev := (d.answer p 0x0101 .done
    [Config.identPart.toNat, 256 * Config.siliconRev.toNat + d.sys.fwRev.toNat, Config.serial.toNat / 2 ^ 32, Config.serial.toNat % 2 ^ 32]).settle }

/-- 12 R292: `TIME_RATE_SET` loads RATE from bytes 16 to 19, the time base running on without a jump (R286); in any role but 2 and 4 it
answers `CONFLICT`, and with a RATE beyond ±1,759,218,604 `BAD_PARAM`, and changes nothing. -/
def Obligations.RateIsSetInRoles2And4 : Prop := ∀ (p : Packet) (s : State),
  let d := s.dev
  let b := Packet.bytes p
  let rate := signed 32 (ent b 16 4)
  d.serves → Packet.plain p → p.ring = 0 → p.domain = 0#8 → d.sys.boot = 3 → p.tver = 0#32 → entryForm p false false = true →
  (Packet.indirect p = true → p.buf ≠ none) → zeros 16 b [(20, 63)] = true →
  (-1759218604 ≤ rate → rate ≤ 1759218604 → d.time.role = 2 ∨ d.time.role = 4 → ∃ t : Time, t.rate = rate ∧ t.c = d.time.c ∧ t.raw t.c = d.time.raw t.c
    ∧ exec (.timeRateSet p) s = .next { s with dev := (Dev.finish { d.fetch p with time := t } (cmdTimeRateSet.entry d p) .done []).settle })
  ∧ (-1759218604 ≤ rate → rate ≤ 1759218604 → d.time.role ≠ 2 → d.time.role ≠ 4 →
    exec (.timeRateSet p) s = .next { s with dev := (d.answer p 0x0B03 .conflict []).settle })
  ∧ (rate < -1759218604 ∨ 1759218604 < rate → exec (.timeRateSet p) s = .next { s with dev := (d.answer p 0x0B03 .badParam []).settle })

/-- 17 R407: `BOOT_STATUS` returns the boot state, IDENT_REV, the self-test failure bits and the arrays repaired; the boot state is 0 or 1
as BOOT_SEL has the device wait for the host or read the flash, 2 once the flash's image is rejected, and 3 or 4 as the self test ends. -/
def Obligations.BootStatusReports : Prop := ∀ (p : Packet) (s : State) (id : BitVec 3) (image : Bytes) (n : Nat) (crc : Word) (f : BitVec 8)
    (repaired ms : Nat) (t : State),
  let d := s.dev
  (cmdBootStatus.accepts d p → exec (.bootStatus p) s = .next { s with dev := (d.answer p 0x0105 .done
    [d.sys.boot, 256 * Config.siliconRev.toNat + d.sys.fwRev.toNat, d.sys.selfBits.toNat, d.sys.repaired]).settle })
  ∧ (d.sys.inReset = true → exec (.resetRelease id false) s = .next t → t.dev.sys.boot = 0)
  ∧ (d.sys.inReset = true → exec (.resetRelease id true) s = .next t → t.dev.sys.boot = 1)
  ∧ (d.sys.inReset = false → d.sys.boot = 1 → d.sys.fwStarted = false → n < 64 ∨ crc32c (slice image 0 n) ≠ crc →
    exec (.spiBoot image n crc) s = .next t → t.dev.sys.boot = 2)
  ∧ (d.sys.inReset = false → d.sys.starting ≠ none → f &&& 0xFC#8 = 0#8 → exec (.selfTestEnd f repaired ms) s = .next t →
    t.dev.sys.boot = 3 ∧ t.dev.sys.selfBits = 0#8 ∧ t.dev.sys.repaired = repaired % 2 ^ 32)
  ∧ (d.sys.inReset = false → d.sys.starting ≠ none → f &&& 0xFC#8 ≠ 0#8 → exec (.selfTestEnd f repaired ms) s = .next t →
    t.dev.sys.boot = 4 ∧ t.dev.sys.selfBits = f &&& 0xFC#8 ∧ t.dev.sys.repaired = repaired % 2 ^ 32)

/-- 15 R369: each bit pair, the first bit the more significant, is Gray coded to a level, −3 as 00, −1 as 01, +1 as 11 and +3 as 10;
precoding puts each symbol into one of the same set, and its inverse at the receiver gives back the bit pairs that were sent, with and
without it, whatever the bits. A lane without PAM4 agrees no precoding; with PRECODE 1 or 2 in a direction that is what the lane uses,
whatever the training says; with 0, a transmitter precodes exactly when the partner has asked for it in the training, and a receiver asks
for it at 106.25 Gb/s. That precoding starts from symbol 0, and that nothing is agreed without a training, is the model's choice (DESIGN
CHOICE, log entry 169). -/
def Obligations.PrecodingIsUndoneByTheReceiver : Prop :=
  (pam4Levels false [false, false, false, true, true, true, true, false] = [-3, -1, 1, 3])
  ∧ (∀ (bs : List Bool) (precoded : Bool),
    let sent := if precoded then precodeOn 0 ((bitPairs bs).map gray) else (bitPairs bs).map gray
    pam4Levels precoded bs = sent.map pam4Level
    ∧ sent.length = bs.length / 2
    ∧ (∀ x ∈ sent, x < 4)
    ∧ (∀ i, i < sent.length → precoded = true →
      (sent.getD i 0 + if i = 0 then 0 else sent.getD (i - 1) 0) % 4 = gray ((bitPairs bs).getD i 0))
    ∧ pam4Pairs precoded sent = bitPairs bs)
  ∧ (∀ (q : Group) (on asked : Bool),
    (2 < q.rate → q.precodeAfter on asked = 0)
    ∧ (q.rate ≤ 2 → q.precode < 16 →
      (q.precode % 4 ≠ 0 → q.precodeAfter on asked % 4 = q.precode % 4)
      ∧ (q.precode / 4 ≠ 0 → q.precodeAfter on asked / 4 = q.precode / 4)
      ∧ (q.precode % 4 = 0 → (q.precodeAfter true asked % 4 = 2 ↔ asked = true) ∧ q.precodeAfter false asked % 4 = 1)
      ∧ (q.precode / 4 = 0 → (q.precodeAfter true asked / 4 = 2 ↔ q.rate = 1) ∧ q.precodeAfter false asked / 4 = 1)))

end
end

