-- ==== Sys2Proof/Laws/Command.lean ====
section
/-!
SUPPORT. What the shared operations of the command engine do: a table's entry written twice, a command whose checks pass, its final
reply.
-/
namespace Sys2Proof

theorem Tbl.find_put {α : Type} (t : Tbl α) (i : Nat) (v : α) : Tbl.find? (Tbl.put t i v) i = some v := by
  induction t with
  | nil => simp [Tbl.put, Tbl.find?]
  | cons e t ih =>
    simp only [Tbl.put]
    split
    · simp [Tbl.find?]
    · split
      · simp [Tbl.find?]
      · simp [Tbl.find?, *]

theorem Tbl.getD_put {α : Type} (t : Tbl α) (i : Nat) (v d : α) : Tbl.getD (Tbl.put t i v) i d = v := by
  simp [Tbl.getD, Tbl.find_put]

theorem Tbl.put_put {α : Type} (t : Tbl α) (i : Nat) (v w : α) : Tbl.put (Tbl.put t i v) i w = Tbl.put t i w := by
  induction t with
  | nil => simp [Tbl.put]
  | cons e t ih =>
    simp only [Tbl.put]
    split
    · simp [Tbl.put]
    · split
      · simp [Tbl.put]
      · simp [Tbl.put, *]

theorem Tbl.put_comm_of_lt {α : Type} (t : Tbl α) (i j : Nat) (v w : α) (h : i < j) :
    Tbl.put (Tbl.put t i v) j w = Tbl.put (Tbl.put t j w) i v := by
  have hji : ¬ j < i := by omega
  have hne : ¬ j = i := by omega
  induction t with
  | nil => simp [Tbl.put, h, hji, hne]
  | cons e t ih =>
    obtain ⟨k, x⟩ := e
    by_cases hik : i < k
    · have : ¬ i = k := by omega
      by_cases hjk : j < k
      · simp [Tbl.put, h, hji, hne, hik, hjk]
      · by_cases hk : j = k
        · subst hk; simp [Tbl.put, hji, hne, h]
        · simp [Tbl.put, hji, hne, hik, hjk, hk]
    · have hjk : ¬ j < k := by omega
      have hk : ¬ j = k := by omega
      by_cases hi : i = k
      · subst hi; simp [Tbl.put, hji, hne]
      · simp [Tbl.put, hik, hjk, hk, hi, ih]

theorem Tbl.put_comm {α : Type} (t : Tbl α) (i j : Nat) (v w : α) (h : i ≠ j) :
    Tbl.put (Tbl.put t i v) j w = Tbl.put (Tbl.put t j w) i v := by
  rcases Nat.lt_or_gt_of_ne h with g | g
  · exact Tbl.put_comm_of_lt t i j v w g
  · exact (Tbl.put_comm_of_lt t j i w v g).symm

theorem Tbl.find_put_ne {α : Type} (t : Tbl α) (i j : Nat) (v : α) (h : j ≠ i) : Tbl.find? (Tbl.put t i v) j = Tbl.find? t j := by
  induction t with
  | nil => simp [Tbl.put, Tbl.find?, h]
  | cons e t ih =>
    simp only [Tbl.put]
    split
    · simp [Tbl.find?, h]
    · split
      · simp_all [Tbl.find?]
      · simp [Tbl.find?, ih]

namespace Machine

/-- The final reply of a command that has just been fetched. -/
theorem finish_fetch (d : Dev) (p : Packet) (e : Exec) (st : Status) (res : List Nat) (hd : e.dom = p.ring)
    (hs : e.seq = (d.dom p.ring).nextSeq) (hp : e.pkt = p) (ht : e.stamp = none) :
    (d.fetch p).finish e st res = d.answer p e.op st res := by
  simp only [Dev.finish, Dev.reply, Dev.unpark, Dev.fetch, Dev.setDom, Dev.dom, Dev.hostWrite, Dev.answer, Dev.replyOut, hd, hs, hp, ht,
    Tbl.getD_put, Tbl.put_put, Option.getD_none, Dom.replyBase, Dom.entries]
  rfl

/-- Fetching an entry and changing a domain's registers commute where the change leaves the ring order alone. -/
theorem fetch_setDom (d : Dev) (p : Packet) (n : Nat) (f : Dom → Dom)
    (hf : ∀ m : Dom, f { m with nextSeq := m.nextSeq + 1 } = { f m with nextSeq := (f m).nextSeq + 1 }) :
    (d.fetch p).setDom n f = (d.setDom n f).fetch p := by
  simp only [Dev.fetch, Dev.setDom, Dev.dom]
  by_cases h : n = p.ring
  · subst h; simp only [Tbl.getD_put, Tbl.put_put, hf]
  · simp only [Tbl.getD, Tbl.find_put_ne _ _ _ _ h, Tbl.find_put_ne _ _ _ _ (Ne.symm h)]
    rw [Tbl.put_comm _ _ _ _ _ (Ne.symm h)]

/-- A command whose checks pass runs at once. -/
theorem command_accepted (c : CmdDef) (p : Packet) (s : State) (h : c.accepts s.dev p) :
    command c p s = .next { s with dev := (c.run (c.entry s.dev p) (s.dev.fetch p)).settle } := by
  obtain ⟨⟨hr, hf⟩, ⟨hp, h1, h2, h3⟩, hc⟩ := h
  have hlt : ¬ (15 < p.ring) := by omega
  simp only [command, live, act, hr, hf, hlt, startCmd, h1, runCmd, h2, h3]
  simp only [Dev.fetch, CmdDef.entry] at hc ⊢
  simp [hc]

/-- A command whose checks pass and whose effect ends with its final reply: the device `D` that the effect makes, answered. -/
theorem command_answers (c : CmdDef) (p : Packet) (s : State) (D : Dev) (st : Status) (res : List Nat) (h : c.accepts s.dev p)
    (hD : (D.dom p.ring).nextSeq = (s.dev.dom p.ring).nextSeq)
    (hr : c.run (c.entry s.dev p) (s.dev.fetch p) = (D.fetch p).finish (c.entry s.dev p) st res) :
    command c p s = .next { s with dev := (D.answer p c.op st res).settle } := by
  rw [command_accepted c p s h, hr, finish_fetch D p (c.entry s.dev p) st res rfl hD.symm rfl rfl]
  rfl

/-! ### Outcomes -/

/-- A packet's command is `command` of its definition. -/
theorem exec_command (i : Instr) (c : CmdDef) (p : Packet) (s : State) (h : commandOf i = some (c, p)) : exec i s = command c p s := by
  cases i <;> first | (cases h; done) | (cases h; rfl)

/-- Out of reset an event is its effect, with the pins as their rules hold them. -/
theorem live_running (f : Dev → Dev) (s : State) (h : s.dev.sys.inReset = false) : live f s = .next { s with dev := (f s.dev).settle } := by
  simp [live, act, h]

/-- In reset an event has no effect. -/
theorem live_reset (f : Dev → Dev) (s : State) (h : s.dev.sys.inReset = true) : live f s = .next { s with dev := s.dev.settle } := by
  simp [live, act, h]

/-- Everything an event answers: a next state whose pins follow their rules, with the same queue. -/
theorem live_next (f : Dev → Dev) (s t : State) (h : live f s = .next t) : t.dev.pins = t.dev.pinsNow ∧ t.pending = s.pending := by
  simp only [live, act, Host.Outcome.next.injEq] at h
  subst h
  exact ⟨rfl, rfl⟩

/-- A command that the device serves, not held by a fence, runs its checks. -/
theorem command_unfenced (c : CmdDef) (p : Packet) (s : State) (hs : s.dev.serves) (hp : p.ring ≤ 15) (hf : Packet.fence p = false) :
    command c p s = .next { s with dev := (runCmd c (c.entry s.dev p) (s.dev.fetch p)).settle } := by
  obtain ⟨h1, h2⟩ := hs
  have : ¬ 15 < p.ring := by omega
  simp only [command, live, act, h1, h2, this, startCmd, hf]
  rfl

/-- A command that fails a check answers with that check's status, and changes nothing else. -/
theorem command_refused (c : CmdDef) (p : Packet) (s : State) (st : Status) (res : List Nat) (hs : s.dev.serves) (hp : p.ring ≤ 15)
    (hf : Packet.fence p = false) (hr : c.refuse (s.dev.fetch p) (c.entry s.dev p) = some (st, res))
    (hn : st ≠ .abandoned ∨ Packet.dry p = true) :
    command c p s = .next { s with dev := (s.dev.answer p c.op st res).settle } := by
  rw [command_unfenced c p s hs hp hf]
  have ff := finish_fetch s.dev p (c.entry s.dev p) st res rfl rfl rfl rfl
  have : runCmd c (c.entry s.dev p) (s.dev.fetch p) = (s.dev.fetch p).finish (c.entry s.dev p) st res := by
    simp only [runCmd, hr]
    rcases hn with h | h
    · simp [h]
    · simp [CmdDef.entry, h]
  rw [this, ff]
  rfl

/-- The commands that boot state admits (17 R401). -/
theorem boot_commands (i : Instr) (c : CmdDef) (p : Packet) (h : commandOf i = some (c, p)) (hb : c.boot = true) :
    c.op ∈ [0x0101, 0x0102, 0x0103, 0x0104, 0x0105, 0x0111] := by
  revert hb
  cases i <;> first | (cases h; done) | (cases h; decide) | (cases h; simp [cmdIdentityRead])

/-- Only VERSION_COMMIT handles DRY and AT_BEACON itself (02 R61). -/
theorem own_flow (i : Instr) (c : CmdDef) (p : Packet) (h : commandOf i = some (c, p)) (ho : c.op ≠ 0x0202) : c.ownFlow = false := by
  revert ho
  cases i <;> first | (cases h; done) | (cases h; intro _; rfl) | (cases h; simp [cmdVersionCommit])

end Machine
end Sys2Proof
end

