-- ==== Sys2Proof/Laws/Memory.lean ====
section
/-!
SUPPORT. The staging memory (17 R404): every operation keeps its canonical form, and reset has it.
-/
namespace Sys2Proof.Machine

theorem Memory.wfFrom_mono (m : Tbl Byte) (lo hi : Nat) (h : lo ≤ hi) (w : Memory.wfFrom hi m = true) : Memory.wfFrom lo m = true := by
  cases m with
  | nil => rfl
  | cons e t =>
    obtain ⟨a, b⟩ := e
    simp only [Memory.wfFrom, Bool.and_eq_true, decide_eq_true_eq] at w ⊢
    exact ⟨⟨by omega, w.1.2⟩, w.2⟩

/-- The form with the entry at an address removed. -/
theorem Memory.wfFrom_del (m : Tbl Byte) (lo a : Nat) (w : Memory.wfFrom lo m = true) : Memory.wfFrom lo (Tbl.del m a) = true := by
  induction m generalizing lo with
  | nil => rfl
  | cons e t ih =>
    obtain ⟨k, b⟩ := e
    simp only [Memory.wfFrom, Bool.and_eq_true, decide_eq_true_eq] at w
    have g := ih (k + 1) w.2
    by_cases h : k = a
    · have : Tbl.del ((k, b) :: t) a = Tbl.del t a := by simp [Tbl.del, h]
      rw [this]
      exact Memory.wfFrom_mono _ lo (k + 1) (by omega) g
    · have : Tbl.del ((k, b) :: t) a = (k, b) :: Tbl.del t a := by simp [Tbl.del, h]
      rw [this]
      simp only [Memory.wfFrom, Bool.and_eq_true, decide_eq_true_eq]
      exact ⟨w.1, g⟩

/-- The form with a byte that is not 0 put at an address. -/
theorem Memory.wfFrom_put (m : Tbl Byte) (lo a : Nat) (b : Byte) (hb : b ≠ 0#8) (h : lo ≤ a) (w : Memory.wfFrom lo m = true) :
    Memory.wfFrom lo (Tbl.put m a b) = true := by
  induction m generalizing lo with
  | nil => simp [Tbl.put, Memory.wfFrom, h, hb]
  | cons e t ih =>
    obtain ⟨k, c⟩ := e
    simp only [Memory.wfFrom, Bool.and_eq_true, decide_eq_true_eq] at w
    simp only [Tbl.put]
    split
    · simp only [Memory.wfFrom, Bool.and_eq_true, decide_eq_true_eq]
      exact ⟨⟨h, hb⟩, ⟨by omega, w.1.2⟩, w.2⟩
    · split
      · next he => subst he; simp only [Memory.wfFrom, Bool.and_eq_true, decide_eq_true_eq]; exact ⟨⟨h, hb⟩, w.2⟩
      · simp only [Memory.wfFrom, Bool.and_eq_true, decide_eq_true_eq]
        exact ⟨w.1, ih (k + 1) (by omega) w.2⟩

/-- A byte written keeps the form. -/
theorem Memory.putByte_wf (m : Tbl Byte) (a : Nat) (b : Byte) (w : Memory.wf m = true) : Memory.wf (Memory.putByte m a b) = true := by
  unfold Memory.putByte
  split
  · exact Memory.wfFrom_del m 0 a w
  · next h => exact Memory.wfFrom_put m 0 a b h (Nat.zero_le a) w

/-- Bytes written keep the form. -/
theorem Memory.store_keeps_wf (m : Tbl Byte) (a : Nat) (bs : Bytes) (w : Memory.wf m = true) : Memory.wf (Memory.store m a bs) = true := by
  induction bs generalizing m a with
  | nil => exact w
  | cons b t ih => exact ih _ _ (Memory.putByte_wf m a b w)

/-- Reset's staging memory has the form. -/
theorem Memory.reset_wf : Memory.wf State.reset.dev.sys.staging = true := rfl

end Sys2Proof.Machine
end

