-- ==== Sys2Proof/Laws/State.lean ====
section
/-!
SUPPORT. What each named update of the device leaves in each field: one lemma per field per update, true by `rfl`, so that no later proof
unfolds a record update.
-/
namespace Sys2Proof.Machine

variable (d : Dev)

/-! ### `Dev.freeNext` -/

@[simp] theorem Dev.freeNext_sys : (d.freeNext).sys = d.sys := rfl
@[simp] theorem Dev.freeNext_doms : (d.freeNext).doms = d.doms := rfl
@[simp] theorem Dev.freeNext_rotor : (d.freeNext).rotor = d.rotor := rfl
@[simp] theorem Dev.freeNext_execs : (d.freeNext).execs = d.execs := rfl
@[simp] theorem Dev.freeNext_drains : (d.freeNext).drains = d.drains := rfl
@[simp] theorem Dev.freeNext_vers : (d.freeNext).vers = d.vers := rfl
@[simp] theorem Dev.freeNext_chans : (d.freeNext).chans = d.chans := rfl
@[simp] theorem Dev.freeNext_trees : (d.freeNext).trees = d.trees := rfl
@[simp] theorem Dev.freeNext_terms : (d.freeNext).terms = d.terms := rfl
@[simp] theorem Dev.freeNext_allocs : (d.freeNext).allocs = d.allocs := rfl
@[simp] theorem Dev.freeNext_cls : (d.freeNext).cls = d.cls := rfl
@[simp] theorem Dev.freeNext_fwd : (d.freeNext).fwd = d.fwd := rfl
@[simp] theorem Dev.freeNext_sw : (d.freeNext).sw = d.sw := rfl
@[simp] theorem Dev.freeNext_flows : (d.freeNext).flows = d.flows := rfl
@[simp] theorem Dev.freeNext_meters : (d.freeNext).meters = d.meters := rfl
@[simp] theorem Dev.freeNext_gates : (d.freeNext).gates = d.gates := rfl
@[simp] theorem Dev.freeNext_keys : (d.freeNext).keys = d.keys := rfl
@[simp] theorem Dev.freeNext_bsets : (d.freeNext).bsets = d.bsets := rfl
@[simp] theorem Dev.freeNext_time : (d.freeNext).time = d.time := rfl
@[simp] theorem Dev.freeNext_tdm : (d.freeNext).tdm = d.tdm := rfl
@[simp] theorem Dev.freeNext_prot : (d.freeNext).prot = d.prot := rfl
@[simp] theorem Dev.freeNext_eqTable : (d.freeNext).eqTable = d.eqTable := rfl
@[simp] theorem Dev.freeNext_lanes : (d.freeNext).lanes = d.lanes := rfl
@[simp] theorem Dev.freeNext_ports : (d.freeNext).ports = d.ports := rfl
@[simp] theorem Dev.freeNext_window : (d.freeNext).window = d.window := rfl
@[simp] theorem Dev.freeNext_windowNext : (d.freeNext).windowNext = d.windowNext := rfl
@[simp] theorem Dev.freeNext_windowEnd : (d.freeNext).windowEnd = d.windowEnd := rfl
@[simp] theorem Dev.freeNext_health : (d.freeNext).health = d.health := rfl
@[simp] theorem Dev.freeNext_termDom : (d.freeNext).termDom = d.termDom := rfl
@[simp] theorem Dev.freeNext_flowDom : (d.freeNext).flowDom = d.flowDom := rfl
@[simp] theorem Dev.freeNext_pins : (d.freeNext).pins = d.pins := rfl
@[simp] theorem Dev.freeNext_out : (d.freeNext).out = d.out := rfl
@[simp] theorem Dev.freeNext_freeCount : (d.freeNext).freeCount = d.freeCount + 1 := rfl

/-! ### `Dev.goCounter` -/

@[simp] theorem Dev.goCounter_sys (c : Nat) : (d.goCounter c).sys = d.sys := rfl
@[simp] theorem Dev.goCounter_doms (c : Nat) : (d.goCounter c).doms = d.doms := rfl
@[simp] theorem Dev.goCounter_rotor (c : Nat) : (d.goCounter c).rotor = d.rotor := rfl
@[simp] theorem Dev.goCounter_execs (c : Nat) : (d.goCounter c).execs = d.execs := rfl
@[simp] theorem Dev.goCounter_drains (c : Nat) : (d.goCounter c).drains = d.drains := rfl
@[simp] theorem Dev.goCounter_vers (c : Nat) : (d.goCounter c).vers = d.vers := rfl
@[simp] theorem Dev.goCounter_chans (c : Nat) : (d.goCounter c).chans = d.chans := rfl
@[simp] theorem Dev.goCounter_trees (c : Nat) : (d.goCounter c).trees = d.trees := rfl
@[simp] theorem Dev.goCounter_terms (c : Nat) : (d.goCounter c).terms = d.terms := rfl
@[simp] theorem Dev.goCounter_allocs (c : Nat) : (d.goCounter c).allocs = d.allocs := rfl
@[simp] theorem Dev.goCounter_cls (c : Nat) : (d.goCounter c).cls = d.cls := rfl
@[simp] theorem Dev.goCounter_fwd (c : Nat) : (d.goCounter c).fwd = d.fwd := rfl
@[simp] theorem Dev.goCounter_sw (c : Nat) : (d.goCounter c).sw = d.sw := rfl
@[simp] theorem Dev.goCounter_flows (c : Nat) : (d.goCounter c).flows = d.flows := rfl
@[simp] theorem Dev.goCounter_meters (c : Nat) : (d.goCounter c).meters = d.meters := rfl
@[simp] theorem Dev.goCounter_gates (c : Nat) : (d.goCounter c).gates = d.gates := rfl
@[simp] theorem Dev.goCounter_keys (c : Nat) : (d.goCounter c).keys = d.keys := rfl
@[simp] theorem Dev.goCounter_bsets (c : Nat) : (d.goCounter c).bsets = d.bsets := rfl
@[simp] theorem Dev.goCounter_time (c : Nat) : (d.goCounter c).time = { d.time with c := max d.time.c c } := rfl
@[simp] theorem Dev.goCounter_tdm (c : Nat) : (d.goCounter c).tdm = d.tdm := rfl
@[simp] theorem Dev.goCounter_prot (c : Nat) : (d.goCounter c).prot = d.prot := rfl
@[simp] theorem Dev.goCounter_eqTable (c : Nat) : (d.goCounter c).eqTable = d.eqTable := rfl
@[simp] theorem Dev.goCounter_lanes (c : Nat) : (d.goCounter c).lanes = d.lanes := rfl
@[simp] theorem Dev.goCounter_ports (c : Nat) : (d.goCounter c).ports = d.ports := rfl
@[simp] theorem Dev.goCounter_window (c : Nat) : (d.goCounter c).window = d.window := rfl
@[simp] theorem Dev.goCounter_windowNext (c : Nat) : (d.goCounter c).windowNext = d.windowNext := rfl
@[simp] theorem Dev.goCounter_windowEnd (c : Nat) : (d.goCounter c).windowEnd = d.windowEnd := rfl
@[simp] theorem Dev.goCounter_health (c : Nat) : (d.goCounter c).health = d.health := rfl
@[simp] theorem Dev.goCounter_termDom (c : Nat) : (d.goCounter c).termDom = d.termDom := rfl
@[simp] theorem Dev.goCounter_flowDom (c : Nat) : (d.goCounter c).flowDom = d.flowDom := rfl
@[simp] theorem Dev.goCounter_pins (c : Nat) : (d.goCounter c).pins = d.pins := rfl
@[simp] theorem Dev.goCounter_out (c : Nat) : (d.goCounter c).out = d.out := rfl
@[simp] theorem Dev.goCounter_freeCount (c : Nat) : (d.goCounter c).freeCount = d.freeCount := rfl

/-! ### `Dev.setDom` -/

@[simp] theorem Dev.setDom_sys (n : Nat) (f : Dom → Dom) : (d.setDom n f).sys = d.sys := rfl
@[simp] theorem Dev.setDom_doms (n : Nat) (f : Dom → Dom) : (d.setDom n f).doms = d.doms.put n (f (d.dom n)) := rfl
@[simp] theorem Dev.setDom_rotor (n : Nat) (f : Dom → Dom) : (d.setDom n f).rotor = d.rotor := rfl
@[simp] theorem Dev.setDom_execs (n : Nat) (f : Dom → Dom) : (d.setDom n f).execs = d.execs := rfl
@[simp] theorem Dev.setDom_drains (n : Nat) (f : Dom → Dom) : (d.setDom n f).drains = d.drains := rfl
@[simp] theorem Dev.setDom_vers (n : Nat) (f : Dom → Dom) : (d.setDom n f).vers = d.vers := rfl
@[simp] theorem Dev.setDom_chans (n : Nat) (f : Dom → Dom) : (d.setDom n f).chans = d.chans := rfl
@[simp] theorem Dev.setDom_trees (n : Nat) (f : Dom → Dom) : (d.setDom n f).trees = d.trees := rfl
@[simp] theorem Dev.setDom_terms (n : Nat) (f : Dom → Dom) : (d.setDom n f).terms = d.terms := rfl
@[simp] theorem Dev.setDom_allocs (n : Nat) (f : Dom → Dom) : (d.setDom n f).allocs = d.allocs := rfl
@[simp] theorem Dev.setDom_cls (n : Nat) (f : Dom → Dom) : (d.setDom n f).cls = d.cls := rfl
@[simp] theorem Dev.setDom_fwd (n : Nat) (f : Dom → Dom) : (d.setDom n f).fwd = d.fwd := rfl
@[simp] theorem Dev.setDom_sw (n : Nat) (f : Dom → Dom) : (d.setDom n f).sw = d.sw := rfl
@[simp] theorem Dev.setDom_flows (n : Nat) (f : Dom → Dom) : (d.setDom n f).flows = d.flows := rfl
@[simp] theorem Dev.setDom_meters (n : Nat) (f : Dom → Dom) : (d.setDom n f).meters = d.meters := rfl
@[simp] theorem Dev.setDom_gates (n : Nat) (f : Dom → Dom) : (d.setDom n f).gates = d.gates := rfl
@[simp] theorem Dev.setDom_keys (n : Nat) (f : Dom → Dom) : (d.setDom n f).keys = d.keys := rfl
@[simp] theorem Dev.setDom_bsets (n : Nat) (f : Dom → Dom) : (d.setDom n f).bsets = d.bsets := rfl
@[simp] theorem Dev.setDom_time (n : Nat) (f : Dom → Dom) : (d.setDom n f).time = d.time := rfl
@[simp] theorem Dev.setDom_tdm (n : Nat) (f : Dom → Dom) : (d.setDom n f).tdm = d.tdm := rfl
@[simp] theorem Dev.setDom_prot (n : Nat) (f : Dom → Dom) : (d.setDom n f).prot = d.prot := rfl
@[simp] theorem Dev.setDom_eqTable (n : Nat) (f : Dom → Dom) : (d.setDom n f).eqTable = d.eqTable := rfl
@[simp] theorem Dev.setDom_lanes (n : Nat) (f : Dom → Dom) : (d.setDom n f).lanes = d.lanes := rfl
@[simp] theorem Dev.setDom_ports (n : Nat) (f : Dom → Dom) : (d.setDom n f).ports = d.ports := rfl
@[simp] theorem Dev.setDom_window (n : Nat) (f : Dom → Dom) : (d.setDom n f).window = d.window := rfl
@[simp] theorem Dev.setDom_windowNext (n : Nat) (f : Dom → Dom) : (d.setDom n f).windowNext = d.windowNext := rfl
@[simp] theorem Dev.setDom_windowEnd (n : Nat) (f : Dom → Dom) : (d.setDom n f).windowEnd = d.windowEnd := rfl
@[simp] theorem Dev.setDom_health (n : Nat) (f : Dom → Dom) : (d.setDom n f).health = d.health := rfl
@[simp] theorem Dev.setDom_termDom (n : Nat) (f : Dom → Dom) : (d.setDom n f).termDom = d.termDom := rfl
@[simp] theorem Dev.setDom_flowDom (n : Nat) (f : Dom → Dom) : (d.setDom n f).flowDom = d.flowDom := rfl
@[simp] theorem Dev.setDom_pins (n : Nat) (f : Dom → Dom) : (d.setDom n f).pins = d.pins := rfl
@[simp] theorem Dev.setDom_out (n : Nat) (f : Dom → Dom) : (d.setDom n f).out = d.out := rfl
@[simp] theorem Dev.setDom_freeCount (n : Nat) (f : Dom → Dom) : (d.setDom n f).freeCount = d.freeCount := rfl

/-! ### `Dev.hostWrite` -/

@[simp] theorem Dev.hostWrite_sys (a : Nat) (b : Bytes) : (d.hostWrite a b).sys = d.sys := rfl
@[simp] theorem Dev.hostWrite_doms (a : Nat) (b : Bytes) : (d.hostWrite a b).doms = d.doms := rfl
@[simp] theorem Dev.hostWrite_rotor (a : Nat) (b : Bytes) : (d.hostWrite a b).rotor = d.rotor := rfl
@[simp] theorem Dev.hostWrite_execs (a : Nat) (b : Bytes) : (d.hostWrite a b).execs = d.execs := rfl
@[simp] theorem Dev.hostWrite_drains (a : Nat) (b : Bytes) : (d.hostWrite a b).drains = d.drains := rfl
@[simp] theorem Dev.hostWrite_vers (a : Nat) (b : Bytes) : (d.hostWrite a b).vers = d.vers := rfl
@[simp] theorem Dev.hostWrite_chans (a : Nat) (b : Bytes) : (d.hostWrite a b).chans = d.chans := rfl
@[simp] theorem Dev.hostWrite_trees (a : Nat) (b : Bytes) : (d.hostWrite a b).trees = d.trees := rfl
@[simp] theorem Dev.hostWrite_terms (a : Nat) (b : Bytes) : (d.hostWrite a b).terms = d.terms := rfl
@[simp] theorem Dev.hostWrite_allocs (a : Nat) (b : Bytes) : (d.hostWrite a b).allocs = d.allocs := rfl
@[simp] theorem Dev.hostWrite_cls (a : Nat) (b : Bytes) : (d.hostWrite a b).cls = d.cls := rfl
@[simp] theorem Dev.hostWrite_fwd (a : Nat) (b : Bytes) : (d.hostWrite a b).fwd = d.fwd := rfl
@[simp] theorem Dev.hostWrite_sw (a : Nat) (b : Bytes) : (d.hostWrite a b).sw = d.sw := rfl
@[simp] theorem Dev.hostWrite_flows (a : Nat) (b : Bytes) : (d.hostWrite a b).flows = d.flows := rfl
@[simp] theorem Dev.hostWrite_meters (a : Nat) (b : Bytes) : (d.hostWrite a b).meters = d.meters := rfl
@[simp] theorem Dev.hostWrite_gates (a : Nat) (b : Bytes) : (d.hostWrite a b).gates = d.gates := rfl
@[simp] theorem Dev.hostWrite_keys (a : Nat) (b : Bytes) : (d.hostWrite a b).keys = d.keys := rfl
@[simp] theorem Dev.hostWrite_bsets (a : Nat) (b : Bytes) : (d.hostWrite a b).bsets = d.bsets := rfl
@[simp] theorem Dev.hostWrite_time (a : Nat) (b : Bytes) : (d.hostWrite a b).time = d.time := rfl
@[simp] theorem Dev.hostWrite_tdm (a : Nat) (b : Bytes) : (d.hostWrite a b).tdm = d.tdm := rfl
@[simp] theorem Dev.hostWrite_prot (a : Nat) (b : Bytes) : (d.hostWrite a b).prot = d.prot := rfl
@[simp] theorem Dev.hostWrite_eqTable (a : Nat) (b : Bytes) : (d.hostWrite a b).eqTable = d.eqTable := rfl
@[simp] theorem Dev.hostWrite_lanes (a : Nat) (b : Bytes) : (d.hostWrite a b).lanes = d.lanes := rfl
@[simp] theorem Dev.hostWrite_ports (a : Nat) (b : Bytes) : (d.hostWrite a b).ports = d.ports := rfl
@[simp] theorem Dev.hostWrite_window (a : Nat) (b : Bytes) : (d.hostWrite a b).window = d.window := rfl
@[simp] theorem Dev.hostWrite_windowNext (a : Nat) (b : Bytes) : (d.hostWrite a b).windowNext = d.windowNext := rfl
@[simp] theorem Dev.hostWrite_windowEnd (a : Nat) (b : Bytes) : (d.hostWrite a b).windowEnd = d.windowEnd := rfl
@[simp] theorem Dev.hostWrite_health (a : Nat) (b : Bytes) : (d.hostWrite a b).health = d.health := rfl
@[simp] theorem Dev.hostWrite_termDom (a : Nat) (b : Bytes) : (d.hostWrite a b).termDom = d.termDom := rfl
@[simp] theorem Dev.hostWrite_flowDom (a : Nat) (b : Bytes) : (d.hostWrite a b).flowDom = d.flowDom := rfl
@[simp] theorem Dev.hostWrite_pins (a : Nat) (b : Bytes) : (d.hostWrite a b).pins = d.pins := rfl
@[simp] theorem Dev.hostWrite_out (a : Nat) (b : Bytes) : (d.hostWrite a b).out = d.out ++ [.hostWrite a b] := rfl
@[simp] theorem Dev.hostWrite_freeCount (a : Nat) (b : Bytes) : (d.hostWrite a b).freeCount = d.freeCount := rfl

/-! ### `Dev.emit` -/

@[simp] theorem Dev.emit_sys (o : Out) : (d.emit o).sys = d.sys := rfl
@[simp] theorem Dev.emit_doms (o : Out) : (d.emit o).doms = d.doms := rfl
@[simp] theorem Dev.emit_rotor (o : Out) : (d.emit o).rotor = d.rotor := rfl
@[simp] theorem Dev.emit_execs (o : Out) : (d.emit o).execs = d.execs := rfl
@[simp] theorem Dev.emit_drains (o : Out) : (d.emit o).drains = d.drains := rfl
@[simp] theorem Dev.emit_vers (o : Out) : (d.emit o).vers = d.vers := rfl
@[simp] theorem Dev.emit_chans (o : Out) : (d.emit o).chans = d.chans := rfl
@[simp] theorem Dev.emit_trees (o : Out) : (d.emit o).trees = d.trees := rfl
@[simp] theorem Dev.emit_terms (o : Out) : (d.emit o).terms = d.terms := rfl
@[simp] theorem Dev.emit_allocs (o : Out) : (d.emit o).allocs = d.allocs := rfl
@[simp] theorem Dev.emit_cls (o : Out) : (d.emit o).cls = d.cls := rfl
@[simp] theorem Dev.emit_fwd (o : Out) : (d.emit o).fwd = d.fwd := rfl
@[simp] theorem Dev.emit_sw (o : Out) : (d.emit o).sw = d.sw := rfl
@[simp] theorem Dev.emit_flows (o : Out) : (d.emit o).flows = d.flows := rfl
@[simp] theorem Dev.emit_meters (o : Out) : (d.emit o).meters = d.meters := rfl
@[simp] theorem Dev.emit_gates (o : Out) : (d.emit o).gates = d.gates := rfl
@[simp] theorem Dev.emit_keys (o : Out) : (d.emit o).keys = d.keys := rfl
@[simp] theorem Dev.emit_bsets (o : Out) : (d.emit o).bsets = d.bsets := rfl
@[simp] theorem Dev.emit_time (o : Out) : (d.emit o).time = d.time := rfl
@[simp] theorem Dev.emit_tdm (o : Out) : (d.emit o).tdm = d.tdm := rfl
@[simp] theorem Dev.emit_prot (o : Out) : (d.emit o).prot = d.prot := rfl
@[simp] theorem Dev.emit_eqTable (o : Out) : (d.emit o).eqTable = d.eqTable := rfl
@[simp] theorem Dev.emit_lanes (o : Out) : (d.emit o).lanes = d.lanes := rfl
@[simp] theorem Dev.emit_ports (o : Out) : (d.emit o).ports = d.ports := rfl
@[simp] theorem Dev.emit_window (o : Out) : (d.emit o).window = d.window := rfl
@[simp] theorem Dev.emit_windowNext (o : Out) : (d.emit o).windowNext = d.windowNext := rfl
@[simp] theorem Dev.emit_windowEnd (o : Out) : (d.emit o).windowEnd = d.windowEnd := rfl
@[simp] theorem Dev.emit_health (o : Out) : (d.emit o).health = d.health := rfl
@[simp] theorem Dev.emit_termDom (o : Out) : (d.emit o).termDom = d.termDom := rfl
@[simp] theorem Dev.emit_flowDom (o : Out) : (d.emit o).flowDom = d.flowDom := rfl
@[simp] theorem Dev.emit_pins (o : Out) : (d.emit o).pins = d.pins := rfl
@[simp] theorem Dev.emit_out (o : Out) : (d.emit o).out = d.out ++ [o] := rfl
@[simp] theorem Dev.emit_freeCount (o : Out) : (d.emit o).freeCount = d.freeCount := rfl

/-! ### `Dev.unpark` -/

@[simp] theorem Dev.unpark_sys (e : Exec) : (d.unpark e).sys = d.sys := rfl
@[simp] theorem Dev.unpark_doms (e : Exec) : (d.unpark e).doms = d.doms := rfl
@[simp] theorem Dev.unpark_rotor (e : Exec) : (d.unpark e).rotor = d.rotor := rfl
@[simp] theorem Dev.unpark_execs (e : Exec) : (d.unpark e).execs = d.execs.filter fun x => !(x.dom == e.dom && x.seq == e.seq) := rfl
@[simp] theorem Dev.unpark_drains (e : Exec) : (d.unpark e).drains = d.drains := rfl
@[simp] theorem Dev.unpark_vers (e : Exec) : (d.unpark e).vers = d.vers := rfl
@[simp] theorem Dev.unpark_chans (e : Exec) : (d.unpark e).chans = d.chans := rfl
@[simp] theorem Dev.unpark_trees (e : Exec) : (d.unpark e).trees = d.trees := rfl
@[simp] theorem Dev.unpark_terms (e : Exec) : (d.unpark e).terms = d.terms := rfl
@[simp] theorem Dev.unpark_allocs (e : Exec) : (d.unpark e).allocs = d.allocs := rfl
@[simp] theorem Dev.unpark_cls (e : Exec) : (d.unpark e).cls = d.cls := rfl
@[simp] theorem Dev.unpark_fwd (e : Exec) : (d.unpark e).fwd = d.fwd := rfl
@[simp] theorem Dev.unpark_sw (e : Exec) : (d.unpark e).sw = d.sw := rfl
@[simp] theorem Dev.unpark_flows (e : Exec) : (d.unpark e).flows = d.flows := rfl
@[simp] theorem Dev.unpark_meters (e : Exec) : (d.unpark e).meters = d.meters := rfl
@[simp] theorem Dev.unpark_gates (e : Exec) : (d.unpark e).gates = d.gates := rfl
@[simp] theorem Dev.unpark_keys (e : Exec) : (d.unpark e).keys = d.keys := rfl
@[simp] theorem Dev.unpark_bsets (e : Exec) : (d.unpark e).bsets = d.bsets := rfl
@[simp] theorem Dev.unpark_time (e : Exec) : (d.unpark e).time = d.time := rfl
@[simp] theorem Dev.unpark_tdm (e : Exec) : (d.unpark e).tdm = d.tdm := rfl
@[simp] theorem Dev.unpark_prot (e : Exec) : (d.unpark e).prot = d.prot := rfl
@[simp] theorem Dev.unpark_eqTable (e : Exec) : (d.unpark e).eqTable = d.eqTable := rfl
@[simp] theorem Dev.unpark_lanes (e : Exec) : (d.unpark e).lanes = d.lanes := rfl
@[simp] theorem Dev.unpark_ports (e : Exec) : (d.unpark e).ports = d.ports := rfl
@[simp] theorem Dev.unpark_window (e : Exec) : (d.unpark e).window = d.window := rfl
@[simp] theorem Dev.unpark_windowNext (e : Exec) : (d.unpark e).windowNext = d.windowNext := rfl
@[simp] theorem Dev.unpark_windowEnd (e : Exec) : (d.unpark e).windowEnd = d.windowEnd := rfl
@[simp] theorem Dev.unpark_health (e : Exec) : (d.unpark e).health = d.health := rfl
@[simp] theorem Dev.unpark_termDom (e : Exec) : (d.unpark e).termDom = d.termDom := rfl
@[simp] theorem Dev.unpark_flowDom (e : Exec) : (d.unpark e).flowDom = d.flowDom := rfl
@[simp] theorem Dev.unpark_pins (e : Exec) : (d.unpark e).pins = d.pins := rfl
@[simp] theorem Dev.unpark_out (e : Exec) : (d.unpark e).out = d.out := rfl
@[simp] theorem Dev.unpark_freeCount (e : Exec) : (d.unpark e).freeCount = d.freeCount := rfl

/-! ### `Dev.setChan` -/

@[simp] theorem Dev.setChan_sys (g : Nat) (f : Chan → Chan) : (d.setChan g f).sys = d.sys := rfl
@[simp] theorem Dev.setChan_doms (g : Nat) (f : Chan → Chan) : (d.setChan g f).doms = d.doms := rfl
@[simp] theorem Dev.setChan_rotor (g : Nat) (f : Chan → Chan) : (d.setChan g f).rotor = d.rotor := rfl
@[simp] theorem Dev.setChan_execs (g : Nat) (f : Chan → Chan) : (d.setChan g f).execs = d.execs := rfl
@[simp] theorem Dev.setChan_drains (g : Nat) (f : Chan → Chan) : (d.setChan g f).drains = d.drains := rfl
@[simp] theorem Dev.setChan_vers (g : Nat) (f : Chan → Chan) : (d.setChan g f).vers = d.vers := rfl
@[simp] theorem Dev.setChan_chans (g : Nat) (f : Chan → Chan) : (d.setChan g f).chans = d.chans.put g (f (d.chan g)) := rfl
@[simp] theorem Dev.setChan_trees (g : Nat) (f : Chan → Chan) : (d.setChan g f).trees = d.trees := rfl
@[simp] theorem Dev.setChan_terms (g : Nat) (f : Chan → Chan) : (d.setChan g f).terms = d.terms := rfl
@[simp] theorem Dev.setChan_allocs (g : Nat) (f : Chan → Chan) : (d.setChan g f).allocs = d.allocs := rfl
@[simp] theorem Dev.setChan_cls (g : Nat) (f : Chan → Chan) : (d.setChan g f).cls = d.cls := rfl
@[simp] theorem Dev.setChan_fwd (g : Nat) (f : Chan → Chan) : (d.setChan g f).fwd = d.fwd := rfl
@[simp] theorem Dev.setChan_sw (g : Nat) (f : Chan → Chan) : (d.setChan g f).sw = d.sw := rfl
@[simp] theorem Dev.setChan_flows (g : Nat) (f : Chan → Chan) : (d.setChan g f).flows = d.flows := rfl
@[simp] theorem Dev.setChan_meters (g : Nat) (f : Chan → Chan) : (d.setChan g f).meters = d.meters := rfl
@[simp] theorem Dev.setChan_gates (g : Nat) (f : Chan → Chan) : (d.setChan g f).gates = d.gates := rfl
@[simp] theorem Dev.setChan_keys (g : Nat) (f : Chan → Chan) : (d.setChan g f).keys = d.keys := rfl
@[simp] theorem Dev.setChan_bsets (g : Nat) (f : Chan → Chan) : (d.setChan g f).bsets = d.bsets := rfl
@[simp] theorem Dev.setChan_time (g : Nat) (f : Chan → Chan) : (d.setChan g f).time = d.time := rfl
@[simp] theorem Dev.setChan_tdm (g : Nat) (f : Chan → Chan) : (d.setChan g f).tdm = d.tdm := rfl
@[simp] theorem Dev.setChan_prot (g : Nat) (f : Chan → Chan) : (d.setChan g f).prot = d.prot := rfl
@[simp] theorem Dev.setChan_eqTable (g : Nat) (f : Chan → Chan) : (d.setChan g f).eqTable = d.eqTable := rfl
@[simp] theorem Dev.setChan_lanes (g : Nat) (f : Chan → Chan) : (d.setChan g f).lanes = d.lanes := rfl
@[simp] theorem Dev.setChan_ports (g : Nat) (f : Chan → Chan) : (d.setChan g f).ports = d.ports := rfl
@[simp] theorem Dev.setChan_window (g : Nat) (f : Chan → Chan) : (d.setChan g f).window = d.window := rfl
@[simp] theorem Dev.setChan_windowNext (g : Nat) (f : Chan → Chan) : (d.setChan g f).windowNext = d.windowNext := rfl
@[simp] theorem Dev.setChan_windowEnd (g : Nat) (f : Chan → Chan) : (d.setChan g f).windowEnd = d.windowEnd := rfl
@[simp] theorem Dev.setChan_health (g : Nat) (f : Chan → Chan) : (d.setChan g f).health = d.health := rfl
@[simp] theorem Dev.setChan_termDom (g : Nat) (f : Chan → Chan) : (d.setChan g f).termDom = d.termDom := rfl
@[simp] theorem Dev.setChan_flowDom (g : Nat) (f : Chan → Chan) : (d.setChan g f).flowDom = d.flowDom := rfl
@[simp] theorem Dev.setChan_pins (g : Nat) (f : Chan → Chan) : (d.setChan g f).pins = d.pins := rfl
@[simp] theorem Dev.setChan_out (g : Nat) (f : Chan → Chan) : (d.setChan g f).out = d.out := rfl
@[simp] theorem Dev.setChan_freeCount (g : Nat) (f : Chan → Chan) : (d.setChan g f).freeCount = d.freeCount := rfl

/-! ### `Dev.setTree` -/

@[simp] theorem Dev.setTree_sys (t : Nat) (f : Tree → Tree) : (d.setTree t f).sys = d.sys := rfl
@[simp] theorem Dev.setTree_doms (t : Nat) (f : Tree → Tree) : (d.setTree t f).doms = d.doms := rfl
@[simp] theorem Dev.setTree_rotor (t : Nat) (f : Tree → Tree) : (d.setTree t f).rotor = d.rotor := rfl
@[simp] theorem Dev.setTree_execs (t : Nat) (f : Tree → Tree) : (d.setTree t f).execs = d.execs := rfl
@[simp] theorem Dev.setTree_drains (t : Nat) (f : Tree → Tree) : (d.setTree t f).drains = d.drains := rfl
@[simp] theorem Dev.setTree_vers (t : Nat) (f : Tree → Tree) : (d.setTree t f).vers = d.vers := rfl
@[simp] theorem Dev.setTree_chans (t : Nat) (f : Tree → Tree) : (d.setTree t f).chans = d.chans := rfl
@[simp] theorem Dev.setTree_trees (t : Nat) (f : Tree → Tree) : (d.setTree t f).trees = d.trees.put t (f (d.tree t)) := rfl
@[simp] theorem Dev.setTree_terms (t : Nat) (f : Tree → Tree) : (d.setTree t f).terms = d.terms := rfl
@[simp] theorem Dev.setTree_allocs (t : Nat) (f : Tree → Tree) : (d.setTree t f).allocs = d.allocs := rfl
@[simp] theorem Dev.setTree_cls (t : Nat) (f : Tree → Tree) : (d.setTree t f).cls = d.cls := rfl
@[simp] theorem Dev.setTree_fwd (t : Nat) (f : Tree → Tree) : (d.setTree t f).fwd = d.fwd := rfl
@[simp] theorem Dev.setTree_sw (t : Nat) (f : Tree → Tree) : (d.setTree t f).sw = d.sw := rfl
@[simp] theorem Dev.setTree_flows (t : Nat) (f : Tree → Tree) : (d.setTree t f).flows = d.flows := rfl
@[simp] theorem Dev.setTree_meters (t : Nat) (f : Tree → Tree) : (d.setTree t f).meters = d.meters := rfl
@[simp] theorem Dev.setTree_gates (t : Nat) (f : Tree → Tree) : (d.setTree t f).gates = d.gates := rfl
@[simp] theorem Dev.setTree_keys (t : Nat) (f : Tree → Tree) : (d.setTree t f).keys = d.keys := rfl
@[simp] theorem Dev.setTree_bsets (t : Nat) (f : Tree → Tree) : (d.setTree t f).bsets = d.bsets := rfl
@[simp] theorem Dev.setTree_time (t : Nat) (f : Tree → Tree) : (d.setTree t f).time = d.time := rfl
@[simp] theorem Dev.setTree_tdm (t : Nat) (f : Tree → Tree) : (d.setTree t f).tdm = d.tdm := rfl
@[simp] theorem Dev.setTree_prot (t : Nat) (f : Tree → Tree) : (d.setTree t f).prot = d.prot := rfl
@[simp] theorem Dev.setTree_eqTable (t : Nat) (f : Tree → Tree) : (d.setTree t f).eqTable = d.eqTable := rfl
@[simp] theorem Dev.setTree_lanes (t : Nat) (f : Tree → Tree) : (d.setTree t f).lanes = d.lanes := rfl
@[simp] theorem Dev.setTree_ports (t : Nat) (f : Tree → Tree) : (d.setTree t f).ports = d.ports := rfl
@[simp] theorem Dev.setTree_window (t : Nat) (f : Tree → Tree) : (d.setTree t f).window = d.window := rfl
@[simp] theorem Dev.setTree_windowNext (t : Nat) (f : Tree → Tree) : (d.setTree t f).windowNext = d.windowNext := rfl
@[simp] theorem Dev.setTree_windowEnd (t : Nat) (f : Tree → Tree) : (d.setTree t f).windowEnd = d.windowEnd := rfl
@[simp] theorem Dev.setTree_health (t : Nat) (f : Tree → Tree) : (d.setTree t f).health = d.health := rfl
@[simp] theorem Dev.setTree_termDom (t : Nat) (f : Tree → Tree) : (d.setTree t f).termDom = d.termDom := rfl
@[simp] theorem Dev.setTree_flowDom (t : Nat) (f : Tree → Tree) : (d.setTree t f).flowDom = d.flowDom := rfl
@[simp] theorem Dev.setTree_pins (t : Nat) (f : Tree → Tree) : (d.setTree t f).pins = d.pins := rfl
@[simp] theorem Dev.setTree_out (t : Nat) (f : Tree → Tree) : (d.setTree t f).out = d.out := rfl
@[simp] theorem Dev.setTree_freeCount (t : Nat) (f : Tree → Tree) : (d.setTree t f).freeCount = d.freeCount := rfl

/-! ### `Dev.setTerm` -/

@[simp] theorem Dev.setTerm_sys (t : Nat) (f : Term → Term) : (d.setTerm t f).sys = d.sys := rfl
@[simp] theorem Dev.setTerm_doms (t : Nat) (f : Term → Term) : (d.setTerm t f).doms = d.doms := rfl
@[simp] theorem Dev.setTerm_rotor (t : Nat) (f : Term → Term) : (d.setTerm t f).rotor = d.rotor := rfl
@[simp] theorem Dev.setTerm_execs (t : Nat) (f : Term → Term) : (d.setTerm t f).execs = d.execs := rfl
@[simp] theorem Dev.setTerm_drains (t : Nat) (f : Term → Term) : (d.setTerm t f).drains = d.drains := rfl
@[simp] theorem Dev.setTerm_vers (t : Nat) (f : Term → Term) : (d.setTerm t f).vers = d.vers := rfl
@[simp] theorem Dev.setTerm_chans (t : Nat) (f : Term → Term) : (d.setTerm t f).chans = d.chans := rfl
@[simp] theorem Dev.setTerm_trees (t : Nat) (f : Term → Term) : (d.setTerm t f).trees = d.trees := rfl
@[simp] theorem Dev.setTerm_terms (t : Nat) (f : Term → Term) : (d.setTerm t f).terms = d.terms.adjust t f := rfl
@[simp] theorem Dev.setTerm_allocs (t : Nat) (f : Term → Term) : (d.setTerm t f).allocs = d.allocs := rfl
@[simp] theorem Dev.setTerm_cls (t : Nat) (f : Term → Term) : (d.setTerm t f).cls = d.cls := rfl
@[simp] theorem Dev.setTerm_fwd (t : Nat) (f : Term → Term) : (d.setTerm t f).fwd = d.fwd := rfl
@[simp] theorem Dev.setTerm_sw (t : Nat) (f : Term → Term) : (d.setTerm t f).sw = d.sw := rfl
@[simp] theorem Dev.setTerm_flows (t : Nat) (f : Term → Term) : (d.setTerm t f).flows = d.flows := rfl
@[simp] theorem Dev.setTerm_meters (t : Nat) (f : Term → Term) : (d.setTerm t f).meters = d.meters := rfl
@[simp] theorem Dev.setTerm_gates (t : Nat) (f : Term → Term) : (d.setTerm t f).gates = d.gates := rfl
@[simp] theorem Dev.setTerm_keys (t : Nat) (f : Term → Term) : (d.setTerm t f).keys = d.keys := rfl
@[simp] theorem Dev.setTerm_bsets (t : Nat) (f : Term → Term) : (d.setTerm t f).bsets = d.bsets := rfl
@[simp] theorem Dev.setTerm_time (t : Nat) (f : Term → Term) : (d.setTerm t f).time = d.time := rfl
@[simp] theorem Dev.setTerm_tdm (t : Nat) (f : Term → Term) : (d.setTerm t f).tdm = d.tdm := rfl
@[simp] theorem Dev.setTerm_prot (t : Nat) (f : Term → Term) : (d.setTerm t f).prot = d.prot := rfl
@[simp] theorem Dev.setTerm_eqTable (t : Nat) (f : Term → Term) : (d.setTerm t f).eqTable = d.eqTable := rfl
@[simp] theorem Dev.setTerm_lanes (t : Nat) (f : Term → Term) : (d.setTerm t f).lanes = d.lanes := rfl
@[simp] theorem Dev.setTerm_ports (t : Nat) (f : Term → Term) : (d.setTerm t f).ports = d.ports := rfl
@[simp] theorem Dev.setTerm_window (t : Nat) (f : Term → Term) : (d.setTerm t f).window = d.window := rfl
@[simp] theorem Dev.setTerm_windowNext (t : Nat) (f : Term → Term) : (d.setTerm t f).windowNext = d.windowNext := rfl
@[simp] theorem Dev.setTerm_windowEnd (t : Nat) (f : Term → Term) : (d.setTerm t f).windowEnd = d.windowEnd := rfl
@[simp] theorem Dev.setTerm_health (t : Nat) (f : Term → Term) : (d.setTerm t f).health = d.health := rfl
@[simp] theorem Dev.setTerm_termDom (t : Nat) (f : Term → Term) : (d.setTerm t f).termDom = d.termDom := rfl
@[simp] theorem Dev.setTerm_flowDom (t : Nat) (f : Term → Term) : (d.setTerm t f).flowDom = d.flowDom := rfl
@[simp] theorem Dev.setTerm_pins (t : Nat) (f : Term → Term) : (d.setTerm t f).pins = d.pins := rfl
@[simp] theorem Dev.setTerm_out (t : Nat) (f : Term → Term) : (d.setTerm t f).out = d.out := rfl
@[simp] theorem Dev.setTerm_freeCount (t : Nat) (f : Term → Term) : (d.setTerm t f).freeCount = d.freeCount := rfl

/-! ### `Dev.setFlow` -/

@[simp] theorem Dev.setFlow_sys (h : Nat) (f : Flow → Flow) : (d.setFlow h f).sys = d.sys := rfl
@[simp] theorem Dev.setFlow_doms (h : Nat) (f : Flow → Flow) : (d.setFlow h f).doms = d.doms := rfl
@[simp] theorem Dev.setFlow_rotor (h : Nat) (f : Flow → Flow) : (d.setFlow h f).rotor = d.rotor := rfl
@[simp] theorem Dev.setFlow_execs (h : Nat) (f : Flow → Flow) : (d.setFlow h f).execs = d.execs := rfl
@[simp] theorem Dev.setFlow_drains (h : Nat) (f : Flow → Flow) : (d.setFlow h f).drains = d.drains := rfl
@[simp] theorem Dev.setFlow_vers (h : Nat) (f : Flow → Flow) : (d.setFlow h f).vers = d.vers := rfl
@[simp] theorem Dev.setFlow_chans (h : Nat) (f : Flow → Flow) : (d.setFlow h f).chans = d.chans := rfl
@[simp] theorem Dev.setFlow_trees (h : Nat) (f : Flow → Flow) : (d.setFlow h f).trees = d.trees := rfl
@[simp] theorem Dev.setFlow_terms (h : Nat) (f : Flow → Flow) : (d.setFlow h f).terms = d.terms := rfl
@[simp] theorem Dev.setFlow_allocs (h : Nat) (f : Flow → Flow) : (d.setFlow h f).allocs = d.allocs := rfl
@[simp] theorem Dev.setFlow_cls (h : Nat) (f : Flow → Flow) : (d.setFlow h f).cls = d.cls := rfl
@[simp] theorem Dev.setFlow_fwd (h : Nat) (f : Flow → Flow) : (d.setFlow h f).fwd = d.fwd := rfl
@[simp] theorem Dev.setFlow_sw (h : Nat) (f : Flow → Flow) : (d.setFlow h f).sw = d.sw := rfl
@[simp] theorem Dev.setFlow_flows (h : Nat) (f : Flow → Flow) : (d.setFlow h f).flows = d.flows.adjust h f := rfl
@[simp] theorem Dev.setFlow_meters (h : Nat) (f : Flow → Flow) : (d.setFlow h f).meters = d.meters := rfl
@[simp] theorem Dev.setFlow_gates (h : Nat) (f : Flow → Flow) : (d.setFlow h f).gates = d.gates := rfl
@[simp] theorem Dev.setFlow_keys (h : Nat) (f : Flow → Flow) : (d.setFlow h f).keys = d.keys := rfl
@[simp] theorem Dev.setFlow_bsets (h : Nat) (f : Flow → Flow) : (d.setFlow h f).bsets = d.bsets := rfl
@[simp] theorem Dev.setFlow_time (h : Nat) (f : Flow → Flow) : (d.setFlow h f).time = d.time := rfl
@[simp] theorem Dev.setFlow_tdm (h : Nat) (f : Flow → Flow) : (d.setFlow h f).tdm = d.tdm := rfl
@[simp] theorem Dev.setFlow_prot (h : Nat) (f : Flow → Flow) : (d.setFlow h f).prot = d.prot := rfl
@[simp] theorem Dev.setFlow_eqTable (h : Nat) (f : Flow → Flow) : (d.setFlow h f).eqTable = d.eqTable := rfl
@[simp] theorem Dev.setFlow_lanes (h : Nat) (f : Flow → Flow) : (d.setFlow h f).lanes = d.lanes := rfl
@[simp] theorem Dev.setFlow_ports (h : Nat) (f : Flow → Flow) : (d.setFlow h f).ports = d.ports := rfl
@[simp] theorem Dev.setFlow_window (h : Nat) (f : Flow → Flow) : (d.setFlow h f).window = d.window := rfl
@[simp] theorem Dev.setFlow_windowNext (h : Nat) (f : Flow → Flow) : (d.setFlow h f).windowNext = d.windowNext := rfl
@[simp] theorem Dev.setFlow_windowEnd (h : Nat) (f : Flow → Flow) : (d.setFlow h f).windowEnd = d.windowEnd := rfl
@[simp] theorem Dev.setFlow_health (h : Nat) (f : Flow → Flow) : (d.setFlow h f).health = d.health := rfl
@[simp] theorem Dev.setFlow_termDom (h : Nat) (f : Flow → Flow) : (d.setFlow h f).termDom = d.termDom := rfl
@[simp] theorem Dev.setFlow_flowDom (h : Nat) (f : Flow → Flow) : (d.setFlow h f).flowDom = d.flowDom := rfl
@[simp] theorem Dev.setFlow_pins (h : Nat) (f : Flow → Flow) : (d.setFlow h f).pins = d.pins := rfl
@[simp] theorem Dev.setFlow_out (h : Nat) (f : Flow → Flow) : (d.setFlow h f).out = d.out := rfl
@[simp] theorem Dev.setFlow_freeCount (h : Nat) (f : Flow → Flow) : (d.setFlow h f).freeCount = d.freeCount := rfl

/-! ### `Dev.setAlloc` -/

@[simp] theorem Dev.setAlloc_sys (h : Nat) (f : Alloc → Alloc) : (d.setAlloc h f).sys = d.sys := rfl
@[simp] theorem Dev.setAlloc_doms (h : Nat) (f : Alloc → Alloc) : (d.setAlloc h f).doms = d.doms := rfl
@[simp] theorem Dev.setAlloc_rotor (h : Nat) (f : Alloc → Alloc) : (d.setAlloc h f).rotor = d.rotor := rfl
@[simp] theorem Dev.setAlloc_execs (h : Nat) (f : Alloc → Alloc) : (d.setAlloc h f).execs = d.execs := rfl
@[simp] theorem Dev.setAlloc_drains (h : Nat) (f : Alloc → Alloc) : (d.setAlloc h f).drains = d.drains := rfl
@[simp] theorem Dev.setAlloc_vers (h : Nat) (f : Alloc → Alloc) : (d.setAlloc h f).vers = d.vers := rfl
@[simp] theorem Dev.setAlloc_chans (h : Nat) (f : Alloc → Alloc) : (d.setAlloc h f).chans = d.chans := rfl
@[simp] theorem Dev.setAlloc_trees (h : Nat) (f : Alloc → Alloc) : (d.setAlloc h f).trees = d.trees := rfl
@[simp] theorem Dev.setAlloc_terms (h : Nat) (f : Alloc → Alloc) : (d.setAlloc h f).terms = d.terms := rfl
@[simp] theorem Dev.setAlloc_allocs (h : Nat) (f : Alloc → Alloc) : (d.setAlloc h f).allocs = d.allocs.adjust h f := rfl
@[simp] theorem Dev.setAlloc_cls (h : Nat) (f : Alloc → Alloc) : (d.setAlloc h f).cls = d.cls := rfl
@[simp] theorem Dev.setAlloc_fwd (h : Nat) (f : Alloc → Alloc) : (d.setAlloc h f).fwd = d.fwd := rfl
@[simp] theorem Dev.setAlloc_sw (h : Nat) (f : Alloc → Alloc) : (d.setAlloc h f).sw = d.sw := rfl
@[simp] theorem Dev.setAlloc_flows (h : Nat) (f : Alloc → Alloc) : (d.setAlloc h f).flows = d.flows := rfl
@[simp] theorem Dev.setAlloc_meters (h : Nat) (f : Alloc → Alloc) : (d.setAlloc h f).meters = d.meters := rfl
@[simp] theorem Dev.setAlloc_gates (h : Nat) (f : Alloc → Alloc) : (d.setAlloc h f).gates = d.gates := rfl
@[simp] theorem Dev.setAlloc_keys (h : Nat) (f : Alloc → Alloc) : (d.setAlloc h f).keys = d.keys := rfl
@[simp] theorem Dev.setAlloc_bsets (h : Nat) (f : Alloc → Alloc) : (d.setAlloc h f).bsets = d.bsets := rfl
@[simp] theorem Dev.setAlloc_time (h : Nat) (f : Alloc → Alloc) : (d.setAlloc h f).time = d.time := rfl
@[simp] theorem Dev.setAlloc_tdm (h : Nat) (f : Alloc → Alloc) : (d.setAlloc h f).tdm = d.tdm := rfl
@[simp] theorem Dev.setAlloc_prot (h : Nat) (f : Alloc → Alloc) : (d.setAlloc h f).prot = d.prot := rfl
@[simp] theorem Dev.setAlloc_eqTable (h : Nat) (f : Alloc → Alloc) : (d.setAlloc h f).eqTable = d.eqTable := rfl
@[simp] theorem Dev.setAlloc_lanes (h : Nat) (f : Alloc → Alloc) : (d.setAlloc h f).lanes = d.lanes := rfl
@[simp] theorem Dev.setAlloc_ports (h : Nat) (f : Alloc → Alloc) : (d.setAlloc h f).ports = d.ports := rfl
@[simp] theorem Dev.setAlloc_window (h : Nat) (f : Alloc → Alloc) : (d.setAlloc h f).window = d.window := rfl
@[simp] theorem Dev.setAlloc_windowNext (h : Nat) (f : Alloc → Alloc) : (d.setAlloc h f).windowNext = d.windowNext := rfl
@[simp] theorem Dev.setAlloc_windowEnd (h : Nat) (f : Alloc → Alloc) : (d.setAlloc h f).windowEnd = d.windowEnd := rfl
@[simp] theorem Dev.setAlloc_health (h : Nat) (f : Alloc → Alloc) : (d.setAlloc h f).health = d.health := rfl
@[simp] theorem Dev.setAlloc_termDom (h : Nat) (f : Alloc → Alloc) : (d.setAlloc h f).termDom = d.termDom := rfl
@[simp] theorem Dev.setAlloc_flowDom (h : Nat) (f : Alloc → Alloc) : (d.setAlloc h f).flowDom = d.flowDom := rfl
@[simp] theorem Dev.setAlloc_pins (h : Nat) (f : Alloc → Alloc) : (d.setAlloc h f).pins = d.pins := rfl
@[simp] theorem Dev.setAlloc_out (h : Nat) (f : Alloc → Alloc) : (d.setAlloc h f).out = d.out := rfl
@[simp] theorem Dev.setAlloc_freeCount (h : Nat) (f : Alloc → Alloc) : (d.setAlloc h f).freeCount = d.freeCount := rfl

/-! ### `Dev.setPort` -/

@[simp] theorem Dev.setPort_sys (l : Nat) (f : Port → Port) : (d.setPort l f).sys = d.sys := rfl
@[simp] theorem Dev.setPort_doms (l : Nat) (f : Port → Port) : (d.setPort l f).doms = d.doms := rfl
@[simp] theorem Dev.setPort_rotor (l : Nat) (f : Port → Port) : (d.setPort l f).rotor = d.rotor := rfl
@[simp] theorem Dev.setPort_execs (l : Nat) (f : Port → Port) : (d.setPort l f).execs = d.execs := rfl
@[simp] theorem Dev.setPort_drains (l : Nat) (f : Port → Port) : (d.setPort l f).drains = d.drains := rfl
@[simp] theorem Dev.setPort_vers (l : Nat) (f : Port → Port) : (d.setPort l f).vers = d.vers := rfl
@[simp] theorem Dev.setPort_chans (l : Nat) (f : Port → Port) : (d.setPort l f).chans = d.chans := rfl
@[simp] theorem Dev.setPort_trees (l : Nat) (f : Port → Port) : (d.setPort l f).trees = d.trees := rfl
@[simp] theorem Dev.setPort_terms (l : Nat) (f : Port → Port) : (d.setPort l f).terms = d.terms := rfl
@[simp] theorem Dev.setPort_allocs (l : Nat) (f : Port → Port) : (d.setPort l f).allocs = d.allocs := rfl
@[simp] theorem Dev.setPort_cls (l : Nat) (f : Port → Port) : (d.setPort l f).cls = d.cls := rfl
@[simp] theorem Dev.setPort_fwd (l : Nat) (f : Port → Port) : (d.setPort l f).fwd = d.fwd := rfl
@[simp] theorem Dev.setPort_sw (l : Nat) (f : Port → Port) : (d.setPort l f).sw = d.sw := rfl
@[simp] theorem Dev.setPort_flows (l : Nat) (f : Port → Port) : (d.setPort l f).flows = d.flows := rfl
@[simp] theorem Dev.setPort_meters (l : Nat) (f : Port → Port) : (d.setPort l f).meters = d.meters := rfl
@[simp] theorem Dev.setPort_gates (l : Nat) (f : Port → Port) : (d.setPort l f).gates = d.gates := rfl
@[simp] theorem Dev.setPort_keys (l : Nat) (f : Port → Port) : (d.setPort l f).keys = d.keys := rfl
@[simp] theorem Dev.setPort_bsets (l : Nat) (f : Port → Port) : (d.setPort l f).bsets = d.bsets := rfl
@[simp] theorem Dev.setPort_time (l : Nat) (f : Port → Port) : (d.setPort l f).time = d.time := rfl
@[simp] theorem Dev.setPort_tdm (l : Nat) (f : Port → Port) : (d.setPort l f).tdm = d.tdm := rfl
@[simp] theorem Dev.setPort_prot (l : Nat) (f : Port → Port) : (d.setPort l f).prot = d.prot := rfl
@[simp] theorem Dev.setPort_eqTable (l : Nat) (f : Port → Port) : (d.setPort l f).eqTable = d.eqTable := rfl
@[simp] theorem Dev.setPort_lanes (l : Nat) (f : Port → Port) : (d.setPort l f).lanes = d.lanes := rfl
@[simp] theorem Dev.setPort_ports (l : Nat) (f : Port → Port) : (d.setPort l f).ports = d.ports.put l (f (d.port l)) := rfl
@[simp] theorem Dev.setPort_window (l : Nat) (f : Port → Port) : (d.setPort l f).window = d.window := rfl
@[simp] theorem Dev.setPort_windowNext (l : Nat) (f : Port → Port) : (d.setPort l f).windowNext = d.windowNext := rfl
@[simp] theorem Dev.setPort_windowEnd (l : Nat) (f : Port → Port) : (d.setPort l f).windowEnd = d.windowEnd := rfl
@[simp] theorem Dev.setPort_health (l : Nat) (f : Port → Port) : (d.setPort l f).health = d.health := rfl
@[simp] theorem Dev.setPort_termDom (l : Nat) (f : Port → Port) : (d.setPort l f).termDom = d.termDom := rfl
@[simp] theorem Dev.setPort_flowDom (l : Nat) (f : Port → Port) : (d.setPort l f).flowDom = d.flowDom := rfl
@[simp] theorem Dev.setPort_pins (l : Nat) (f : Port → Port) : (d.setPort l f).pins = d.pins := rfl
@[simp] theorem Dev.setPort_out (l : Nat) (f : Port → Port) : (d.setPort l f).out = d.out := rfl
@[simp] theorem Dev.setPort_freeCount (l : Nat) (f : Port → Port) : (d.setPort l f).freeCount = d.freeCount := rfl

/-! ### `Dev.setKey` -/

@[simp] theorem Dev.setKey_sys (k : Nat) (f : KeySlot → KeySlot) : (d.setKey k f).sys = d.sys := rfl
@[simp] theorem Dev.setKey_doms (k : Nat) (f : KeySlot → KeySlot) : (d.setKey k f).doms = d.doms := rfl
@[simp] theorem Dev.setKey_rotor (k : Nat) (f : KeySlot → KeySlot) : (d.setKey k f).rotor = d.rotor := rfl
@[simp] theorem Dev.setKey_execs (k : Nat) (f : KeySlot → KeySlot) : (d.setKey k f).execs = d.execs := rfl
@[simp] theorem Dev.setKey_drains (k : Nat) (f : KeySlot → KeySlot) : (d.setKey k f).drains = d.drains := rfl
@[simp] theorem Dev.setKey_vers (k : Nat) (f : KeySlot → KeySlot) : (d.setKey k f).vers = d.vers := rfl
@[simp] theorem Dev.setKey_chans (k : Nat) (f : KeySlot → KeySlot) : (d.setKey k f).chans = d.chans := rfl
@[simp] theorem Dev.setKey_trees (k : Nat) (f : KeySlot → KeySlot) : (d.setKey k f).trees = d.trees := rfl
@[simp] theorem Dev.setKey_terms (k : Nat) (f : KeySlot → KeySlot) : (d.setKey k f).terms = d.terms := rfl
@[simp] theorem Dev.setKey_allocs (k : Nat) (f : KeySlot → KeySlot) : (d.setKey k f).allocs = d.allocs := rfl
@[simp] theorem Dev.setKey_cls (k : Nat) (f : KeySlot → KeySlot) : (d.setKey k f).cls = d.cls := rfl
@[simp] theorem Dev.setKey_fwd (k : Nat) (f : KeySlot → KeySlot) : (d.setKey k f).fwd = d.fwd := rfl
@[simp] theorem Dev.setKey_sw (k : Nat) (f : KeySlot → KeySlot) : (d.setKey k f).sw = d.sw := rfl
@[simp] theorem Dev.setKey_flows (k : Nat) (f : KeySlot → KeySlot) : (d.setKey k f).flows = d.flows := rfl
@[simp] theorem Dev.setKey_meters (k : Nat) (f : KeySlot → KeySlot) : (d.setKey k f).meters = d.meters := rfl
@[simp] theorem Dev.setKey_gates (k : Nat) (f : KeySlot → KeySlot) : (d.setKey k f).gates = d.gates := rfl
@[simp] theorem Dev.setKey_keys (k : Nat) (f : KeySlot → KeySlot) : (d.setKey k f).keys = d.keys.put k (f (d.key k)) := rfl
@[simp] theorem Dev.setKey_bsets (k : Nat) (f : KeySlot → KeySlot) : (d.setKey k f).bsets = d.bsets := rfl
@[simp] theorem Dev.setKey_time (k : Nat) (f : KeySlot → KeySlot) : (d.setKey k f).time = d.time := rfl
@[simp] theorem Dev.setKey_tdm (k : Nat) (f : KeySlot → KeySlot) : (d.setKey k f).tdm = d.tdm := rfl
@[simp] theorem Dev.setKey_prot (k : Nat) (f : KeySlot → KeySlot) : (d.setKey k f).prot = d.prot := rfl
@[simp] theorem Dev.setKey_eqTable (k : Nat) (f : KeySlot → KeySlot) : (d.setKey k f).eqTable = d.eqTable := rfl
@[simp] theorem Dev.setKey_lanes (k : Nat) (f : KeySlot → KeySlot) : (d.setKey k f).lanes = d.lanes := rfl
@[simp] theorem Dev.setKey_ports (k : Nat) (f : KeySlot → KeySlot) : (d.setKey k f).ports = d.ports := rfl
@[simp] theorem Dev.setKey_window (k : Nat) (f : KeySlot → KeySlot) : (d.setKey k f).window = d.window := rfl
@[simp] theorem Dev.setKey_windowNext (k : Nat) (f : KeySlot → KeySlot) : (d.setKey k f).windowNext = d.windowNext := rfl
@[simp] theorem Dev.setKey_windowEnd (k : Nat) (f : KeySlot → KeySlot) : (d.setKey k f).windowEnd = d.windowEnd := rfl
@[simp] theorem Dev.setKey_health (k : Nat) (f : KeySlot → KeySlot) : (d.setKey k f).health = d.health := rfl
@[simp] theorem Dev.setKey_termDom (k : Nat) (f : KeySlot → KeySlot) : (d.setKey k f).termDom = d.termDom := rfl
@[simp] theorem Dev.setKey_flowDom (k : Nat) (f : KeySlot → KeySlot) : (d.setKey k f).flowDom = d.flowDom := rfl
@[simp] theorem Dev.setKey_pins (k : Nat) (f : KeySlot → KeySlot) : (d.setKey k f).pins = d.pins := rfl
@[simp] theorem Dev.setKey_out (k : Nat) (f : KeySlot → KeySlot) : (d.setKey k f).out = d.out := rfl
@[simp] theorem Dev.setKey_freeCount (k : Nat) (f : KeySlot → KeySlot) : (d.setKey k f).freeCount = d.freeCount := rfl

/-! ### `Dev.settle` -/

@[simp] theorem Dev.settle_sys : (d.settle).sys = d.sys := rfl
@[simp] theorem Dev.settle_doms : (d.settle).doms = d.doms := rfl
@[simp] theorem Dev.settle_rotor : (d.settle).rotor = d.rotor := rfl
@[simp] theorem Dev.settle_execs : (d.settle).execs = d.execs := rfl
@[simp] theorem Dev.settle_drains : (d.settle).drains = d.drains := rfl
@[simp] theorem Dev.settle_vers : (d.settle).vers = d.vers := rfl
@[simp] theorem Dev.settle_chans : (d.settle).chans = d.chans := rfl
@[simp] theorem Dev.settle_trees : (d.settle).trees = d.trees := rfl
@[simp] theorem Dev.settle_terms : (d.settle).terms = d.terms := rfl
@[simp] theorem Dev.settle_allocs : (d.settle).allocs = d.allocs := rfl
@[simp] theorem Dev.settle_cls : (d.settle).cls = d.cls := rfl
@[simp] theorem Dev.settle_fwd : (d.settle).fwd = d.fwd := rfl
@[simp] theorem Dev.settle_sw : (d.settle).sw = d.sw := rfl
@[simp] theorem Dev.settle_flows : (d.settle).flows = d.flows := rfl
@[simp] theorem Dev.settle_meters : (d.settle).meters = d.meters := rfl
@[simp] theorem Dev.settle_gates : (d.settle).gates = d.gates := rfl
@[simp] theorem Dev.settle_keys : (d.settle).keys = d.keys := rfl
@[simp] theorem Dev.settle_bsets : (d.settle).bsets = d.bsets := rfl
@[simp] theorem Dev.settle_time : (d.settle).time = d.time := rfl
@[simp] theorem Dev.settle_tdm : (d.settle).tdm = d.tdm := rfl
@[simp] theorem Dev.settle_prot : (d.settle).prot = d.prot := rfl
@[simp] theorem Dev.settle_eqTable : (d.settle).eqTable = d.eqTable := rfl
@[simp] theorem Dev.settle_lanes : (d.settle).lanes = d.lanes := rfl
@[simp] theorem Dev.settle_ports : (d.settle).ports = d.ports := rfl
@[simp] theorem Dev.settle_window : (d.settle).window = d.window := rfl
@[simp] theorem Dev.settle_windowNext : (d.settle).windowNext = d.windowNext := rfl
@[simp] theorem Dev.settle_windowEnd : (d.settle).windowEnd = d.windowEnd := rfl
@[simp] theorem Dev.settle_health : (d.settle).health = d.health := rfl
@[simp] theorem Dev.settle_termDom : (d.settle).termDom = d.termDom := rfl
@[simp] theorem Dev.settle_flowDom : (d.settle).flowDom = d.flowDom := rfl
@[simp] theorem Dev.settle_pins : (d.settle).pins = d.pinsNow := rfl
@[simp] theorem Dev.settle_out : (d.settle).out = d.out := rfl
@[simp] theorem Dev.settle_freeCount : (d.settle).freeCount = d.freeCount := rfl

/-! ### `Dev.setTime` -/

@[simp] theorem Dev.setTime_sys (f : Time → Time) : (d.setTime f).sys = d.sys := rfl
@[simp] theorem Dev.setTime_doms (f : Time → Time) : (d.setTime f).doms = d.doms := rfl
@[simp] theorem Dev.setTime_rotor (f : Time → Time) : (d.setTime f).rotor = d.rotor := rfl
@[simp] theorem Dev.setTime_execs (f : Time → Time) : (d.setTime f).execs = d.execs := rfl
@[simp] theorem Dev.setTime_drains (f : Time → Time) : (d.setTime f).drains = d.drains := rfl
@[simp] theorem Dev.setTime_vers (f : Time → Time) : (d.setTime f).vers = d.vers := rfl
@[simp] theorem Dev.setTime_chans (f : Time → Time) : (d.setTime f).chans = d.chans := rfl
@[simp] theorem Dev.setTime_trees (f : Time → Time) : (d.setTime f).trees = d.trees := rfl
@[simp] theorem Dev.setTime_terms (f : Time → Time) : (d.setTime f).terms = d.terms := rfl
@[simp] theorem Dev.setTime_allocs (f : Time → Time) : (d.setTime f).allocs = d.allocs := rfl
@[simp] theorem Dev.setTime_cls (f : Time → Time) : (d.setTime f).cls = d.cls := rfl
@[simp] theorem Dev.setTime_fwd (f : Time → Time) : (d.setTime f).fwd = d.fwd := rfl
@[simp] theorem Dev.setTime_sw (f : Time → Time) : (d.setTime f).sw = d.sw := rfl
@[simp] theorem Dev.setTime_flows (f : Time → Time) : (d.setTime f).flows = d.flows := rfl
@[simp] theorem Dev.setTime_meters (f : Time → Time) : (d.setTime f).meters = d.meters := rfl
@[simp] theorem Dev.setTime_gates (f : Time → Time) : (d.setTime f).gates = d.gates := rfl
@[simp] theorem Dev.setTime_keys (f : Time → Time) : (d.setTime f).keys = d.keys := rfl
@[simp] theorem Dev.setTime_bsets (f : Time → Time) : (d.setTime f).bsets = d.bsets := rfl
@[simp] theorem Dev.setTime_time (f : Time → Time) : (d.setTime f).time = f d.time := rfl
@[simp] theorem Dev.setTime_tdm (f : Time → Time) : (d.setTime f).tdm = d.tdm := rfl
@[simp] theorem Dev.setTime_prot (f : Time → Time) : (d.setTime f).prot = d.prot := rfl
@[simp] theorem Dev.setTime_eqTable (f : Time → Time) : (d.setTime f).eqTable = d.eqTable := rfl
@[simp] theorem Dev.setTime_lanes (f : Time → Time) : (d.setTime f).lanes = d.lanes := rfl
@[simp] theorem Dev.setTime_ports (f : Time → Time) : (d.setTime f).ports = d.ports := rfl
@[simp] theorem Dev.setTime_window (f : Time → Time) : (d.setTime f).window = d.window := rfl
@[simp] theorem Dev.setTime_windowNext (f : Time → Time) : (d.setTime f).windowNext = d.windowNext := rfl
@[simp] theorem Dev.setTime_windowEnd (f : Time → Time) : (d.setTime f).windowEnd = d.windowEnd := rfl
@[simp] theorem Dev.setTime_health (f : Time → Time) : (d.setTime f).health = d.health := rfl
@[simp] theorem Dev.setTime_termDom (f : Time → Time) : (d.setTime f).termDom = d.termDom := rfl
@[simp] theorem Dev.setTime_flowDom (f : Time → Time) : (d.setTime f).flowDom = d.flowDom := rfl
@[simp] theorem Dev.setTime_pins (f : Time → Time) : (d.setTime f).pins = d.pins := rfl
@[simp] theorem Dev.setTime_out (f : Time → Time) : (d.setTime f).out = d.out := rfl
@[simp] theorem Dev.setTime_freeCount (f : Time → Time) : (d.setTime f).freeCount = d.freeCount := rfl

/-! ### `Dev.setVers` -/

@[simp] theorem Dev.setVers_sys (f : Vers → Vers) : (d.setVers f).sys = d.sys := rfl
@[simp] theorem Dev.setVers_doms (f : Vers → Vers) : (d.setVers f).doms = d.doms := rfl
@[simp] theorem Dev.setVers_rotor (f : Vers → Vers) : (d.setVers f).rotor = d.rotor := rfl
@[simp] theorem Dev.setVers_execs (f : Vers → Vers) : (d.setVers f).execs = d.execs := rfl
@[simp] theorem Dev.setVers_drains (f : Vers → Vers) : (d.setVers f).drains = d.drains := rfl
@[simp] theorem Dev.setVers_vers (f : Vers → Vers) : (d.setVers f).vers = f d.vers := rfl
@[simp] theorem Dev.setVers_chans (f : Vers → Vers) : (d.setVers f).chans = d.chans := rfl
@[simp] theorem Dev.setVers_trees (f : Vers → Vers) : (d.setVers f).trees = d.trees := rfl
@[simp] theorem Dev.setVers_terms (f : Vers → Vers) : (d.setVers f).terms = d.terms := rfl
@[simp] theorem Dev.setVers_allocs (f : Vers → Vers) : (d.setVers f).allocs = d.allocs := rfl
@[simp] theorem Dev.setVers_cls (f : Vers → Vers) : (d.setVers f).cls = d.cls := rfl
@[simp] theorem Dev.setVers_fwd (f : Vers → Vers) : (d.setVers f).fwd = d.fwd := rfl
@[simp] theorem Dev.setVers_sw (f : Vers → Vers) : (d.setVers f).sw = d.sw := rfl
@[simp] theorem Dev.setVers_flows (f : Vers → Vers) : (d.setVers f).flows = d.flows := rfl
@[simp] theorem Dev.setVers_meters (f : Vers → Vers) : (d.setVers f).meters = d.meters := rfl
@[simp] theorem Dev.setVers_gates (f : Vers → Vers) : (d.setVers f).gates = d.gates := rfl
@[simp] theorem Dev.setVers_keys (f : Vers → Vers) : (d.setVers f).keys = d.keys := rfl
@[simp] theorem Dev.setVers_bsets (f : Vers → Vers) : (d.setVers f).bsets = d.bsets := rfl
@[simp] theorem Dev.setVers_time (f : Vers → Vers) : (d.setVers f).time = d.time := rfl
@[simp] theorem Dev.setVers_tdm (f : Vers → Vers) : (d.setVers f).tdm = d.tdm := rfl
@[simp] theorem Dev.setVers_prot (f : Vers → Vers) : (d.setVers f).prot = d.prot := rfl
@[simp] theorem Dev.setVers_eqTable (f : Vers → Vers) : (d.setVers f).eqTable = d.eqTable := rfl
@[simp] theorem Dev.setVers_lanes (f : Vers → Vers) : (d.setVers f).lanes = d.lanes := rfl
@[simp] theorem Dev.setVers_ports (f : Vers → Vers) : (d.setVers f).ports = d.ports := rfl
@[simp] theorem Dev.setVers_window (f : Vers → Vers) : (d.setVers f).window = d.window := rfl
@[simp] theorem Dev.setVers_windowNext (f : Vers → Vers) : (d.setVers f).windowNext = d.windowNext := rfl
@[simp] theorem Dev.setVers_windowEnd (f : Vers → Vers) : (d.setVers f).windowEnd = d.windowEnd := rfl
@[simp] theorem Dev.setVers_health (f : Vers → Vers) : (d.setVers f).health = d.health := rfl
@[simp] theorem Dev.setVers_termDom (f : Vers → Vers) : (d.setVers f).termDom = d.termDom := rfl
@[simp] theorem Dev.setVers_flowDom (f : Vers → Vers) : (d.setVers f).flowDom = d.flowDom := rfl
@[simp] theorem Dev.setVers_pins (f : Vers → Vers) : (d.setVers f).pins = d.pins := rfl
@[simp] theorem Dev.setVers_out (f : Vers → Vers) : (d.setVers f).out = d.out := rfl
@[simp] theorem Dev.setVers_freeCount (f : Vers → Vers) : (d.setVers f).freeCount = d.freeCount := rfl

/-! ### `Dev.setProt` -/

@[simp] theorem Dev.setProt_sys (f : Prot → Prot) : (d.setProt f).sys = d.sys := rfl
@[simp] theorem Dev.setProt_doms (f : Prot → Prot) : (d.setProt f).doms = d.doms := rfl
@[simp] theorem Dev.setProt_rotor (f : Prot → Prot) : (d.setProt f).rotor = d.rotor := rfl
@[simp] theorem Dev.setProt_execs (f : Prot → Prot) : (d.setProt f).execs = d.execs := rfl
@[simp] theorem Dev.setProt_drains (f : Prot → Prot) : (d.setProt f).drains = d.drains := rfl
@[simp] theorem Dev.setProt_vers (f : Prot → Prot) : (d.setProt f).vers = d.vers := rfl
@[simp] theorem Dev.setProt_chans (f : Prot → Prot) : (d.setProt f).chans = d.chans := rfl
@[simp] theorem Dev.setProt_trees (f : Prot → Prot) : (d.setProt f).trees = d.trees := rfl
@[simp] theorem Dev.setProt_terms (f : Prot → Prot) : (d.setProt f).terms = d.terms := rfl
@[simp] theorem Dev.setProt_allocs (f : Prot → Prot) : (d.setProt f).allocs = d.allocs := rfl
@[simp] theorem Dev.setProt_cls (f : Prot → Prot) : (d.setProt f).cls = d.cls := rfl
@[simp] theorem Dev.setProt_fwd (f : Prot → Prot) : (d.setProt f).fwd = d.fwd := rfl
@[simp] theorem Dev.setProt_sw (f : Prot → Prot) : (d.setProt f).sw = d.sw := rfl
@[simp] theorem Dev.setProt_flows (f : Prot → Prot) : (d.setProt f).flows = d.flows := rfl
@[simp] theorem Dev.setProt_meters (f : Prot → Prot) : (d.setProt f).meters = d.meters := rfl
@[simp] theorem Dev.setProt_gates (f : Prot → Prot) : (d.setProt f).gates = d.gates := rfl
@[simp] theorem Dev.setProt_keys (f : Prot → Prot) : (d.setProt f).keys = d.keys := rfl
@[simp] theorem Dev.setProt_bsets (f : Prot → Prot) : (d.setProt f).bsets = d.bsets := rfl
@[simp] theorem Dev.setProt_time (f : Prot → Prot) : (d.setProt f).time = d.time := rfl
@[simp] theorem Dev.setProt_tdm (f : Prot → Prot) : (d.setProt f).tdm = d.tdm := rfl
@[simp] theorem Dev.setProt_prot (f : Prot → Prot) : (d.setProt f).prot = f d.prot := rfl
@[simp] theorem Dev.setProt_eqTable (f : Prot → Prot) : (d.setProt f).eqTable = d.eqTable := rfl
@[simp] theorem Dev.setProt_lanes (f : Prot → Prot) : (d.setProt f).lanes = d.lanes := rfl
@[simp] theorem Dev.setProt_ports (f : Prot → Prot) : (d.setProt f).ports = d.ports := rfl
@[simp] theorem Dev.setProt_window (f : Prot → Prot) : (d.setProt f).window = d.window := rfl
@[simp] theorem Dev.setProt_windowNext (f : Prot → Prot) : (d.setProt f).windowNext = d.windowNext := rfl
@[simp] theorem Dev.setProt_windowEnd (f : Prot → Prot) : (d.setProt f).windowEnd = d.windowEnd := rfl
@[simp] theorem Dev.setProt_health (f : Prot → Prot) : (d.setProt f).health = d.health := rfl
@[simp] theorem Dev.setProt_termDom (f : Prot → Prot) : (d.setProt f).termDom = d.termDom := rfl
@[simp] theorem Dev.setProt_flowDom (f : Prot → Prot) : (d.setProt f).flowDom = d.flowDom := rfl
@[simp] theorem Dev.setProt_pins (f : Prot → Prot) : (d.setProt f).pins = d.pins := rfl
@[simp] theorem Dev.setProt_out (f : Prot → Prot) : (d.setProt f).out = d.out := rfl
@[simp] theorem Dev.setProt_freeCount (f : Prot → Prot) : (d.setProt f).freeCount = d.freeCount := rfl

/-! ### `Dev.setDumps` -/

@[simp] theorem Dev.setDumps_sys (f : Tbl DumpSet → Tbl DumpSet) : (d.setDumps f).sys = d.sys := rfl
@[simp] theorem Dev.setDumps_doms (f : Tbl DumpSet → Tbl DumpSet) : (d.setDumps f).doms = d.doms := rfl
@[simp] theorem Dev.setDumps_rotor (f : Tbl DumpSet → Tbl DumpSet) : (d.setDumps f).rotor = d.rotor := rfl
@[simp] theorem Dev.setDumps_execs (f : Tbl DumpSet → Tbl DumpSet) : (d.setDumps f).execs = d.execs := rfl
@[simp] theorem Dev.setDumps_drains (f : Tbl DumpSet → Tbl DumpSet) : (d.setDumps f).drains = d.drains := rfl
@[simp] theorem Dev.setDumps_vers (f : Tbl DumpSet → Tbl DumpSet) : (d.setDumps f).vers = d.vers := rfl
@[simp] theorem Dev.setDumps_chans (f : Tbl DumpSet → Tbl DumpSet) : (d.setDumps f).chans = d.chans := rfl
@[simp] theorem Dev.setDumps_trees (f : Tbl DumpSet → Tbl DumpSet) : (d.setDumps f).trees = d.trees := rfl
@[simp] theorem Dev.setDumps_terms (f : Tbl DumpSet → Tbl DumpSet) : (d.setDumps f).terms = d.terms := rfl
@[simp] theorem Dev.setDumps_allocs (f : Tbl DumpSet → Tbl DumpSet) : (d.setDumps f).allocs = d.allocs := rfl
@[simp] theorem Dev.setDumps_cls (f : Tbl DumpSet → Tbl DumpSet) : (d.setDumps f).cls = d.cls := rfl
@[simp] theorem Dev.setDumps_fwd (f : Tbl DumpSet → Tbl DumpSet) : (d.setDumps f).fwd = d.fwd := rfl
@[simp] theorem Dev.setDumps_sw (f : Tbl DumpSet → Tbl DumpSet) : (d.setDumps f).sw = d.sw := rfl
@[simp] theorem Dev.setDumps_flows (f : Tbl DumpSet → Tbl DumpSet) : (d.setDumps f).flows = d.flows := rfl
@[simp] theorem Dev.setDumps_meters (f : Tbl DumpSet → Tbl DumpSet) : (d.setDumps f).meters = d.meters := rfl
@[simp] theorem Dev.setDumps_gates (f : Tbl DumpSet → Tbl DumpSet) : (d.setDumps f).gates = d.gates := rfl
@[simp] theorem Dev.setDumps_keys (f : Tbl DumpSet → Tbl DumpSet) : (d.setDumps f).keys = d.keys := rfl
@[simp] theorem Dev.setDumps_bsets (f : Tbl DumpSet → Tbl DumpSet) : (d.setDumps f).bsets = d.bsets := rfl
@[simp] theorem Dev.setDumps_time (f : Tbl DumpSet → Tbl DumpSet) : (d.setDumps f).time = d.time := rfl
@[simp] theorem Dev.setDumps_tdm (f : Tbl DumpSet → Tbl DumpSet) : (d.setDumps f).tdm = d.tdm := rfl
@[simp] theorem Dev.setDumps_prot (f : Tbl DumpSet → Tbl DumpSet) : (d.setDumps f).prot = d.prot := rfl
@[simp] theorem Dev.setDumps_eqTable (f : Tbl DumpSet → Tbl DumpSet) : (d.setDumps f).eqTable = d.eqTable := rfl
@[simp] theorem Dev.setDumps_lanes (f : Tbl DumpSet → Tbl DumpSet) : (d.setDumps f).lanes = d.lanes := rfl
@[simp] theorem Dev.setDumps_ports (f : Tbl DumpSet → Tbl DumpSet) : (d.setDumps f).ports = d.ports := rfl
@[simp] theorem Dev.setDumps_window (f : Tbl DumpSet → Tbl DumpSet) : (d.setDumps f).window = d.window := rfl
@[simp] theorem Dev.setDumps_windowNext (f : Tbl DumpSet → Tbl DumpSet) : (d.setDumps f).windowNext = d.windowNext := rfl
@[simp] theorem Dev.setDumps_windowEnd (f : Tbl DumpSet → Tbl DumpSet) : (d.setDumps f).windowEnd = d.windowEnd := rfl
@[simp] theorem Dev.setDumps_health (f : Tbl DumpSet → Tbl DumpSet) : (d.setDumps f).health = { d.health with dumps := f d.health.dumps } := rfl
@[simp] theorem Dev.setDumps_termDom (f : Tbl DumpSet → Tbl DumpSet) : (d.setDumps f).termDom = d.termDom := rfl
@[simp] theorem Dev.setDumps_flowDom (f : Tbl DumpSet → Tbl DumpSet) : (d.setDumps f).flowDom = d.flowDom := rfl
@[simp] theorem Dev.setDumps_pins (f : Tbl DumpSet → Tbl DumpSet) : (d.setDumps f).pins = d.pins := rfl
@[simp] theorem Dev.setDumps_out (f : Tbl DumpSet → Tbl DumpSet) : (d.setDumps f).out = d.out := rfl
@[simp] theorem Dev.setDumps_freeCount (f : Tbl DumpSet → Tbl DumpSet) : (d.setDumps f).freeCount = d.freeCount := rfl

/-! ### `Dev.setPipe` -/

@[simp] theorem Dev.setPipe_sys (p : Nat) (f : Pipe → Pipe) : (d.setPipe p f).sys = d.sys := rfl
@[simp] theorem Dev.setPipe_doms (p : Nat) (f : Pipe → Pipe) : (d.setPipe p f).doms = d.doms := rfl
@[simp] theorem Dev.setPipe_rotor (p : Nat) (f : Pipe → Pipe) : (d.setPipe p f).rotor = d.rotor := rfl
@[simp] theorem Dev.setPipe_execs (p : Nat) (f : Pipe → Pipe) : (d.setPipe p f).execs = d.execs := rfl
@[simp] theorem Dev.setPipe_drains (p : Nat) (f : Pipe → Pipe) : (d.setPipe p f).drains = d.drains := rfl
@[simp] theorem Dev.setPipe_vers (p : Nat) (f : Pipe → Pipe) : (d.setPipe p f).vers = d.vers := rfl
@[simp] theorem Dev.setPipe_chans (p : Nat) (f : Pipe → Pipe) : (d.setPipe p f).chans = d.chans := rfl
@[simp] theorem Dev.setPipe_trees (p : Nat) (f : Pipe → Pipe) : (d.setPipe p f).trees = d.trees := rfl
@[simp] theorem Dev.setPipe_terms (p : Nat) (f : Pipe → Pipe) : (d.setPipe p f).terms = d.terms := rfl
@[simp] theorem Dev.setPipe_allocs (p : Nat) (f : Pipe → Pipe) : (d.setPipe p f).allocs = d.allocs := rfl
@[simp] theorem Dev.setPipe_cls (p : Nat) (f : Pipe → Pipe) : (d.setPipe p f).cls = d.cls := rfl
@[simp] theorem Dev.setPipe_fwd (p : Nat) (f : Pipe → Pipe) : (d.setPipe p f).fwd = d.fwd := rfl
@[simp] theorem Dev.setPipe_sw (p : Nat) (f : Pipe → Pipe) : (d.setPipe p f).sw = { d.sw with pipes := d.sw.pipes.put p (f (d.pipe p)) } := rfl
@[simp] theorem Dev.setPipe_flows (p : Nat) (f : Pipe → Pipe) : (d.setPipe p f).flows = d.flows := rfl
@[simp] theorem Dev.setPipe_meters (p : Nat) (f : Pipe → Pipe) : (d.setPipe p f).meters = d.meters := rfl
@[simp] theorem Dev.setPipe_gates (p : Nat) (f : Pipe → Pipe) : (d.setPipe p f).gates = d.gates := rfl
@[simp] theorem Dev.setPipe_keys (p : Nat) (f : Pipe → Pipe) : (d.setPipe p f).keys = d.keys := rfl
@[simp] theorem Dev.setPipe_bsets (p : Nat) (f : Pipe → Pipe) : (d.setPipe p f).bsets = d.bsets := rfl
@[simp] theorem Dev.setPipe_time (p : Nat) (f : Pipe → Pipe) : (d.setPipe p f).time = d.time := rfl
@[simp] theorem Dev.setPipe_tdm (p : Nat) (f : Pipe → Pipe) : (d.setPipe p f).tdm = d.tdm := rfl
@[simp] theorem Dev.setPipe_prot (p : Nat) (f : Pipe → Pipe) : (d.setPipe p f).prot = d.prot := rfl
@[simp] theorem Dev.setPipe_eqTable (p : Nat) (f : Pipe → Pipe) : (d.setPipe p f).eqTable = d.eqTable := rfl
@[simp] theorem Dev.setPipe_lanes (p : Nat) (f : Pipe → Pipe) : (d.setPipe p f).lanes = d.lanes := rfl
@[simp] theorem Dev.setPipe_ports (p : Nat) (f : Pipe → Pipe) : (d.setPipe p f).ports = d.ports := rfl
@[simp] theorem Dev.setPipe_window (p : Nat) (f : Pipe → Pipe) : (d.setPipe p f).window = d.window := rfl
@[simp] theorem Dev.setPipe_windowNext (p : Nat) (f : Pipe → Pipe) : (d.setPipe p f).windowNext = d.windowNext := rfl
@[simp] theorem Dev.setPipe_windowEnd (p : Nat) (f : Pipe → Pipe) : (d.setPipe p f).windowEnd = d.windowEnd := rfl
@[simp] theorem Dev.setPipe_health (p : Nat) (f : Pipe → Pipe) : (d.setPipe p f).health = d.health := rfl
@[simp] theorem Dev.setPipe_termDom (p : Nat) (f : Pipe → Pipe) : (d.setPipe p f).termDom = d.termDom := rfl
@[simp] theorem Dev.setPipe_flowDom (p : Nat) (f : Pipe → Pipe) : (d.setPipe p f).flowDom = d.flowDom := rfl
@[simp] theorem Dev.setPipe_pins (p : Nat) (f : Pipe → Pipe) : (d.setPipe p f).pins = d.pins := rfl
@[simp] theorem Dev.setPipe_out (p : Nat) (f : Pipe → Pipe) : (d.setPipe p f).out = d.out := rfl
@[simp] theorem Dev.setPipe_freeCount (p : Nat) (f : Pipe → Pipe) : (d.setPipe p f).freeCount = d.freeCount := rfl

/-! ### `Dev.setRx` -/

@[simp] theorem Dev.setRx_sys (r : Nat) (f : FrameRing → FrameRing) : (d.setRx r f).sys = d.sys := rfl
@[simp] theorem Dev.setRx_doms (r : Nat) (f : FrameRing → FrameRing) : (d.setRx r f).doms = d.doms := rfl
@[simp] theorem Dev.setRx_rotor (r : Nat) (f : FrameRing → FrameRing) : (d.setRx r f).rotor = d.rotor := rfl
@[simp] theorem Dev.setRx_execs (r : Nat) (f : FrameRing → FrameRing) : (d.setRx r f).execs = d.execs := rfl
@[simp] theorem Dev.setRx_drains (r : Nat) (f : FrameRing → FrameRing) : (d.setRx r f).drains = d.drains := rfl
@[simp] theorem Dev.setRx_vers (r : Nat) (f : FrameRing → FrameRing) : (d.setRx r f).vers = d.vers := rfl
@[simp] theorem Dev.setRx_chans (r : Nat) (f : FrameRing → FrameRing) : (d.setRx r f).chans = d.chans := rfl
@[simp] theorem Dev.setRx_trees (r : Nat) (f : FrameRing → FrameRing) : (d.setRx r f).trees = d.trees := rfl
@[simp] theorem Dev.setRx_terms (r : Nat) (f : FrameRing → FrameRing) : (d.setRx r f).terms = d.terms := rfl
@[simp] theorem Dev.setRx_allocs (r : Nat) (f : FrameRing → FrameRing) : (d.setRx r f).allocs = d.allocs := rfl
@[simp] theorem Dev.setRx_cls (r : Nat) (f : FrameRing → FrameRing) : (d.setRx r f).cls = d.cls := rfl
@[simp] theorem Dev.setRx_fwd (r : Nat) (f : FrameRing → FrameRing) : (d.setRx r f).fwd = d.fwd := rfl
@[simp] theorem Dev.setRx_sw (r : Nat) (f : FrameRing → FrameRing) : (d.setRx r f).sw = { d.sw with rx := d.sw.rx.adjust r f } := rfl
@[simp] theorem Dev.setRx_flows (r : Nat) (f : FrameRing → FrameRing) : (d.setRx r f).flows = d.flows := rfl
@[simp] theorem Dev.setRx_meters (r : Nat) (f : FrameRing → FrameRing) : (d.setRx r f).meters = d.meters := rfl
@[simp] theorem Dev.setRx_gates (r : Nat) (f : FrameRing → FrameRing) : (d.setRx r f).gates = d.gates := rfl
@[simp] theorem Dev.setRx_keys (r : Nat) (f : FrameRing → FrameRing) : (d.setRx r f).keys = d.keys := rfl
@[simp] theorem Dev.setRx_bsets (r : Nat) (f : FrameRing → FrameRing) : (d.setRx r f).bsets = d.bsets := rfl
@[simp] theorem Dev.setRx_time (r : Nat) (f : FrameRing → FrameRing) : (d.setRx r f).time = d.time := rfl
@[simp] theorem Dev.setRx_tdm (r : Nat) (f : FrameRing → FrameRing) : (d.setRx r f).tdm = d.tdm := rfl
@[simp] theorem Dev.setRx_prot (r : Nat) (f : FrameRing → FrameRing) : (d.setRx r f).prot = d.prot := rfl
@[simp] theorem Dev.setRx_eqTable (r : Nat) (f : FrameRing → FrameRing) : (d.setRx r f).eqTable = d.eqTable := rfl
@[simp] theorem Dev.setRx_lanes (r : Nat) (f : FrameRing → FrameRing) : (d.setRx r f).lanes = d.lanes := rfl
@[simp] theorem Dev.setRx_ports (r : Nat) (f : FrameRing → FrameRing) : (d.setRx r f).ports = d.ports := rfl
@[simp] theorem Dev.setRx_window (r : Nat) (f : FrameRing → FrameRing) : (d.setRx r f).window = d.window := rfl
@[simp] theorem Dev.setRx_windowNext (r : Nat) (f : FrameRing → FrameRing) : (d.setRx r f).windowNext = d.windowNext := rfl
@[simp] theorem Dev.setRx_windowEnd (r : Nat) (f : FrameRing → FrameRing) : (d.setRx r f).windowEnd = d.windowEnd := rfl
@[simp] theorem Dev.setRx_health (r : Nat) (f : FrameRing → FrameRing) : (d.setRx r f).health = d.health := rfl
@[simp] theorem Dev.setRx_termDom (r : Nat) (f : FrameRing → FrameRing) : (d.setRx r f).termDom = d.termDom := rfl
@[simp] theorem Dev.setRx_flowDom (r : Nat) (f : FrameRing → FrameRing) : (d.setRx r f).flowDom = d.flowDom := rfl
@[simp] theorem Dev.setRx_pins (r : Nat) (f : FrameRing → FrameRing) : (d.setRx r f).pins = d.pins := rfl
@[simp] theorem Dev.setRx_out (r : Nat) (f : FrameRing → FrameRing) : (d.setRx r f).out = d.out := rfl
@[simp] theorem Dev.setRx_freeCount (r : Nat) (f : FrameRing → FrameRing) : (d.setRx r f).freeCount = d.freeCount := rfl

/-! ### `Dev.setTx` -/

@[simp] theorem Dev.setTx_sys (r : Nat) (f : FrameRing → FrameRing) : (d.setTx r f).sys = d.sys := rfl
@[simp] theorem Dev.setTx_doms (r : Nat) (f : FrameRing → FrameRing) : (d.setTx r f).doms = d.doms := rfl
@[simp] theorem Dev.setTx_rotor (r : Nat) (f : FrameRing → FrameRing) : (d.setTx r f).rotor = d.rotor := rfl
@[simp] theorem Dev.setTx_execs (r : Nat) (f : FrameRing → FrameRing) : (d.setTx r f).execs = d.execs := rfl
@[simp] theorem Dev.setTx_drains (r : Nat) (f : FrameRing → FrameRing) : (d.setTx r f).drains = d.drains := rfl
@[simp] theorem Dev.setTx_vers (r : Nat) (f : FrameRing → FrameRing) : (d.setTx r f).vers = d.vers := rfl
@[simp] theorem Dev.setTx_chans (r : Nat) (f : FrameRing → FrameRing) : (d.setTx r f).chans = d.chans := rfl
@[simp] theorem Dev.setTx_trees (r : Nat) (f : FrameRing → FrameRing) : (d.setTx r f).trees = d.trees := rfl
@[simp] theorem Dev.setTx_terms (r : Nat) (f : FrameRing → FrameRing) : (d.setTx r f).terms = d.terms := rfl
@[simp] theorem Dev.setTx_allocs (r : Nat) (f : FrameRing → FrameRing) : (d.setTx r f).allocs = d.allocs := rfl
@[simp] theorem Dev.setTx_cls (r : Nat) (f : FrameRing → FrameRing) : (d.setTx r f).cls = d.cls := rfl
@[simp] theorem Dev.setTx_fwd (r : Nat) (f : FrameRing → FrameRing) : (d.setTx r f).fwd = d.fwd := rfl
@[simp] theorem Dev.setTx_sw (r : Nat) (f : FrameRing → FrameRing) : (d.setTx r f).sw = { d.sw with tx := d.sw.tx.adjust r f } := rfl
@[simp] theorem Dev.setTx_flows (r : Nat) (f : FrameRing → FrameRing) : (d.setTx r f).flows = d.flows := rfl
@[simp] theorem Dev.setTx_meters (r : Nat) (f : FrameRing → FrameRing) : (d.setTx r f).meters = d.meters := rfl
@[simp] theorem Dev.setTx_gates (r : Nat) (f : FrameRing → FrameRing) : (d.setTx r f).gates = d.gates := rfl
@[simp] theorem Dev.setTx_keys (r : Nat) (f : FrameRing → FrameRing) : (d.setTx r f).keys = d.keys := rfl
@[simp] theorem Dev.setTx_bsets (r : Nat) (f : FrameRing → FrameRing) : (d.setTx r f).bsets = d.bsets := rfl
@[simp] theorem Dev.setTx_time (r : Nat) (f : FrameRing → FrameRing) : (d.setTx r f).time = d.time := rfl
@[simp] theorem Dev.setTx_tdm (r : Nat) (f : FrameRing → FrameRing) : (d.setTx r f).tdm = d.tdm := rfl
@[simp] theorem Dev.setTx_prot (r : Nat) (f : FrameRing → FrameRing) : (d.setTx r f).prot = d.prot := rfl
@[simp] theorem Dev.setTx_eqTable (r : Nat) (f : FrameRing → FrameRing) : (d.setTx r f).eqTable = d.eqTable := rfl
@[simp] theorem Dev.setTx_lanes (r : Nat) (f : FrameRing → FrameRing) : (d.setTx r f).lanes = d.lanes := rfl
@[simp] theorem Dev.setTx_ports (r : Nat) (f : FrameRing → FrameRing) : (d.setTx r f).ports = d.ports := rfl
@[simp] theorem Dev.setTx_window (r : Nat) (f : FrameRing → FrameRing) : (d.setTx r f).window = d.window := rfl
@[simp] theorem Dev.setTx_windowNext (r : Nat) (f : FrameRing → FrameRing) : (d.setTx r f).windowNext = d.windowNext := rfl
@[simp] theorem Dev.setTx_windowEnd (r : Nat) (f : FrameRing → FrameRing) : (d.setTx r f).windowEnd = d.windowEnd := rfl
@[simp] theorem Dev.setTx_health (r : Nat) (f : FrameRing → FrameRing) : (d.setTx r f).health = d.health := rfl
@[simp] theorem Dev.setTx_termDom (r : Nat) (f : FrameRing → FrameRing) : (d.setTx r f).termDom = d.termDom := rfl
@[simp] theorem Dev.setTx_flowDom (r : Nat) (f : FrameRing → FrameRing) : (d.setTx r f).flowDom = d.flowDom := rfl
@[simp] theorem Dev.setTx_pins (r : Nat) (f : FrameRing → FrameRing) : (d.setTx r f).pins = d.pins := rfl
@[simp] theorem Dev.setTx_out (r : Nat) (f : FrameRing → FrameRing) : (d.setTx r f).out = d.out := rfl
@[simp] theorem Dev.setTx_freeCount (r : Nat) (f : FrameRing → FrameRing) : (d.setTx r f).freeCount = d.freeCount := rfl

/-! ### `Dev.noteAbandoned` -/

@[simp] theorem Dev.noteAbandoned_sys (l : List DrainObj) : (d.noteAbandoned l).sys = d.sys := rfl
@[simp] theorem Dev.noteAbandoned_doms (l : List DrainObj) : (d.noteAbandoned l).doms = d.doms := rfl
@[simp] theorem Dev.noteAbandoned_rotor (l : List DrainObj) : (d.noteAbandoned l).rotor = d.rotor := rfl
@[simp] theorem Dev.noteAbandoned_execs (l : List DrainObj) : (d.noteAbandoned l).execs = d.execs := rfl
@[simp] theorem Dev.noteAbandoned_vers (l : List DrainObj) : (d.noteAbandoned l).vers = d.vers := rfl
@[simp] theorem Dev.noteAbandoned_chans (l : List DrainObj) : (d.noteAbandoned l).chans = d.chans := rfl
@[simp] theorem Dev.noteAbandoned_trees (l : List DrainObj) : (d.noteAbandoned l).trees = d.trees := rfl
@[simp] theorem Dev.noteAbandoned_terms (l : List DrainObj) : (d.noteAbandoned l).terms = d.terms := rfl
@[simp] theorem Dev.noteAbandoned_allocs (l : List DrainObj) : (d.noteAbandoned l).allocs = d.allocs := rfl
@[simp] theorem Dev.noteAbandoned_cls (l : List DrainObj) : (d.noteAbandoned l).cls = d.cls := rfl
@[simp] theorem Dev.noteAbandoned_fwd (l : List DrainObj) : (d.noteAbandoned l).fwd = d.fwd := rfl
@[simp] theorem Dev.noteAbandoned_sw (l : List DrainObj) : (d.noteAbandoned l).sw = d.sw := rfl
@[simp] theorem Dev.noteAbandoned_flows (l : List DrainObj) : (d.noteAbandoned l).flows = d.flows := rfl
@[simp] theorem Dev.noteAbandoned_meters (l : List DrainObj) : (d.noteAbandoned l).meters = d.meters := rfl
@[simp] theorem Dev.noteAbandoned_gates (l : List DrainObj) : (d.noteAbandoned l).gates = d.gates := rfl
@[simp] theorem Dev.noteAbandoned_keys (l : List DrainObj) : (d.noteAbandoned l).keys = d.keys := rfl
@[simp] theorem Dev.noteAbandoned_bsets (l : List DrainObj) : (d.noteAbandoned l).bsets = d.bsets := rfl
@[simp] theorem Dev.noteAbandoned_time (l : List DrainObj) : (d.noteAbandoned l).time = d.time := rfl
@[simp] theorem Dev.noteAbandoned_tdm (l : List DrainObj) : (d.noteAbandoned l).tdm = d.tdm := rfl
@[simp] theorem Dev.noteAbandoned_prot (l : List DrainObj) : (d.noteAbandoned l).prot = d.prot := rfl
@[simp] theorem Dev.noteAbandoned_eqTable (l : List DrainObj) : (d.noteAbandoned l).eqTable = d.eqTable := rfl
@[simp] theorem Dev.noteAbandoned_lanes (l : List DrainObj) : (d.noteAbandoned l).lanes = d.lanes := rfl
@[simp] theorem Dev.noteAbandoned_ports (l : List DrainObj) : (d.noteAbandoned l).ports = d.ports := rfl
@[simp] theorem Dev.noteAbandoned_window (l : List DrainObj) : (d.noteAbandoned l).window = d.window := rfl
@[simp] theorem Dev.noteAbandoned_windowNext (l : List DrainObj) : (d.noteAbandoned l).windowNext = d.windowNext := rfl
@[simp] theorem Dev.noteAbandoned_windowEnd (l : List DrainObj) : (d.noteAbandoned l).windowEnd = d.windowEnd := rfl
@[simp] theorem Dev.noteAbandoned_health (l : List DrainObj) : (d.noteAbandoned l).health = d.health := rfl
@[simp] theorem Dev.noteAbandoned_termDom (l : List DrainObj) : (d.noteAbandoned l).termDom = d.termDom := rfl
@[simp] theorem Dev.noteAbandoned_flowDom (l : List DrainObj) : (d.noteAbandoned l).flowDom = d.flowDom := rfl
@[simp] theorem Dev.noteAbandoned_pins (l : List DrainObj) : (d.noteAbandoned l).pins = d.pins := rfl
@[simp] theorem Dev.noteAbandoned_out (l : List DrainObj) : (d.noteAbandoned l).out = d.out := rfl
@[simp] theorem Dev.noteAbandoned_freeCount (l : List DrainObj) : (d.noteAbandoned l).freeCount = d.freeCount := rfl

/-! ### `Dev.drainCount` -/

@[simp] theorem Dev.drainCount_sys (o : DrainObj) (a b : Nat) : (d.drainCount o a b).sys = d.sys := rfl
@[simp] theorem Dev.drainCount_doms (o : DrainObj) (a b : Nat) : (d.drainCount o a b).doms = d.doms := rfl
@[simp] theorem Dev.drainCount_rotor (o : DrainObj) (a b : Nat) : (d.drainCount o a b).rotor = d.rotor := rfl
@[simp] theorem Dev.drainCount_execs (o : DrainObj) (a b : Nat) : (d.drainCount o a b).execs = d.execs := rfl
@[simp] theorem Dev.drainCount_vers (o : DrainObj) (a b : Nat) : (d.drainCount o a b).vers = d.vers := rfl
@[simp] theorem Dev.drainCount_chans (o : DrainObj) (a b : Nat) : (d.drainCount o a b).chans = d.chans := rfl
@[simp] theorem Dev.drainCount_trees (o : DrainObj) (a b : Nat) : (d.drainCount o a b).trees = d.trees := rfl
@[simp] theorem Dev.drainCount_terms (o : DrainObj) (a b : Nat) : (d.drainCount o a b).terms = d.terms := rfl
@[simp] theorem Dev.drainCount_allocs (o : DrainObj) (a b : Nat) : (d.drainCount o a b).allocs = d.allocs := rfl
@[simp] theorem Dev.drainCount_cls (o : DrainObj) (a b : Nat) : (d.drainCount o a b).cls = d.cls := rfl
@[simp] theorem Dev.drainCount_fwd (o : DrainObj) (a b : Nat) : (d.drainCount o a b).fwd = d.fwd := rfl
@[simp] theorem Dev.drainCount_sw (o : DrainObj) (a b : Nat) : (d.drainCount o a b).sw = d.sw := rfl
@[simp] theorem Dev.drainCount_flows (o : DrainObj) (a b : Nat) : (d.drainCount o a b).flows = d.flows := rfl
@[simp] theorem Dev.drainCount_meters (o : DrainObj) (a b : Nat) : (d.drainCount o a b).meters = d.meters := rfl
@[simp] theorem Dev.drainCount_gates (o : DrainObj) (a b : Nat) : (d.drainCount o a b).gates = d.gates := rfl
@[simp] theorem Dev.drainCount_keys (o : DrainObj) (a b : Nat) : (d.drainCount o a b).keys = d.keys := rfl
@[simp] theorem Dev.drainCount_bsets (o : DrainObj) (a b : Nat) : (d.drainCount o a b).bsets = d.bsets := rfl
@[simp] theorem Dev.drainCount_time (o : DrainObj) (a b : Nat) : (d.drainCount o a b).time = d.time := rfl
@[simp] theorem Dev.drainCount_tdm (o : DrainObj) (a b : Nat) : (d.drainCount o a b).tdm = d.tdm := rfl
@[simp] theorem Dev.drainCount_prot (o : DrainObj) (a b : Nat) : (d.drainCount o a b).prot = d.prot := rfl
@[simp] theorem Dev.drainCount_eqTable (o : DrainObj) (a b : Nat) : (d.drainCount o a b).eqTable = d.eqTable := rfl
@[simp] theorem Dev.drainCount_lanes (o : DrainObj) (a b : Nat) : (d.drainCount o a b).lanes = d.lanes := rfl
@[simp] theorem Dev.drainCount_ports (o : DrainObj) (a b : Nat) : (d.drainCount o a b).ports = d.ports := rfl
@[simp] theorem Dev.drainCount_window (o : DrainObj) (a b : Nat) : (d.drainCount o a b).window = d.window := rfl
@[simp] theorem Dev.drainCount_windowNext (o : DrainObj) (a b : Nat) : (d.drainCount o a b).windowNext = d.windowNext := rfl
@[simp] theorem Dev.drainCount_windowEnd (o : DrainObj) (a b : Nat) : (d.drainCount o a b).windowEnd = d.windowEnd := rfl
@[simp] theorem Dev.drainCount_health (o : DrainObj) (a b : Nat) : (d.drainCount o a b).health = d.health := rfl
@[simp] theorem Dev.drainCount_termDom (o : DrainObj) (a b : Nat) : (d.drainCount o a b).termDom = d.termDom := rfl
@[simp] theorem Dev.drainCount_flowDom (o : DrainObj) (a b : Nat) : (d.drainCount o a b).flowDom = d.flowDom := rfl
@[simp] theorem Dev.drainCount_pins (o : DrainObj) (a b : Nat) : (d.drainCount o a b).pins = d.pins := rfl
@[simp] theorem Dev.drainCount_out (o : DrainObj) (a b : Nat) : (d.drainCount o a b).out = d.out := rfl
@[simp] theorem Dev.drainCount_freeCount (o : DrainObj) (a b : Nat) : (d.drainCount o a b).freeCount = d.freeCount := rfl

/-! ### `Dev.setHl` -/

@[simp] theorem Dev.setHl_sys (l : Nat) (f : Heritage → Heritage) : (d.setHl l f).sys = d.sys := rfl
@[simp] theorem Dev.setHl_doms (l : Nat) (f : Heritage → Heritage) : (d.setHl l f).doms = d.doms := rfl
@[simp] theorem Dev.setHl_rotor (l : Nat) (f : Heritage → Heritage) : (d.setHl l f).rotor = d.rotor := rfl
@[simp] theorem Dev.setHl_execs (l : Nat) (f : Heritage → Heritage) : (d.setHl l f).execs = d.execs := rfl
@[simp] theorem Dev.setHl_drains (l : Nat) (f : Heritage → Heritage) : (d.setHl l f).drains = d.drains := rfl
@[simp] theorem Dev.setHl_vers (l : Nat) (f : Heritage → Heritage) : (d.setHl l f).vers = d.vers := rfl
@[simp] theorem Dev.setHl_chans (l : Nat) (f : Heritage → Heritage) : (d.setHl l f).chans = d.chans := rfl
@[simp] theorem Dev.setHl_trees (l : Nat) (f : Heritage → Heritage) : (d.setHl l f).trees = d.trees := rfl
@[simp] theorem Dev.setHl_terms (l : Nat) (f : Heritage → Heritage) : (d.setHl l f).terms = d.terms := rfl
@[simp] theorem Dev.setHl_allocs (l : Nat) (f : Heritage → Heritage) : (d.setHl l f).allocs = d.allocs := rfl
@[simp] theorem Dev.setHl_cls (l : Nat) (f : Heritage → Heritage) : (d.setHl l f).cls = d.cls := rfl
@[simp] theorem Dev.setHl_fwd (l : Nat) (f : Heritage → Heritage) : (d.setHl l f).fwd = d.fwd := rfl
@[simp] theorem Dev.setHl_sw (l : Nat) (f : Heritage → Heritage) : (d.setHl l f).sw = d.sw := rfl
@[simp] theorem Dev.setHl_flows (l : Nat) (f : Heritage → Heritage) : (d.setHl l f).flows = d.flows := rfl
@[simp] theorem Dev.setHl_meters (l : Nat) (f : Heritage → Heritage) : (d.setHl l f).meters = d.meters := rfl
@[simp] theorem Dev.setHl_gates (l : Nat) (f : Heritage → Heritage) : (d.setHl l f).gates = d.gates := rfl
@[simp] theorem Dev.setHl_keys (l : Nat) (f : Heritage → Heritage) : (d.setHl l f).keys = d.keys := rfl
@[simp] theorem Dev.setHl_bsets (l : Nat) (f : Heritage → Heritage) : (d.setHl l f).bsets = d.bsets := rfl
@[simp] theorem Dev.setHl_time (l : Nat) (f : Heritage → Heritage) : (d.setHl l f).time = d.time := rfl
@[simp] theorem Dev.setHl_prot (l : Nat) (f : Heritage → Heritage) : (d.setHl l f).prot = d.prot := rfl
@[simp] theorem Dev.setHl_eqTable (l : Nat) (f : Heritage → Heritage) : (d.setHl l f).eqTable = d.eqTable := rfl
@[simp] theorem Dev.setHl_lanes (l : Nat) (f : Heritage → Heritage) : (d.setHl l f).lanes = d.lanes := rfl
@[simp] theorem Dev.setHl_ports (l : Nat) (f : Heritage → Heritage) : (d.setHl l f).ports = d.ports := rfl
@[simp] theorem Dev.setHl_window (l : Nat) (f : Heritage → Heritage) : (d.setHl l f).window = d.window := rfl
@[simp] theorem Dev.setHl_windowNext (l : Nat) (f : Heritage → Heritage) : (d.setHl l f).windowNext = d.windowNext := rfl
@[simp] theorem Dev.setHl_windowEnd (l : Nat) (f : Heritage → Heritage) : (d.setHl l f).windowEnd = d.windowEnd := rfl
@[simp] theorem Dev.setHl_health (l : Nat) (f : Heritage → Heritage) : (d.setHl l f).health = d.health := rfl
@[simp] theorem Dev.setHl_termDom (l : Nat) (f : Heritage → Heritage) : (d.setHl l f).termDom = d.termDom := rfl
@[simp] theorem Dev.setHl_flowDom (l : Nat) (f : Heritage → Heritage) : (d.setHl l f).flowDom = d.flowDom := rfl
@[simp] theorem Dev.setHl_pins (l : Nat) (f : Heritage → Heritage) : (d.setHl l f).pins = d.pins := rfl
@[simp] theorem Dev.setHl_out (l : Nat) (f : Heritage → Heritage) : (d.setHl l f).out = d.out := rfl
@[simp] theorem Dev.setHl_freeCount (l : Nat) (f : Heritage → Heritage) : (d.setHl l f).freeCount = d.freeCount := rfl

/-! ### `Dev.setShadow` -/

@[simp] theorem Dev.setShadow_sys (t : Nat) (f : Shadow → Shadow) : (d.setShadow t f).sys = d.sys := rfl
@[simp] theorem Dev.setShadow_doms (t : Nat) (f : Shadow → Shadow) : (d.setShadow t f).doms = d.doms := rfl
@[simp] theorem Dev.setShadow_rotor (t : Nat) (f : Shadow → Shadow) : (d.setShadow t f).rotor = d.rotor := rfl
@[simp] theorem Dev.setShadow_execs (t : Nat) (f : Shadow → Shadow) : (d.setShadow t f).execs = d.execs := rfl
@[simp] theorem Dev.setShadow_drains (t : Nat) (f : Shadow → Shadow) : (d.setShadow t f).drains = d.drains := rfl
@[simp] theorem Dev.setShadow_vers (t : Nat) (f : Shadow → Shadow) : (d.setShadow t f).vers = d.vers := rfl
@[simp] theorem Dev.setShadow_chans (t : Nat) (f : Shadow → Shadow) : (d.setShadow t f).chans = d.chans := rfl
@[simp] theorem Dev.setShadow_trees (t : Nat) (f : Shadow → Shadow) : (d.setShadow t f).trees = d.trees := rfl
@[simp] theorem Dev.setShadow_terms (t : Nat) (f : Shadow → Shadow) : (d.setShadow t f).terms = d.terms := rfl
@[simp] theorem Dev.setShadow_allocs (t : Nat) (f : Shadow → Shadow) : (d.setShadow t f).allocs = d.allocs := rfl
@[simp] theorem Dev.setShadow_cls (t : Nat) (f : Shadow → Shadow) : (d.setShadow t f).cls = d.cls := rfl
@[simp] theorem Dev.setShadow_fwd (t : Nat) (f : Shadow → Shadow) : (d.setShadow t f).fwd = d.fwd := rfl
@[simp] theorem Dev.setShadow_sw (t : Nat) (f : Shadow → Shadow) : (d.setShadow t f).sw = d.sw := rfl
@[simp] theorem Dev.setShadow_flows (t : Nat) (f : Shadow → Shadow) : (d.setShadow t f).flows = d.flows := rfl
@[simp] theorem Dev.setShadow_meters (t : Nat) (f : Shadow → Shadow) : (d.setShadow t f).meters = d.meters := rfl
@[simp] theorem Dev.setShadow_gates (t : Nat) (f : Shadow → Shadow) : (d.setShadow t f).gates = d.gates := rfl
@[simp] theorem Dev.setShadow_keys (t : Nat) (f : Shadow → Shadow) : (d.setShadow t f).keys = d.keys := rfl
@[simp] theorem Dev.setShadow_bsets (t : Nat) (f : Shadow → Shadow) : (d.setShadow t f).bsets = d.bsets := rfl
@[simp] theorem Dev.setShadow_time (t : Nat) (f : Shadow → Shadow) : (d.setShadow t f).time = d.time := rfl
@[simp] theorem Dev.setShadow_tdm (t : Nat) (f : Shadow → Shadow) : (d.setShadow t f).tdm = d.tdm := rfl
@[simp] theorem Dev.setShadow_eqTable (t : Nat) (f : Shadow → Shadow) : (d.setShadow t f).eqTable = d.eqTable := rfl
@[simp] theorem Dev.setShadow_lanes (t : Nat) (f : Shadow → Shadow) : (d.setShadow t f).lanes = d.lanes := rfl
@[simp] theorem Dev.setShadow_ports (t : Nat) (f : Shadow → Shadow) : (d.setShadow t f).ports = d.ports := rfl
@[simp] theorem Dev.setShadow_window (t : Nat) (f : Shadow → Shadow) : (d.setShadow t f).window = d.window := rfl
@[simp] theorem Dev.setShadow_windowNext (t : Nat) (f : Shadow → Shadow) : (d.setShadow t f).windowNext = d.windowNext := rfl
@[simp] theorem Dev.setShadow_windowEnd (t : Nat) (f : Shadow → Shadow) : (d.setShadow t f).windowEnd = d.windowEnd := rfl
@[simp] theorem Dev.setShadow_health (t : Nat) (f : Shadow → Shadow) : (d.setShadow t f).health = d.health := rfl
@[simp] theorem Dev.setShadow_termDom (t : Nat) (f : Shadow → Shadow) : (d.setShadow t f).termDom = d.termDom := rfl
@[simp] theorem Dev.setShadow_flowDom (t : Nat) (f : Shadow → Shadow) : (d.setShadow t f).flowDom = d.flowDom := rfl
@[simp] theorem Dev.setShadow_pins (t : Nat) (f : Shadow → Shadow) : (d.setShadow t f).pins = d.pins := rfl
@[simp] theorem Dev.setShadow_out (t : Nat) (f : Shadow → Shadow) : (d.setShadow t f).out = d.out := rfl
@[simp] theorem Dev.setShadow_freeCount (t : Nat) (f : Shadow → Shadow) : (d.setShadow t f).freeCount = d.freeCount := rfl

/-! ### `Dev.setLane` -/

@[simp] theorem Dev.setLane_sys (k l : Nat) (f : Lane → Lane) : (d.setLane k l f).sys = d.sys := rfl
@[simp] theorem Dev.setLane_doms (k l : Nat) (f : Lane → Lane) : (d.setLane k l f).doms = d.doms := rfl
@[simp] theorem Dev.setLane_rotor (k l : Nat) (f : Lane → Lane) : (d.setLane k l f).rotor = d.rotor := rfl
@[simp] theorem Dev.setLane_execs (k l : Nat) (f : Lane → Lane) : (d.setLane k l f).execs = d.execs := rfl
@[simp] theorem Dev.setLane_drains (k l : Nat) (f : Lane → Lane) : (d.setLane k l f).drains = d.drains := rfl
@[simp] theorem Dev.setLane_vers (k l : Nat) (f : Lane → Lane) : (d.setLane k l f).vers = d.vers := rfl
@[simp] theorem Dev.setLane_chans (k l : Nat) (f : Lane → Lane) : (d.setLane k l f).chans = d.chans := rfl
@[simp] theorem Dev.setLane_trees (k l : Nat) (f : Lane → Lane) : (d.setLane k l f).trees = d.trees := rfl
@[simp] theorem Dev.setLane_terms (k l : Nat) (f : Lane → Lane) : (d.setLane k l f).terms = d.terms := rfl
@[simp] theorem Dev.setLane_allocs (k l : Nat) (f : Lane → Lane) : (d.setLane k l f).allocs = d.allocs := rfl
@[simp] theorem Dev.setLane_cls (k l : Nat) (f : Lane → Lane) : (d.setLane k l f).cls = d.cls := rfl
@[simp] theorem Dev.setLane_fwd (k l : Nat) (f : Lane → Lane) : (d.setLane k l f).fwd = d.fwd := rfl
@[simp] theorem Dev.setLane_sw (k l : Nat) (f : Lane → Lane) : (d.setLane k l f).sw = d.sw := rfl
@[simp] theorem Dev.setLane_flows (k l : Nat) (f : Lane → Lane) : (d.setLane k l f).flows = d.flows := rfl
@[simp] theorem Dev.setLane_meters (k l : Nat) (f : Lane → Lane) : (d.setLane k l f).meters = d.meters := rfl
@[simp] theorem Dev.setLane_gates (k l : Nat) (f : Lane → Lane) : (d.setLane k l f).gates = d.gates := rfl
@[simp] theorem Dev.setLane_keys (k l : Nat) (f : Lane → Lane) : (d.setLane k l f).keys = d.keys := rfl
@[simp] theorem Dev.setLane_bsets (k l : Nat) (f : Lane → Lane) : (d.setLane k l f).bsets = d.bsets := rfl
@[simp] theorem Dev.setLane_time (k l : Nat) (f : Lane → Lane) : (d.setLane k l f).time = d.time := rfl
@[simp] theorem Dev.setLane_tdm (k l : Nat) (f : Lane → Lane) : (d.setLane k l f).tdm = d.tdm := rfl
@[simp] theorem Dev.setLane_prot (k l : Nat) (f : Lane → Lane) : (d.setLane k l f).prot = d.prot := rfl
@[simp] theorem Dev.setLane_eqTable (k l : Nat) (f : Lane → Lane) : (d.setLane k l f).eqTable = d.eqTable := rfl
@[simp] theorem Dev.setLane_ports (k l : Nat) (f : Lane → Lane) : (d.setLane k l f).ports = d.ports := rfl
@[simp] theorem Dev.setLane_window (k l : Nat) (f : Lane → Lane) : (d.setLane k l f).window = d.window := rfl
@[simp] theorem Dev.setLane_windowNext (k l : Nat) (f : Lane → Lane) : (d.setLane k l f).windowNext = d.windowNext := rfl
@[simp] theorem Dev.setLane_windowEnd (k l : Nat) (f : Lane → Lane) : (d.setLane k l f).windowEnd = d.windowEnd := rfl
@[simp] theorem Dev.setLane_health (k l : Nat) (f : Lane → Lane) : (d.setLane k l f).health = d.health := rfl
@[simp] theorem Dev.setLane_termDom (k l : Nat) (f : Lane → Lane) : (d.setLane k l f).termDom = d.termDom := rfl
@[simp] theorem Dev.setLane_flowDom (k l : Nat) (f : Lane → Lane) : (d.setLane k l f).flowDom = d.flowDom := rfl
@[simp] theorem Dev.setLane_pins (k l : Nat) (f : Lane → Lane) : (d.setLane k l f).pins = d.pins := rfl
@[simp] theorem Dev.setLane_out (k l : Nat) (f : Lane → Lane) : (d.setLane k l f).out = d.out := rfl
@[simp] theorem Dev.setLane_freeCount (k l : Nat) (f : Lane → Lane) : (d.setLane k l f).freeCount = d.freeCount := rfl

/-! ### `Dev.reply` -/

@[simp] theorem Dev.reply_sys (n : Nat) (tag : BitVec 16) (op : Nat) (st : Status) (t : Nat) (res : List Nat) : (d.reply n tag op st t res).sys = d.sys := rfl
@[simp] theorem Dev.reply_rotor (n : Nat) (tag : BitVec 16) (op : Nat) (st : Status) (t : Nat) (res : List Nat) : (d.reply n tag op st t res).rotor = d.rotor := rfl
@[simp] theorem Dev.reply_execs (n : Nat) (tag : BitVec 16) (op : Nat) (st : Status) (t : Nat) (res : List Nat) : (d.reply n tag op st t res).execs = d.execs := rfl
@[simp] theorem Dev.reply_drains (n : Nat) (tag : BitVec 16) (op : Nat) (st : Status) (t : Nat) (res : List Nat) : (d.reply n tag op st t res).drains = d.drains := rfl
@[simp] theorem Dev.reply_vers (n : Nat) (tag : BitVec 16) (op : Nat) (st : Status) (t : Nat) (res : List Nat) : (d.reply n tag op st t res).vers = d.vers := rfl
@[simp] theorem Dev.reply_chans (n : Nat) (tag : BitVec 16) (op : Nat) (st : Status) (t : Nat) (res : List Nat) : (d.reply n tag op st t res).chans = d.chans := rfl
@[simp] theorem Dev.reply_trees (n : Nat) (tag : BitVec 16) (op : Nat) (st : Status) (t : Nat) (res : List Nat) : (d.reply n tag op st t res).trees = d.trees := rfl
@[simp] theorem Dev.reply_terms (n : Nat) (tag : BitVec 16) (op : Nat) (st : Status) (t : Nat) (res : List Nat) : (d.reply n tag op st t res).terms = d.terms := rfl
@[simp] theorem Dev.reply_allocs (n : Nat) (tag : BitVec 16) (op : Nat) (st : Status) (t : Nat) (res : List Nat) : (d.reply n tag op st t res).allocs = d.allocs := rfl
@[simp] theorem Dev.reply_cls (n : Nat) (tag : BitVec 16) (op : Nat) (st : Status) (t : Nat) (res : List Nat) : (d.reply n tag op st t res).cls = d.cls := rfl
@[simp] theorem Dev.reply_fwd (n : Nat) (tag : BitVec 16) (op : Nat) (st : Status) (t : Nat) (res : List Nat) : (d.reply n tag op st t res).fwd = d.fwd := rfl
@[simp] theorem Dev.reply_sw (n : Nat) (tag : BitVec 16) (op : Nat) (st : Status) (t : Nat) (res : List Nat) : (d.reply n tag op st t res).sw = d.sw := rfl
@[simp] theorem Dev.reply_flows (n : Nat) (tag : BitVec 16) (op : Nat) (st : Status) (t : Nat) (res : List Nat) : (d.reply n tag op st t res).flows = d.flows := rfl
@[simp] theorem Dev.reply_meters (n : Nat) (tag : BitVec 16) (op : Nat) (st : Status) (t : Nat) (res : List Nat) : (d.reply n tag op st t res).meters = d.meters := rfl
@[simp] theorem Dev.reply_gates (n : Nat) (tag : BitVec 16) (op : Nat) (st : Status) (t : Nat) (res : List Nat) : (d.reply n tag op st t res).gates = d.gates := rfl
@[simp] theorem Dev.reply_keys (n : Nat) (tag : BitVec 16) (op : Nat) (st : Status) (t : Nat) (res : List Nat) : (d.reply n tag op st t res).keys = d.keys := rfl
@[simp] theorem Dev.reply_bsets (n : Nat) (tag : BitVec 16) (op : Nat) (st : Status) (t : Nat) (res : List Nat) : (d.reply n tag op st t res).bsets = d.bsets := rfl
@[simp] theorem Dev.reply_time (n : Nat) (tag : BitVec 16) (op : Nat) (st : Status) (t : Nat) (res : List Nat) : (d.reply n tag op st t res).time = d.time := rfl
@[simp] theorem Dev.reply_tdm (n : Nat) (tag : BitVec 16) (op : Nat) (st : Status) (t : Nat) (res : List Nat) : (d.reply n tag op st t res).tdm = d.tdm := rfl
@[simp] theorem Dev.reply_prot (n : Nat) (tag : BitVec 16) (op : Nat) (st : Status) (t : Nat) (res : List Nat) : (d.reply n tag op st t res).prot = d.prot := rfl
@[simp] theorem Dev.reply_eqTable (n : Nat) (tag : BitVec 16) (op : Nat) (st : Status) (t : Nat) (res : List Nat) : (d.reply n tag op st t res).eqTable = d.eqTable := rfl
@[simp] theorem Dev.reply_lanes (n : Nat) (tag : BitVec 16) (op : Nat) (st : Status) (t : Nat) (res : List Nat) : (d.reply n tag op st t res).lanes = d.lanes := rfl
@[simp] theorem Dev.reply_ports (n : Nat) (tag : BitVec 16) (op : Nat) (st : Status) (t : Nat) (res : List Nat) : (d.reply n tag op st t res).ports = d.ports := rfl
@[simp] theorem Dev.reply_window (n : Nat) (tag : BitVec 16) (op : Nat) (st : Status) (t : Nat) (res : List Nat) : (d.reply n tag op st t res).window = d.window := rfl
@[simp] theorem Dev.reply_windowNext (n : Nat) (tag : BitVec 16) (op : Nat) (st : Status) (t : Nat) (res : List Nat) : (d.reply n tag op st t res).windowNext = d.windowNext := rfl
@[simp] theorem Dev.reply_windowEnd (n : Nat) (tag : BitVec 16) (op : Nat) (st : Status) (t : Nat) (res : List Nat) : (d.reply n tag op st t res).windowEnd = d.windowEnd := rfl
@[simp] theorem Dev.reply_health (n : Nat) (tag : BitVec 16) (op : Nat) (st : Status) (t : Nat) (res : List Nat) : (d.reply n tag op st t res).health = d.health := rfl
@[simp] theorem Dev.reply_termDom (n : Nat) (tag : BitVec 16) (op : Nat) (st : Status) (t : Nat) (res : List Nat) : (d.reply n tag op st t res).termDom = d.termDom := rfl
@[simp] theorem Dev.reply_flowDom (n : Nat) (tag : BitVec 16) (op : Nat) (st : Status) (t : Nat) (res : List Nat) : (d.reply n tag op st t res).flowDom = d.flowDom := rfl
@[simp] theorem Dev.reply_pins (n : Nat) (tag : BitVec 16) (op : Nat) (st : Status) (t : Nat) (res : List Nat) : (d.reply n tag op st t res).pins = d.pins := rfl
@[simp] theorem Dev.reply_freeCount (n : Nat) (tag : BitVec 16) (op : Nat) (st : Status) (t : Nat) (res : List Nat) : (d.reply n tag op st t res).freeCount = d.freeCount := rfl

/-! ### `Dev.finish` -/

@[simp] theorem Dev.finish_sys (e : Exec) (st : Status) (res : List Nat) : (d.finish e st res).sys = d.sys := rfl
@[simp] theorem Dev.finish_rotor (e : Exec) (st : Status) (res : List Nat) : (d.finish e st res).rotor = d.rotor := rfl
@[simp] theorem Dev.finish_drains (e : Exec) (st : Status) (res : List Nat) : (d.finish e st res).drains = d.drains := rfl
@[simp] theorem Dev.finish_vers (e : Exec) (st : Status) (res : List Nat) : (d.finish e st res).vers = d.vers := rfl
@[simp] theorem Dev.finish_chans (e : Exec) (st : Status) (res : List Nat) : (d.finish e st res).chans = d.chans := rfl
@[simp] theorem Dev.finish_trees (e : Exec) (st : Status) (res : List Nat) : (d.finish e st res).trees = d.trees := rfl
@[simp] theorem Dev.finish_terms (e : Exec) (st : Status) (res : List Nat) : (d.finish e st res).terms = d.terms := rfl
@[simp] theorem Dev.finish_allocs (e : Exec) (st : Status) (res : List Nat) : (d.finish e st res).allocs = d.allocs := rfl
@[simp] theorem Dev.finish_cls (e : Exec) (st : Status) (res : List Nat) : (d.finish e st res).cls = d.cls := rfl
@[simp] theorem Dev.finish_fwd (e : Exec) (st : Status) (res : List Nat) : (d.finish e st res).fwd = d.fwd := rfl
@[simp] theorem Dev.finish_sw (e : Exec) (st : Status) (res : List Nat) : (d.finish e st res).sw = d.sw := rfl
@[simp] theorem Dev.finish_flows (e : Exec) (st : Status) (res : List Nat) : (d.finish e st res).flows = d.flows := rfl
@[simp] theorem Dev.finish_meters (e : Exec) (st : Status) (res : List Nat) : (d.finish e st res).meters = d.meters := rfl
@[simp] theorem Dev.finish_gates (e : Exec) (st : Status) (res : List Nat) : (d.finish e st res).gates = d.gates := rfl
@[simp] theorem Dev.finish_keys (e : Exec) (st : Status) (res : List Nat) : (d.finish e st res).keys = d.keys := rfl
@[simp] theorem Dev.finish_bsets (e : Exec) (st : Status) (res : List Nat) : (d.finish e st res).bsets = d.bsets := rfl
@[simp] theorem Dev.finish_time (e : Exec) (st : Status) (res : List Nat) : (d.finish e st res).time = d.time := rfl
@[simp] theorem Dev.finish_tdm (e : Exec) (st : Status) (res : List Nat) : (d.finish e st res).tdm = d.tdm := rfl
@[simp] theorem Dev.finish_prot (e : Exec) (st : Status) (res : List Nat) : (d.finish e st res).prot = d.prot := rfl
@[simp] theorem Dev.finish_eqTable (e : Exec) (st : Status) (res : List Nat) : (d.finish e st res).eqTable = d.eqTable := rfl
@[simp] theorem Dev.finish_lanes (e : Exec) (st : Status) (res : List Nat) : (d.finish e st res).lanes = d.lanes := rfl
@[simp] theorem Dev.finish_ports (e : Exec) (st : Status) (res : List Nat) : (d.finish e st res).ports = d.ports := rfl
@[simp] theorem Dev.finish_window (e : Exec) (st : Status) (res : List Nat) : (d.finish e st res).window = d.window := rfl
@[simp] theorem Dev.finish_windowNext (e : Exec) (st : Status) (res : List Nat) : (d.finish e st res).windowNext = d.windowNext := rfl
@[simp] theorem Dev.finish_windowEnd (e : Exec) (st : Status) (res : List Nat) : (d.finish e st res).windowEnd = d.windowEnd := rfl
@[simp] theorem Dev.finish_health (e : Exec) (st : Status) (res : List Nat) : (d.finish e st res).health = d.health := rfl
@[simp] theorem Dev.finish_termDom (e : Exec) (st : Status) (res : List Nat) : (d.finish e st res).termDom = d.termDom := rfl
@[simp] theorem Dev.finish_flowDom (e : Exec) (st : Status) (res : List Nat) : (d.finish e st res).flowDom = d.flowDom := rfl
@[simp] theorem Dev.finish_pins (e : Exec) (st : Status) (res : List Nat) : (d.finish e st res).pins = d.pins := rfl
@[simp] theorem Dev.finish_freeCount (e : Exec) (st : Status) (res : List Nat) : (d.finish e st res).freeCount = d.freeCount := rfl

/-! ### `Dev.ok` -/

@[simp] theorem Dev.ok_sys (e : Exec) : (d.ok e).sys = d.sys := rfl
@[simp] theorem Dev.ok_rotor (e : Exec) : (d.ok e).rotor = d.rotor := rfl
@[simp] theorem Dev.ok_drains (e : Exec) : (d.ok e).drains = d.drains := rfl
@[simp] theorem Dev.ok_vers (e : Exec) : (d.ok e).vers = d.vers := rfl
@[simp] theorem Dev.ok_chans (e : Exec) : (d.ok e).chans = d.chans := rfl
@[simp] theorem Dev.ok_trees (e : Exec) : (d.ok e).trees = d.trees := rfl
@[simp] theorem Dev.ok_terms (e : Exec) : (d.ok e).terms = d.terms := rfl
@[simp] theorem Dev.ok_allocs (e : Exec) : (d.ok e).allocs = d.allocs := rfl
@[simp] theorem Dev.ok_cls (e : Exec) : (d.ok e).cls = d.cls := rfl
@[simp] theorem Dev.ok_fwd (e : Exec) : (d.ok e).fwd = d.fwd := rfl
@[simp] theorem Dev.ok_sw (e : Exec) : (d.ok e).sw = d.sw := rfl
@[simp] theorem Dev.ok_flows (e : Exec) : (d.ok e).flows = d.flows := rfl
@[simp] theorem Dev.ok_meters (e : Exec) : (d.ok e).meters = d.meters := rfl
@[simp] theorem Dev.ok_gates (e : Exec) : (d.ok e).gates = d.gates := rfl
@[simp] theorem Dev.ok_keys (e : Exec) : (d.ok e).keys = d.keys := rfl
@[simp] theorem Dev.ok_bsets (e : Exec) : (d.ok e).bsets = d.bsets := rfl
@[simp] theorem Dev.ok_time (e : Exec) : (d.ok e).time = d.time := rfl
@[simp] theorem Dev.ok_tdm (e : Exec) : (d.ok e).tdm = d.tdm := rfl
@[simp] theorem Dev.ok_prot (e : Exec) : (d.ok e).prot = d.prot := rfl
@[simp] theorem Dev.ok_eqTable (e : Exec) : (d.ok e).eqTable = d.eqTable := rfl
@[simp] theorem Dev.ok_lanes (e : Exec) : (d.ok e).lanes = d.lanes := rfl
@[simp] theorem Dev.ok_ports (e : Exec) : (d.ok e).ports = d.ports := rfl
@[simp] theorem Dev.ok_window (e : Exec) : (d.ok e).window = d.window := rfl
@[simp] theorem Dev.ok_windowNext (e : Exec) : (d.ok e).windowNext = d.windowNext := rfl
@[simp] theorem Dev.ok_windowEnd (e : Exec) : (d.ok e).windowEnd = d.windowEnd := rfl
@[simp] theorem Dev.ok_health (e : Exec) : (d.ok e).health = d.health := rfl
@[simp] theorem Dev.ok_termDom (e : Exec) : (d.ok e).termDom = d.termDom := rfl
@[simp] theorem Dev.ok_flowDom (e : Exec) : (d.ok e).flowDom = d.flowDom := rfl
@[simp] theorem Dev.ok_pins (e : Exec) : (d.ok e).pins = d.pins := rfl
@[simp] theorem Dev.ok_freeCount (e : Exec) : (d.ok e).freeCount = d.freeCount := rfl

/-! ### `Dev.stick` -/

@[simp] theorem Dev.stick_sys (n b : Nat) : (d.stick n b).sys = d.sys := rfl
@[simp] theorem Dev.stick_rotor (n b : Nat) : (d.stick n b).rotor = d.rotor := rfl
@[simp] theorem Dev.stick_execs (n b : Nat) : (d.stick n b).execs = d.execs := rfl
@[simp] theorem Dev.stick_drains (n b : Nat) : (d.stick n b).drains = d.drains := rfl
@[simp] theorem Dev.stick_vers (n b : Nat) : (d.stick n b).vers = d.vers := rfl
@[simp] theorem Dev.stick_chans (n b : Nat) : (d.stick n b).chans = d.chans := rfl
@[simp] theorem Dev.stick_trees (n b : Nat) : (d.stick n b).trees = d.trees := rfl
@[simp] theorem Dev.stick_terms (n b : Nat) : (d.stick n b).terms = d.terms := rfl
@[simp] theorem Dev.stick_allocs (n b : Nat) : (d.stick n b).allocs = d.allocs := rfl
@[simp] theorem Dev.stick_cls (n b : Nat) : (d.stick n b).cls = d.cls := rfl
@[simp] theorem Dev.stick_fwd (n b : Nat) : (d.stick n b).fwd = d.fwd := rfl
@[simp] theorem Dev.stick_sw (n b : Nat) : (d.stick n b).sw = d.sw := rfl
@[simp] theorem Dev.stick_flows (n b : Nat) : (d.stick n b).flows = d.flows := rfl
@[simp] theorem Dev.stick_meters (n b : Nat) : (d.stick n b).meters = d.meters := rfl
@[simp] theorem Dev.stick_gates (n b : Nat) : (d.stick n b).gates = d.gates := rfl
@[simp] theorem Dev.stick_keys (n b : Nat) : (d.stick n b).keys = d.keys := rfl
@[simp] theorem Dev.stick_bsets (n b : Nat) : (d.stick n b).bsets = d.bsets := rfl
@[simp] theorem Dev.stick_time (n b : Nat) : (d.stick n b).time = d.time := rfl
@[simp] theorem Dev.stick_tdm (n b : Nat) : (d.stick n b).tdm = d.tdm := rfl
@[simp] theorem Dev.stick_prot (n b : Nat) : (d.stick n b).prot = d.prot := rfl
@[simp] theorem Dev.stick_eqTable (n b : Nat) : (d.stick n b).eqTable = d.eqTable := rfl
@[simp] theorem Dev.stick_lanes (n b : Nat) : (d.stick n b).lanes = d.lanes := rfl
@[simp] theorem Dev.stick_ports (n b : Nat) : (d.stick n b).ports = d.ports := rfl
@[simp] theorem Dev.stick_window (n b : Nat) : (d.stick n b).window = d.window := rfl
@[simp] theorem Dev.stick_windowNext (n b : Nat) : (d.stick n b).windowNext = d.windowNext := rfl
@[simp] theorem Dev.stick_windowEnd (n b : Nat) : (d.stick n b).windowEnd = d.windowEnd := rfl
@[simp] theorem Dev.stick_health (n b : Nat) : (d.stick n b).health = d.health := rfl
@[simp] theorem Dev.stick_termDom (n b : Nat) : (d.stick n b).termDom = d.termDom := rfl
@[simp] theorem Dev.stick_flowDom (n b : Nat) : (d.stick n b).flowDom = d.flowDom := rfl
@[simp] theorem Dev.stick_pins (n b : Nat) : (d.stick n b).pins = d.pins := rfl
@[simp] theorem Dev.stick_out (n b : Nat) : (d.stick n b).out = d.out := rfl
@[simp] theorem Dev.stick_freeCount (n b : Nat) : (d.stick n b).freeCount = d.freeCount := rfl

/-! ### `Dev.alarm` -/

@[simp] theorem Dev.alarm_sys (b : Nat) : (d.alarm b).sys = d.sys := rfl
@[simp] theorem Dev.alarm_rotor (b : Nat) : (d.alarm b).rotor = d.rotor := rfl
@[simp] theorem Dev.alarm_execs (b : Nat) : (d.alarm b).execs = d.execs := rfl
@[simp] theorem Dev.alarm_drains (b : Nat) : (d.alarm b).drains = d.drains := rfl
@[simp] theorem Dev.alarm_vers (b : Nat) : (d.alarm b).vers = d.vers := rfl
@[simp] theorem Dev.alarm_chans (b : Nat) : (d.alarm b).chans = d.chans := rfl
@[simp] theorem Dev.alarm_trees (b : Nat) : (d.alarm b).trees = d.trees := rfl
@[simp] theorem Dev.alarm_terms (b : Nat) : (d.alarm b).terms = d.terms := rfl
@[simp] theorem Dev.alarm_allocs (b : Nat) : (d.alarm b).allocs = d.allocs := rfl
@[simp] theorem Dev.alarm_cls (b : Nat) : (d.alarm b).cls = d.cls := rfl
@[simp] theorem Dev.alarm_fwd (b : Nat) : (d.alarm b).fwd = d.fwd := rfl
@[simp] theorem Dev.alarm_sw (b : Nat) : (d.alarm b).sw = d.sw := rfl
@[simp] theorem Dev.alarm_flows (b : Nat) : (d.alarm b).flows = d.flows := rfl
@[simp] theorem Dev.alarm_meters (b : Nat) : (d.alarm b).meters = d.meters := rfl
@[simp] theorem Dev.alarm_gates (b : Nat) : (d.alarm b).gates = d.gates := rfl
@[simp] theorem Dev.alarm_keys (b : Nat) : (d.alarm b).keys = d.keys := rfl
@[simp] theorem Dev.alarm_bsets (b : Nat) : (d.alarm b).bsets = d.bsets := rfl
@[simp] theorem Dev.alarm_time (b : Nat) : (d.alarm b).time = d.time := rfl
@[simp] theorem Dev.alarm_tdm (b : Nat) : (d.alarm b).tdm = d.tdm := rfl
@[simp] theorem Dev.alarm_prot (b : Nat) : (d.alarm b).prot = d.prot := rfl
@[simp] theorem Dev.alarm_eqTable (b : Nat) : (d.alarm b).eqTable = d.eqTable := rfl
@[simp] theorem Dev.alarm_lanes (b : Nat) : (d.alarm b).lanes = d.lanes := rfl
@[simp] theorem Dev.alarm_ports (b : Nat) : (d.alarm b).ports = d.ports := rfl
@[simp] theorem Dev.alarm_window (b : Nat) : (d.alarm b).window = d.window := rfl
@[simp] theorem Dev.alarm_windowNext (b : Nat) : (d.alarm b).windowNext = d.windowNext := rfl
@[simp] theorem Dev.alarm_windowEnd (b : Nat) : (d.alarm b).windowEnd = d.windowEnd := rfl
@[simp] theorem Dev.alarm_health (b : Nat) : (d.alarm b).health = d.health := rfl
@[simp] theorem Dev.alarm_termDom (b : Nat) : (d.alarm b).termDom = d.termDom := rfl
@[simp] theorem Dev.alarm_flowDom (b : Nat) : (d.alarm b).flowDom = d.flowDom := rfl
@[simp] theorem Dev.alarm_pins (b : Nat) : (d.alarm b).pins = d.pins := rfl
@[simp] theorem Dev.alarm_out (b : Nat) : (d.alarm b).out = d.out := rfl
@[simp] theorem Dev.alarm_freeCount (b : Nat) : (d.alarm b).freeCount = d.freeCount := rfl

/-! ### `Dev.fetch` -/

@[simp] theorem Dev.fetch_sys (p : Packet) : (d.fetch p).sys = d.sys := rfl
@[simp] theorem Dev.fetch_rotor (p : Packet) : (d.fetch p).rotor = d.rotor := rfl
@[simp] theorem Dev.fetch_execs (p : Packet) : (d.fetch p).execs = d.execs := rfl
@[simp] theorem Dev.fetch_drains (p : Packet) : (d.fetch p).drains = d.drains := rfl
@[simp] theorem Dev.fetch_vers (p : Packet) : (d.fetch p).vers = d.vers := rfl
@[simp] theorem Dev.fetch_chans (p : Packet) : (d.fetch p).chans = d.chans := rfl
@[simp] theorem Dev.fetch_trees (p : Packet) : (d.fetch p).trees = d.trees := rfl
@[simp] theorem Dev.fetch_terms (p : Packet) : (d.fetch p).terms = d.terms := rfl
@[simp] theorem Dev.fetch_allocs (p : Packet) : (d.fetch p).allocs = d.allocs := rfl
@[simp] theorem Dev.fetch_cls (p : Packet) : (d.fetch p).cls = d.cls := rfl
@[simp] theorem Dev.fetch_fwd (p : Packet) : (d.fetch p).fwd = d.fwd := rfl
@[simp] theorem Dev.fetch_sw (p : Packet) : (d.fetch p).sw = d.sw := rfl
@[simp] theorem Dev.fetch_flows (p : Packet) : (d.fetch p).flows = d.flows := rfl
@[simp] theorem Dev.fetch_meters (p : Packet) : (d.fetch p).meters = d.meters := rfl
@[simp] theorem Dev.fetch_gates (p : Packet) : (d.fetch p).gates = d.gates := rfl
@[simp] theorem Dev.fetch_keys (p : Packet) : (d.fetch p).keys = d.keys := rfl
@[simp] theorem Dev.fetch_bsets (p : Packet) : (d.fetch p).bsets = d.bsets := rfl
@[simp] theorem Dev.fetch_time (p : Packet) : (d.fetch p).time = d.time := rfl
@[simp] theorem Dev.fetch_tdm (p : Packet) : (d.fetch p).tdm = d.tdm := rfl
@[simp] theorem Dev.fetch_prot (p : Packet) : (d.fetch p).prot = d.prot := rfl
@[simp] theorem Dev.fetch_eqTable (p : Packet) : (d.fetch p).eqTable = d.eqTable := rfl
@[simp] theorem Dev.fetch_lanes (p : Packet) : (d.fetch p).lanes = d.lanes := rfl
@[simp] theorem Dev.fetch_ports (p : Packet) : (d.fetch p).ports = d.ports := rfl
@[simp] theorem Dev.fetch_window (p : Packet) : (d.fetch p).window = d.window := rfl
@[simp] theorem Dev.fetch_windowNext (p : Packet) : (d.fetch p).windowNext = d.windowNext := rfl
@[simp] theorem Dev.fetch_windowEnd (p : Packet) : (d.fetch p).windowEnd = d.windowEnd := rfl
@[simp] theorem Dev.fetch_health (p : Packet) : (d.fetch p).health = d.health := rfl
@[simp] theorem Dev.fetch_termDom (p : Packet) : (d.fetch p).termDom = d.termDom := rfl
@[simp] theorem Dev.fetch_flowDom (p : Packet) : (d.fetch p).flowDom = d.flowDom := rfl
@[simp] theorem Dev.fetch_pins (p : Packet) : (d.fetch p).pins = d.pins := rfl
@[simp] theorem Dev.fetch_out (p : Packet) : (d.fetch p).out = d.out := rfl
@[simp] theorem Dev.fetch_freeCount (p : Packet) : (d.fetch p).freeCount = d.freeCount := rfl

end Sys2Proof.Machine
end

