-- ==== Sys2Proof/Laws/Ops.lean ====
section
/-!
SUPPORT. Everything that the shared operations do: reading back what an update of one object wrote, a command kept in execution, a counter
counted up, an alarm set, the time base moved on.
-/
namespace Sys2Proof

theorem Tbl.getD_put_ne {α : Type} (t : Tbl α) (i j : Nat) (v x : α) (h : j ≠ i) : Tbl.getD (Tbl.put t i v) j x = Tbl.getD t j x := by
  simp [Tbl.getD, Tbl.find_put_ne t i j v h]

theorem Tbl.find_adjust {α : Type} (t : Tbl α) (i : Nat) (f : α → α) : Tbl.find? (Tbl.adjust t i f) i = (Tbl.find? t i).map f := by
  unfold Tbl.adjust
  split
  · next v h => simp [Tbl.find_put, h]
  · next h => simp [h]

theorem Tbl.find_adjust_ne {α : Type} (t : Tbl α) (i j : Nat) (f : α → α) (h : j ≠ i) : Tbl.find? (Tbl.adjust t i f) j = Tbl.find? t j := by
  unfold Tbl.adjust
  split
  · exact Tbl.find_put_ne _ _ _ _ h
  · rfl

namespace Machine

/-! ### Reading back an object -/

theorem Dev.dom_setDom (d : Dev) (n : Nat) (f : Dom → Dom) : (d.setDom n f).dom n = f (d.dom n) := Tbl.getD_put _ _ _ _
theorem Dev.dom_setDom_ne (d : Dev) (n k : Nat) (f : Dom → Dom) (h : k ≠ n) : (d.setDom n f).dom k = d.dom k := Tbl.getD_put_ne _ _ _ _ _ h
theorem Dev.chan_setChan (d : Dev) (g : Nat) (f : Chan → Chan) : (d.setChan g f).chan g = f (d.chan g) := Tbl.getD_put _ _ _ _
theorem Dev.chan_setChan_ne (d : Dev) (g k : Nat) (f : Chan → Chan) (h : k ≠ g) : (d.setChan g f).chan k = d.chan k :=
  Tbl.getD_put_ne _ _ _ _ _ h
theorem Dev.tree_setTree (d : Dev) (t : Nat) (f : Tree → Tree) : (d.setTree t f).tree t = f (d.tree t) := Tbl.getD_put _ _ _ _
theorem Dev.tree_setTree_ne (d : Dev) (t k : Nat) (f : Tree → Tree) (h : k ≠ t) : (d.setTree t f).tree k = d.tree k :=
  Tbl.getD_put_ne _ _ _ _ _ h
theorem Dev.port_setPort (d : Dev) (l : Nat) (f : Port → Port) : (d.setPort l f).port l = f (d.port l) := Tbl.getD_put _ _ _ _
theorem Dev.port_setPort_ne (d : Dev) (l k : Nat) (f : Port → Port) (h : k ≠ l) : (d.setPort l f).port k = d.port k :=
  Tbl.getD_put_ne _ _ _ _ _ h
theorem Dev.key_setKey (d : Dev) (k : Nat) (f : KeySlot → KeySlot) : (d.setKey k f).key k = f (d.key k) := Tbl.getD_put _ _ _ _
theorem Dev.term_setTerm (d : Dev) (t : Nat) (f : Term → Term) : (d.setTerm t f).term? t = (d.term? t).map f := Tbl.find_adjust _ _ _
theorem Dev.term_setTerm_ne (d : Dev) (t k : Nat) (f : Term → Term) (h : k ≠ t) : (d.setTerm t f).term? k = d.term? k :=
  Tbl.find_adjust_ne _ _ _ _ h
theorem Dev.flow_setFlow (d : Dev) (h : Nat) (f : Flow → Flow) : (d.setFlow h f).flow? h = (d.flow? h).map f := Tbl.find_adjust _ _ _
theorem Dev.flow_setFlow_ne (d : Dev) (h k : Nat) (f : Flow → Flow) (g : k ≠ h) : (d.setFlow h f).flow? k = d.flow? k :=
  Tbl.find_adjust_ne _ _ _ _ g
theorem Dev.alloc_setAlloc (d : Dev) (h : Nat) (f : Alloc → Alloc) : (d.setAlloc h f).alloc? h = (d.alloc? h).map f := Tbl.find_adjust _ _ _

/-! ### Commands in execution -/

/-- Keeping a command in execution changes nothing but the list of those commands. -/
theorem Dev.park_frame (d : Dev) (e : Exec) : d.park e = { d with execs := (d.park e).execs } := by
  unfold Dev.park
  split <;> rfl

/-- The command is in execution afterwards. -/
theorem Dev.mem_park (d : Dev) (e : Exec) : e ∈ (d.park e).execs := by
  unfold Dev.park
  split
  · next h =>
    obtain ⟨x, hx, hk⟩ := List.any_eq_true.1 h
    exact List.mem_map.2 ⟨x, hx, by simp [hk]⟩
  · simp

/-- Nothing that leaves execution stays there. -/
theorem Dev.not_mem_finish (d : Dev) (e x : Exec) (st : Status) (res : List Nat) (h : x ∈ (d.finish e st res).execs) :
    ¬ (x.dom = e.dom ∧ x.seq = e.seq) := by
  have : x ∈ (d.unpark e).execs := h
  simp only [Dev.unpark_execs, List.mem_filter, Bool.not_eq_true', Bool.and_eq_false_iff, beq_eq_false_iff_ne] at this
  rintro ⟨a, b⟩
  rcases this.2 with g | g
  · exact g a
  · exact g b

/-- The final reply by identity: the command's, where it is still in execution, and nothing otherwise. -/
theorem Dev.finishId_cases (d : Dev) (dom seq : Nat) (st : Status) (res : List Nat) :
    (∃ e, d.exec? dom seq = some e ∧ d.finishId dom seq st res = d.finish e st res)
    ∨ (d.exec? dom seq = none ∧ d.finishId dom seq st res = d) := by
  unfold Dev.finishId
  split
  · next e h => exact .inl ⟨e, h, rfl⟩
  · next h => exact .inr ⟨h, rfl⟩

/-! ### Counters, alarms, time -/

/-- Counting changes counters, and where one saturates the alarms of the domain-0 page. -/
theorem Dev.countBy_frame (d : Dev) (a n : Nat) :
    d.countBy a n = { d with health := { d.health with counters := (d.countBy a n).health.counters }, doms := (d.countBy a n).doms } := by
  unfold Dev.countBy
  dsimp only
  split <;> rfl

/-- An alarm for a domain changes domain pages alone. -/
theorem Dev.alarmOf_frame (d : Dev) (b n : Nat) : d.alarmOf b n = { d with doms := (d.alarmOf b n).doms } := by
  unfold Dev.alarmOf
  dsimp only
  split <;> rfl

/-- An alarm set is on its page. -/
theorem Dev.mem_stick (d : Dev) (n b : Nat) : b ∈ ((d.stick n b).dom n).sticky := by
  unfold Dev.stick
  rw [Dev.dom_setDom]
  split
  · next h => exact List.contains_iff_mem.1 h
  · simp

/-- Moving the time base on changes the counter alone, and never back. -/
theorem Dev.goTime_frame (d : Dev) (x : Nat) :
    d.goTime x = { d with time := { d.time with c := (d.goTime x).time.c } } ∧ d.time.c ≤ (d.goTime x).time.c := by
  refine ⟨rfl, ?_⟩
  show d.time.c ≤ max d.time.c _
  exact Nat.le_max_left _ _

/-! ### Protection and links -/

/-- What the claim unit keeps for a round is a latch alone, and the round's claim and drive stay as they were. -/
theorem Dev.latchRound_frame (d : Dev) :
    d.latchRound = { d with prot := { d.prot with latched := d.latchRound.prot.latched } } ∧ d.latchRound.roundClaim = d.roundClaim := by
  unfold Dev.latchRound Dev.setProt
  split
  · refine ⟨rfl, ?_⟩
    show (if d.now / frameNs = d.now / frameNs then (d.roundClaim.1, d.roundClaim.2) else _) = d.roundClaim
    rw [if_pos rfl]
  · exact ⟨rfl, rfl⟩

/-- A fall of HEALTH changes HEALTH alone. -/
theorem Dev.enterFalls_frame (d : Dev) : d.enterFalls = { d with prot := { d.prot with health := d.enterFalls.prot.health } } := by
  unfold Dev.enterFalls Dev.setProt
  split <;> rfl

/-- HEALTH with the bits that have fallen: no bit of 15 to 12 rises, and the others stay. -/
theorem fallOf_low (health now : Nat) : fallOf health now % 4096 = health % 4096 := by
  simp [fallOf]

/-- A timestamp is the time base with its correction, in 64 bits. -/
theorem Dev.stamp_lt (d : Dev) (c : Int) : d.stamp c < 2 ^ 64 := by
  unfold Dev.stamp wrap
  omega

/-- A control block that leaves is the last that has left, and changes the port's frame on the wire alone. -/
theorem Dev.sendControl_frame (d : Dev) (l kind : Nat) (words : List Int) :
    d.sendControl l kind words = { d with ports := (d.sendControl l kind words).ports, out := (d.sendControl l kind words).out
                                          freeCount := (d.sendControl l kind words).freeCount }
    ∧ (d.sendControl l kind words).out.getLast? = some (.control l kind words) := by
  unfold Dev.sendControl Dev.emit
  refine ⟨?_, by simp⟩
  dsimp only
  split
  · split <;> rfl
  · rfl

/-! ### Symbols of a lane -/

/-- A symbol's Gray code is undone by the same map. -/
theorem gray_gray (v : Nat) (h : v < 4) : gray (gray v) = v := by
  have : v = 0 ∨ v = 1 ∨ v = 2 ∨ v = 3 := by omega
  rcases this with rfl | rfl | rfl | rfl <;> rfl

end Machine
end Sys2Proof
end

