-- ==== Sys2Proof/WellFormed.lean ====
section
/-!
DEFINITION. Well-formed commands: every operand within the range that the spec gives it. `Sys2Proof.Machine.exec` has an effect on
every term; on a term outside these ranges the meanings find no such object, and a host command whose fields are out of range
gets the status of 02 R45.
-/
namespace Sys2Proof

/-! ### Ranges of operands -/

/-- A PCIe function, and so a command domain (02 R30). -/
def fnOk (n : Nat) : Bool := decide (n < 16)

/-- A channel's global index (03 R76). -/
def chanOk (g : Nat) : Bool := decide (g < 192)

/-- A tree (03 R79). -/
def treeOk (t : Nat) : Bool := decide (t < 48)

/-- A terminal handle (04 R105). -/
def termOk (h : Nat) : Bool := decide (h < 24576)

/-- An allocation handle (05 Table 5-3). -/
def handleOk (h : Nat) : Bool := decide (h < 65536)

/-- An uplink lane (15 R365). -/
def laneOk (l : Nat) : Bool := decide (l < 96)

/-- A packet pipeline (01 R16). -/
def pipeOk (p : Nat) : Bool := decide (p < 8)

/-- A beacon (12 R302). -/
def beaconOk (b : Nat) : Bool := decide (b < 512)

/-- A TE_OUT or TE_IN pin (12 R304, R309). -/
def pinOk (p : Nat) : Bool := decide (p < 8)

/-- An I2C master (03 R81). -/
def i2cOk (m : Nat) : Bool := decide (m < 16)

/-- A counter dump set (16 R391). -/
def setOk (s : Nat) : Bool := decide (s < 16)

/-- A host frame ring (09 R238). -/
def hostRingOk (r : Nat) : Bool := decide (r < 64)

/-- A key slot (11 R269). -/
def keySlotOk (s : Nat) : Bool := decide (s < 50688)

/-- A fraction of a ns in units of 2^-32 ns (12 R285). -/
def fracOk (f : Nat) : Bool := decide (f < 4294967296)

/-- The egress of a gate list or a hold: KIND 0 a channel, KIND 1 a port (10 Table 10-8). -/
def egressOk (kind target : Nat) : Bool := (kind == 0 && chanOk target) || (kind == 1 && laneOk target)

/-- An entry that was read is 64 bytes long (02 Table 2-3A). -/
def entryOk (entry : Option Bytes) : Bool := entry.all fun b => decide (b.length = 64)

/-- A fetched packet: a ring of one of the 16 functions, 48 parameter bytes, and with INDIRECT a buffer of PLEN bytes, 0 meaning
65,536 (02 Table 2-3A, R42). -/
def Packet.wellFormed (p : Packet) : Bool :=
  fnOk p.ring && decide (p.param.length = 48)
    && p.buf.all fun b => decide (b.length = if p.plen = 0 then 65536 else p.plen.toNat)

/-- A drain's object within its range (02 R71). -/
def DrainObj.wellFormed : DrainObj → Bool
  | .domain d => fnOk d && d != 0
  | .channel g => chanOk g
  | .terminal t => termOk t
  | .flow f => decide (f < 65536)
  | .rxRing r => hostRingOk r
  | .txRing r => hostRingOk r
  | .port l => laneOk l

/-- A burst of a terminal on a channel, with no more corrected or failed codewords than codewords (03 R96). -/
def BurstRx.wellFormed (rx : BurstRx) : Bool :=
  chanOk rx.chan && termOk rx.term && decide (rx.corrected + rx.uncorrectable ≤ rx.codewords)

/-- A discovery window's outcome: a serial number of 64 bits, a random delay of at most 48 µs (03 R94, 04 R110, R113). -/
def DiscoveryRx.wellFormed (rx : DiscoveryRx) : Bool :=
  chanOk rx.chan && decide (rx.serial < 2 ^ 64) && decide (rx.randDelay ≤ 48000)

/-- A ranging window's burst: a registration ID of 36 bytes (04 R107). -/
def RangingRx.wellFormed (rx : RangingRx) : Bool :=
  chanOk rx.chan && termOk rx.term && decide (rx.regId.length = 36) && rx.delim.all fun t => decide (t < 2 ^ 64)

/-- A heritage frame of lanes 0 to 31 (13 R312). -/
def HeritageRx.wellFormed (rx : HeritageRx) : Bool := decide (rx.lane < 32)

/-- A time word of a Brynlink (12 R289). -/
def TimeWordRx.wellFormed (rx : TimeWordRx) : Bool := laneOk rx.lane && decide (rx.master < 8)

/-- A mirror record of one frame or a part of it (14 Table 14-9, R359): trees, channels and terminals within their ranges. -/
def MirrorRecord.wellFormed (r : MirrorRecord) : Bool :=
  decide (r.part ≤ 4) && decide (r.slot < 4) && (r.trees.all fun t => treeOk t.1) && (r.linksUp.all chanOk) && (r.plans.all fun p => chanOk p.1)
    && r.terms.all fun t => termOk t.term

/-- What a source loss takes away; a path is named by its lane (12 R290). -/
def TimeLoss.wellFormed : TimeLoss → Bool
  | .path l => laneOk l
  | _ => true

/-- Every operand of a command lies within its range. -/
def Instr.wellFormed : Instr → Bool
  | .ringEnable fn _ => fnOk fn
  | .ringCtrlDisable fn _ => fnOk fn
  | .cmdProducerDoorbell fn _ => fnOk fn
  | .registerWrite fn _ _ _ => fnOk fn
  | .commandFetch entry _ => entryOk entry
  | .identityRead p => p.wellFormed
  | .heartbeatSet p => p.wellFormed
  | .firmwareLoad p => p.wellFormed
  | .firmwareStart p => p.wellFormed
  | .selfTestEnd _ _ _ => true
  | .bootStatus p => p.wellFormed
  | .meshStatus p => p.wellFormed
  | .epochPin p => p.wellFormed
  | .epochQuery p => p.wellFormed
  | .domainGrant p => p.wellFormed
  | .domainRevoke p => p.wellFormed
  | .domainDisable p => p.wellFormed
  | .domainEnable p => p.wellFormed
  | .versionOpen p => p.wellFormed
  | .versionCommit p => p.wellFormed
  | .commitChecksEnd => true
  | .commitDone => true
  | .versionAbort p => p.wellFormed
  | .versionQuery p => p.wellFormed
  | .versionRetireLimit p => p.wellFormed
  | .versionRetire slot => decide (slot < 4)
  | .retirementLimitExpiry slot => decide (slot < 4)
  | .frameInstant => true
  | .beaconFire b => beaconOk b
  | .pulseEnd pin => pinOk pin
  | .heartbeatPageWrite dom => fnOk dom
  | .drainEnd obj => obj.wellFormed
  | .channelModeSet p => p.wellFormed
  | .channelEnable p => p.wellFormed
  | .channelDisable p => p.wellFormed
  | .burstProfileSet p => p.wellFormed
  | .bearingRead p => p.wellFormed
  | .bearingClear p => p.wellFormed
  | .channelStatus p => p.wellFormed
  | .mgmtRingSet p => p.wellFormed
  | .omciSend p => p.wellFormed
  | .omciSent term => termOk term
  | .moduleAccess p => p.wellFormed
  | .moduleAccessComplete master _ _ => i2cOk master
  | .moduleBusTimeout master => i2cOk master
  | .downstreamSelect g => chanOk g
  | .tailStomp g => chanOk g
  | .bearingLoad g term _ => chanOk g && termOk term
  | .burstReceive rx => rx.wellFormed
  | .lossOfBurst term => termOk term
  | .bearingLockLoss term => termOk term
  | .upstreamLos g => chanOk g
  | .treeLosAssert tree => treeOk tree
  | .treeLosDeassert tree => treeOk tree
  | .discoveryBurst rx => rx.wellFormed
  | .rangingBurst rx => rx.wellFormed
  | .rangingAttemptsExhausted term => termOk term
  | .losttimeExpiry term => termOk term
  | .upstreamPloam g term _ _ => chanOk g && termOk term
  | .upstreamOmci g term _ _ => chanOk g && termOk term
  | .terminalSet p => p.wellFormed
  | .terminalDelete p => p.wellFormed
  | .terminalDisable p => p.wellFormed
  | .terminalEnable p => p.wellFormed
  | .terminalDeactivate p => p.wellFormed
  | .terminalStatus p => p.wellFormed
  | .discoverySet p => p.wellFormed
  | .discoveryRead p => p.wellFormed
  | .rerange p => p.wellFormed
  | .terminalRegidSet p => p.wellFormed
  | .plannerSet p => p.wellFormed
  | .lanternAllocSet p => p.wellFormed
  | .allocSet p => p.wellFormed
  | .allocDelete p => p.wellFormed
  | .allocDeleteComplete handle => handleOk handle
  | .plannerForecast p => p.wellFormed
  | .allocStatus p => p.wellFormed
  | .planRead p => p.wellFormed
  | .lanternFlowSet p => p.wellFormed
  | .lanternBoundRead p => p.wellFormed
  | .uplinkFrameReceive rx => laneOk rx.lane
  | .brynlinkFrameReceive lane _ _ => laneOk lane
  | .brynlinkIdentity lane devId _ => laneOk lane && decide (devId < 8)
  | .pipelinePass pipe _ => pipeOk pipe
  | .secondPass pipe _ => pipeOk pipe
  | .learnNoticeRelease => true
  | .learnHoldExpiry _ mac => decide (mac < 2 ^ 48)
  | .ageingScan => true
  | .exceptionSet p => p.wellFormed
  | .clsTableSet p => p.wellFormed
  | .clsProgramSet p => p.wellFormed
  | .clsBindSet p => p.wellFormed
  | .clsRuleSet p => p.wellFormed
  | .clsEntrySet p => p.wellFormed
  | .clsEntryRead p => p.wellFormed
  | .clsSearch p => p.wellFormed
  | .clsUsage p => p.wellFormed
  | .fwdEntryWrite p => p.wellFormed
  | .fwdEntryDelete p => p.wellFormed
  | .fwdEntryRead p => p.wellFormed
  | .fwdSearch p => p.wellFormed
  | .fwdFlush p => p.wellFormed
  | .fwdFlushComplete => true
  | .fwdSourceSet p => p.wellFormed
  | .learnSet p => p.wellFormed
  | .poolCarveSet p => p.wellFormed
  | .poolStatus p => p.wellFormed
  | .queueProfileSet p => p.wellFormed
  | .cutSet p => p.wellFormed
  | .replListSet p => p.wellFormed
  | .rxRingSet p => p.wellFormed
  | .txRingSet p => p.wellFormed
  | .ringDisable p => p.wellFormed
  | .segmentLogRead p => p.wellFormed
  | .segmentFree _ _ => true
  | .deepBufferReturn => true
  | .deepBufferReadLate _ => true
  | .hostRxWrite ring _ posted => hostRingOk ring && posted.all fun x => decide (x.addr < 2 ^ 64)
  | .txRingPoll ring _ entries => hostRingOk ring && entries.all fun x => decide (x.data.length = x.len)
  | .flowSet p => p.wellFormed
  | .flowDisable p => p.wellFormed
  | .flowEnable p => p.wellFormed
  | .shapeProfileSet p => p.wellFormed
  | .terminalShapeSet p => p.wellFormed
  | .tmChannelSet p => p.wellFormed
  | .tmPortSet p => p.wellFormed
  | .portSchedule lane => laneOk lane
  | .meterSet p => p.wellFormed
  | .gateListSet p => p.wellFormed
  | .gateListStart kind target => egressOk kind target
  | .gateStatus p => p.wellFormed
  | .sampleSet p => p.wellFormed
  | .sampleWindowEnd => true
  | .queueSampleRead p => p.wellFormed
  | .linkDownHoldExpiry kind target => egressOk kind target
  | .keyWrite p => p.wellFormed
  | .keyErase p => p.wellFormed
  | .keySwitch p => p.wellFormed
  | .keySwitchApply slot => keySlotOk slot
  | .keyExchange p => p.wellFormed
  | .keyReportReceive term _ _ => termOk term
  | .keyExchangeRetry term => termOk term
  | .keyBindSet p => p.wellFormed
  | .sessionKeySet p => p.wellFormed
  | .keyStatus p => p.wellFormed
  | .keyRead p => p.wellFormed
  | .timeSourceSet p => p.wellFormed
  | .timeSet p => p.wellFormed
  | .timeSetTimeout => true
  | .timeRateSet p => p.wellFormed
  | .timeRebase p => p.wellFormed
  | .rebaseStep => true
  | .timeStatus p => p.wellFormed
  | .timeWord rx => rx.wellFormed
  | .followerLock _ => true
  | .timeSourceLoss cause _ => cause.wellFormed
  | .ppsInEdge _ frac _ _ _ => fracOk frac
  | .teInEdge pin _ frac => pinOk pin && fracOk frac
  | .ppsOutRise => true
  | .ppsOutFall => true
  | .beaconSet p => p.wellFormed
  | .beaconClear p => p.wellFormed
  | .beaconStatus p => p.wellFormed
  | .ptpPortSet p => p.wellFormed
  | .ptpMessage rx => laneOk rx.lane
  | .syncePortSet p => p.wellFormed
  | .esmcPdu lane ql => laneOk lane && decide (ql < 16)
  | .esmcInformationSend lane => laneOk lane
  | .synceWaitToRestoreExpiry lane => laneOk lane
  | .todQuery p => p.wellFormed
  | .teInputSet p => p.wellFormed
  | .teCaptureRead p => p.wellFormed
  | .tsRingSet p => p.wellFormed
  | .heritageLaneSet p => p.wellFormed
  | .heritageFrameReceive rx => rx.wellFormed
  | .heritageDefectDetect _ bit => decide (bit < 15)
  | .heritageDefectClear _ bit => decide (bit < 15)
  | .tsiConnSet p => p.wellFormed
  | .tsiPageSwap p => p.wellFormed
  | .circuitSet p => p.wellFormed
  | .heritageStatus p => p.wellFormed
  | .tdmPmRead p => p.wellFormed
  | .pmSecond => true
  | .pmBinClose _ => true
  | .protSet p => p.wellFormed
  | .claimSet p => p.wellFormed
  | .protIsolate p => p.wellFormed
  | .shadowSet p => p.wellFormed
  | .shadowRead p => p.wellFormed
  | .protStatus p => p.wellFormed
  | .claimRound _ _ => true
  | .tenderStatusWord w => decide (w.claim < 4)
  | .mirrorRecordReceive r => r.wellFormed
  | .healthRefreshTimeout => true
  | .heldFrameExpiry => true
  | .shadowLock tree => treeOk tree
  | .shadowLoss tree => treeOk tree
  | .waitToRestoreExpiry => true
  | .rbeaconRetry => true
  | .portSet p => p.wellFormed
  | .portDisable p => p.wellFormed
  | .portEnable p => p.wellFormed
  | .eqTableWrite p => p.wellFormed
  | .laneTrain p => p.wellFormed
  | .laneTrainComplete lane _ _ _ outcome => laneOk lane && decide (outcome ≤ 2)
  | .treeTrain p => p.wellFormed
  | .treeTrainComplete tree _ _ _ => treeOk tree
  | .patternSet p => p.wellFormed
  | .patternRead p => p.wellFormed
  | .eyeScan p => p.wellFormed
  | .eyeScanComplete kind _ _ _ => decide (kind ≤ 4)
  | .laneStatus p => p.wellFormed
  | .portStatus p => p.wellFormed
  | .linkDown lane _ => laneOk lane
  | .linkUp lane _ => laneOk lane
  | .linkRecoveryRetry lane => laneOk lane
  | .trainingTimeout lane => laneOk lane
  | .preemptionVerifyEnd lane _ => laneOk lane
  | .counterRead p => p.wellFormed
  | .counterChainSet p => p.wellFormed
  | .counterClear p => p.wellFormed
  | .dumpSet p => p.wellFormed
  | .dumpStart p => p.wellFormed
  | .dumpInstant set => setOk set
  | .dumpWriteComplete set => setOk set
  | .alarmClear p => p.wellFormed
  | .faultLogRead p => p.wellFormed
  | .sensorRead p => p.wellFormed
  | .ledgerRead p => p.wellFormed
  | .ledgerLoad p => p.wellFormed
  | .ledgerTick readings => decide (readings.length = 14)
  | .correctedMemoryError => true
  | .containedFault _ _ => true
  | .recoverableFault _ _ => true
  | .fatalFault _ => true
  | .resetAssert _ => true
  | .supplyUndervoltage _ _ _ => true
  | .resetRelease _ _ => true
  | .spiBoot _ _ _ => true
  | .timeBasePllLock => true
  | .ptpMessageSend lane _ => laneOk lane

end Sys2Proof
end

