-- ==== Sys2Proof/Tests/Slice0.lean ====
section
/-!
SUPPORT. Tests: the checks of WellFormed refuse an ill-formed term each; worked examples of spec/; and for the statements, states and
operands that meet their hypotheses.
-/
section
open Sys2Proof Sys2Proof.Machine

-- One theorem after another: many kernel evaluations at once would ask for more threads than the memory limit leaves.
set_option Elab.async false

/-! ### Packets and states of the tests -/

/-- `n` bytes, zero but for big-endian fields given by offset, length and value. -/
def Tst.bytes (n : Nat) (fs : List (Nat × Nat × Nat)) : Bytes :=
  fs.foldl (fun b f => b.take f.1 ++ beBytes f.2.1 f.2.2 ++ b.drop (f.1 + f.2.1)) (List.replicate n 0#8)

/-- Parameters counted from entry byte 16. -/
def Tst.par (fs : List (Nat × Nat × Nat)) : Bytes := Tst.bytes 48 (fs.map fun f => (f.1 - 16, f.2))

/-- An entry of domain 0 with its parameters inline. -/
def Tst.pk (fs : List (Nat × Nat × Nat)) : Packet :=
  { ring := 0, tag := 1#16, domain := 0#8, flags := 0#8, plen := 48#16, tver := 0#32, beacon := 0#32, param := Tst.par fs, buf := none }

/-- An entry that stages into version 2. -/
def Tst.pv (fs : List (Nat × Nat × Nat)) : Packet := { Tst.pk fs with tver := 2#32 }

/-- An entry with an INDIRECT buffer. -/
def Tst.pb (b : Bytes) : Packet := { Tst.pk [] with flags := 8#8, plen := BitVec.ofNat 16 b.length, buf := some b }

/-- A staging entry with an INDIRECT buffer. -/
def Tst.pbv (b : Bytes) : Packet := { Tst.pb b with tver := 2#32 }

/-- The device serves the entry and its checks pass, by evaluation. -/
def Tst.ok (c : CmdDef) (d : Dev) (p : Packet) : Bool :=
  !d.sys.inReset && !d.sys.fatal && decide (p.ring ≤ 15) && !Packet.fence p && !Packet.atBeacon p && !Packet.dry p
    && (c.refuse (d.fetch p) (c.entry d p)).isNone

/-- What `Tst.ok` evaluates is the hypothesis of the statements. -/
theorem Tst.accepts (c : CmdDef) (d : Dev) (p : Packet) (h : Tst.ok c d p = true) : c.accepts d p := by
  simp only [Tst.ok, Bool.and_eq_true, Bool.not_eq_true', decide_eq_true_eq, Option.isNone_iff_eq_none] at h
  obtain ⟨⟨⟨⟨⟨⟨h1, h2⟩, h3⟩, h4⟩, h5⟩, h6⟩, h7⟩ := h
  exact ⟨⟨h1, h2⟩, ⟨h3, h4, h5, h6⟩, h7⟩

/-- A versioned object with the parameters of its single-object command. -/
def Tst.obj (op keyLen : Nat) (fs : List (Nat × Nat × Nat)) : VObj := ⟨op, (Tst.par fs).take keyLen, Tst.par fs⟩

/-- Channel 0 in 10G mode with profile 0 and discovery on, channel 8 in 50G mode; a port of one lane at lane 0, a Brynlink at lane 4, a
tender link at lane 8; heritage lane 0 in mode 1; queue profile 0. -/
def Tst.objs : List VObj :=
  [Tst.obj 0x0301 2 [(16, 2, 0), (18, 1, 1)], Tst.obj 0x0301 2 [(16, 2, 8), (18, 1, 2), (19, 1, 3)],
    Tst.obj 0x0304 3 [(16, 2, 0), (18, 1, 0), (20, 1, 2), (21, 1, 4), (22, 1, 1), (24, 8, 0x5555555555555555), (32, 4, 0xB5983101)],
    Tst.obj 0x0407 2 [(16, 2, 0), (18, 1, 1), (24, 4, 20000)],
    Tst.obj 0x0803 1 [(28, 4, 100), (32, 4, 50), (36, 4, 10)], Tst.obj 0x0C01 1 [(16, 1, 0), (17, 1, 1)],
    Tst.obj 0x0E01 1 [(16, 1, 0), (17, 1, 1), (18, 1, 1), (19, 1, 1), (24, 1, 2)],
    Tst.obj 0x0E01 1 [(16, 1, 4), (17, 1, 2), (18, 1, 4), (19, 1, 1)],
    Tst.obj 0x0E01 1 [(16, 1, 8), (17, 1, 3), (18, 1, 4), (19, 1, 1)]]

/-- A terminal of channel 0. -/
def Tst.term (state onu : Nat) : Term := { chan := 0, regChk := false, onuId := onu, profPin := 0xFF, serial := onu, state }

/-- The device running version 1, its outputs lit, version 2 open; terminals 1 (OPERATING), 2 (WAITING) and 3 (DISABLED), flow 5 of
terminal 1, allocation 7, forwarding entry, meter 0, key slot 2 of terminal 1, receive ring 0. -/
def Tst.dev : Dev :=
  { Dev.reset with
    sys := { boot := 3, dark := false, fwStarted := true }
    doms := [(0, { enable := true, active := true, log2 := 6#4, replyBaseLo := 0x10000#32 })]
    vers := { running := some { num := 1, slot := 0, objs := Tst.objs }, openNum := 2, openObjs := Tst.objs, highest := 2, committed := true }
    chans := [(0, { linkUp := true })]
    terms := [(1, Tst.term 4 1), (2, Tst.term 1 2), (3, Tst.term 6 3)]
    allocs := [(7, { term := 1, allocId := 1024, cls := 2, flags := 0#8, arate := 0, prate := 0, weight := 1, maxGrant := 0, repCap := 0 })]
    flows := [(5, { term := 1, dnPort := 100, upPort := 101, cls := 1, sealedFlow := false, fprof := 0, qprof := 0, udKind := 1, udest := 0
                    cbase := 0 })]
    keys := [(2, { ctr := true, ctrKey := List.replicate 16 1#8 })]
    ports := [(0, { link := 2, preempt := 2 }), (4, { link := 2, peer := some (1, 77) }), (8, { link := 2, peer := some (2, 78) })]
    sw := { rx := [(0, { log2 := 6, base := 0x100000, prodWord := 0x200000, poll := 10 })] }
    pins := Pins.reset }

/-- The state of the tests, with no command waiting. -/
def Tst.st : State := { dev := Tst.dev, pending := [] }

/-- The flow of the tests. -/
def Tst.flow : Flow :=
  { term := 1, dnPort := 100, upPort := 101, cls := 1, sealedFlow := false, fprof := 0, qprof := 0, udKind := 1, udest := 0, cbase := 0 }

/-- The device with associative table 2 (versioned, with one entry) and 3 (subscriber) in both versions. -/
def Tst.devCls : Dev :=
  let ts := [Tst.obj 0x0601 1 [(16, 1, 2), (17, 1, 2), (19, 1, 1), (20, 1, 0), (21, 1, 1)],
    Tst.obj 0x0601 1 [(16, 1, 3), (17, 1, 2), (18, 1, 1), (19, 1, 1), (20, 1, 1), (21, 1, 1)],
    ⟨0x0605, [2#8, 0#8, 0#8], Tst.bytes 32 [(0, 1, 2)]⟩]
  { Tst.dev with vers := { Tst.dev.vers with running := some ⟨1, 0, Tst.objs ++ ts, [], 0⟩, openObjs := Tst.objs ++ ts } }

/-- The device with one forwarding entry, placed by a write. -/
def Tst.devFwd : Dev :=
  cmdFwdEntryWrite.run (cmdFwdEntryWrite.entry Tst.dev (Tst.pk [(16, 2, 3), (18, 6, 9)])) (Tst.dev.fetch (Tst.pk [(16, 2, 3), (18, 6, 9)]))

/-- A command of domain 0 in execution. -/
def Tst.exec (op seq : Nat) (p : Packet) : Exec := { dom := 0, seq, op, pkt := p, par := Packet.bytes p }

/-- The device of the tests with commands in execution. -/
def Tst.run (l : List Exec) (d : Dev) : Dev := { d with execs := l, doms := d.doms.put 0 { d.dom 0 with nextSeq := 8 } }


/-! ### Values of the witnesses -/

/-- A state with no command waiting. -/
abbrev Tst.S (d : Dev) : State := { dev := d, pending := [] }

def Tst.v0 := (Tst.pb (Tst.bytes 16 [(8, 8, 77)]))
def Tst.v1 := (Tst.S { Dev.reset with sys := {} })
def Tst.v2 := ([(3,5#8)] : Tbl Byte)
def Tst.v6 := (Tst.pk [(16,4,64),(20,4,(crc32c (1#8 :: List.replicate 63 0#8)).toNat)])
def Tst.v7 := (Tst.S { Dev.reset with sys := { staging := [(0, 1#8)] } })
def Tst.v9 := (Tst.pk [])
def Tst.v10 := (Tst.S (Tst.run [Tst.exec 0x104 0 (Tst.pk [])] { Dev.reset with sys := { starting := some (some (0,0)) } }))
def Tst.v12 := (Tst.exec 0x104 0 (Tst.pk []))
def Tst.v14 := (6#4 : BitVec 4)
def Tst.v17 := (0x5#32:Word)
def Tst.v22 := (65#32:Word)
def Tst.v23 := (Tst.S {Tst.dev with doms := [(2, {disabled := true})]})
def Tst.v24 := (Tst.S {Tst.dev with doms := [(0, {enable := true, active := true, producer := 1#16, log2 := 6#4})]})
def Tst.vC_cm (ph : CommitPhase) (rep : Nat) (dry : Bool) : Commit := ⟨0, 3, 2, sha256 (versionImage 2 []), rep, dry, none, ph, []⟩
def Tst.vC_xc := Tst.exec 0x202 3 (Tst.pk [(16,4,2)])
def Tst.vC_vd (v : Vers) : Dev := Tst.run [Tst.vC_xc] { Dev.reset with sys := {boot := 3}, vers := { v with running := none, openObjs := [] } }
def Tst.v29 := (Tst.S (Tst.vC_vd { Tst.dev.vers with commit := some (Tst.vC_cm .checking 0 false) }))
def Tst.v33 := (Tst.S (Tst.vC_vd { Tst.dev.vers with commit := some (Tst.vC_cm .checking 0 true) }))
def Tst.v35 := (Tst.S (Tst.vC_vd { Tst.dev.vers with commit := some { Tst.vC_cm .checking 8 false with digest := [] } }))
def Tst.v38 := (Tst.S (Tst.vC_vd { Tst.dev.vers with commit := some { Tst.vC_cm .checking 0 false with digest := [] } }))
def Tst.v40 := (Tst.S (Tst.vC_vd { Tst.dev.vers with switched := [Tst.vC_cm (.switched 0 125000) 0 false] }))
def Tst.v42 := (Tst.S (Tst.vC_vd { Tst.dev.vers with retiring := [⟨7,3,[],[],77⟩] }))
def Tst.v44 := (Tst.S {Tst.dev with time := { beacons := [(5, {state := .armed, pinAct := 3, pin := 2, width := 100, instant := 1000})]}})
def Tst.v45 := (.domain 3 : DrainObj)
def Tst.v47 := (Tst.S {Tst.dev with doms := [(5, {hbAddr := 256, hbDue := 100})]})
def Tst.v48 := (Tst.S (Tst.run [Tst.vC_xc] {Tst.dev with drains := [⟨.domain 3, 0,3,50,1,2,0⟩]}))
def Tst.vD_xo := Tst.exec 0x309 3 (Tst.pb (Tst.bytes 9 [(0,2,1)]))
def Tst.vD_dom1 : Dev := Tst.run [Tst.vD_xo] {Tst.dev with terms := [(1, {Tst.term 4 1 with omci := [(0,3,[1#8,2#8]),(0,4,[3#8])]})]}
def Tst.v55 := (Tst.S Tst.vD_dom1)
def Tst.vD_dcopy : Dev := {Tst.dev with doms := [(0,{mgmt := some ⟨4096,64,4,0,0⟩})], vers := {running := some ⟨1,0,[Tst.obj 0x301 2 [(16,2,0),(18,1,1),(22,1,2)]],[],0⟩}}
def Tst.v62 := (Tst.S Tst.vD_dcopy)
def Tst.v65 := (Tst.pk [(16, 2, 2)])
def Tst.v66 := (Tst.pk [(16, 2, 1)])
def Tst.v67 := (Tst.pk [(16, 2, 3)])
def Tst.v69 := (Tst.pk [(26, 1, 1)])
/-- The delimiter of profile 0. -/
def Tst.vD_delim : List Bool := (List.range 32).map fun i => (0xB5983101 : Nat).testBit (31 - i)
/-- A discovery window with a burst's delimiter at bit 100, and one with a second delimiter after it. -/
def Tst.vD_window : List Bool := List.replicate 100 false ++ Tst.vD_delim ++ List.replicate 500 false
def Tst.vD_two : List Bool := List.replicate 100 false ++ Tst.vD_delim ++ Tst.vD_delim ++ List.replicate 468 false
/-- A sent discovery window of channel 0, and a sent ranging window of terminal 2; their grants start frame 10's burst at 0. -/
def Tst.vD_dwin : Window := ⟨1316321, 100, 5, 0xFFFF, 10, 0, true, false, false⟩
def Tst.vD_rwin : Window := ⟨27000, 100, 6, 2, 10, 0, true, false, true⟩
/-- The device with both windows open. -/
def Tst.vD_open (d : Dev) : Dev := d.setChan 0 fun c => { c with linkUp := true, windows := [Tst.vD_dwin, Tst.vD_rwin] }
def Tst.vD_drx : DiscoveryRx := {chan := 0, bits := Tst.vD_window, badWithEnergy := false, decoded := true, serial := 99, randDelay := 10, unsupported := false}
def Tst.v72 := {Tst.vD_drx with unsupported := true}
def Tst.v73 := {Tst.vD_drx with bits := Tst.vD_two}
def Tst.v75 := {Tst.vD_drx with serial := 2}
def Tst.v76 := {Tst.vD_drx with serial := 2, randDelay := 900000}
def Tst.v77 := {Tst.vD_drx with serial := 3}
def Tst.v78 := (Tst.S {Tst.dev with terms := [(4,{Tst.term 1 4 with chan := 1})]})
def Tst.v79 := {Tst.vD_drx with serial := 4}
def Tst.v81 := ({Tst.dev with terms := [(4,{Tst.term 1 0xFFFF with chan := 1}), (5, {Tst.term 4 0 with chan := 1, assigned := 0})]} : Dev)
def Tst.vD_rrx : RangingRx := {chan := 0, term := 2, delim := some 1300000, good := true, final := ⟨1#8,2#10,3#8,4#16,5#56,6#12⟩, msg := [], regId := List.replicate 36 7#8, consumer := 0}
def Tst.vD_dt (t : Machine.Term) : Dev := {Tst.dev with terms := [(2,t)]}
def Tst.v84 := {Tst.vD_rrx with delim := some 2300000}
def Tst.vD_tl (s m n a : Nat) : Machine.Term := {Tst.term s 2 with missing := m, noDelim := n, attempts := a}
def Tst.v87 := (Tst.S (Tst.vD_dt (Tst.vD_tl 3 4 4 3)))
def Tst.v89 := (Tst.S (Tst.vD_dt (Tst.vD_tl 4 4 4 3)))
def Tst.v93 := (Tst.S (Tst.vD_dt (Tst.vD_tl 5 4 4 3)))
def Tst.v95 := (Tst.S (Tst.vD_dt (Tst.vD_tl 2 4 4 3)))
def Tst.vD_xr := Tst.exec 0x409 3 (Tst.pk [(16,2,2)])
def Tst.v97 := (Tst.S (Tst.run [Tst.vD_xr] (Tst.vD_dt (Tst.vD_tl 4 4 4 3))))
def Tst.vD_pe : PlanEntry := ⟨1024, 1, 100, 50, 3, 0, 4#8⟩
def Tst.vD_dgr : Dev := {Tst.dev with chans := [(0,{linkUp := true, losRun := 8, plans := [⟨4,[Tst.vD_pe],0,0,[(0, (profile? Tst.objs 0 0).getD ⟨false,0,0,0,0,0⟩)]⟩]})]}
def Tst.vD_brx (bs : List Bool) : BurstRx := {chan := 0, term := 1, frame := 4, start := 100, bits := bs, codewords := 0, corrected := 0, symbols := 0, uncorrectable := 0, hdrFails := 0, final := ⟨1#8,2#10,3#8,4#16,5#56,6#12⟩, frames := [], reports := [], fills := []}
def Tst.vD_okbits := List.replicate 30 false ++ Tst.vD_delim ++ List.replicate 34 false
def Tst.v98 := (Tst.S Tst.vD_dgr)
def Tst.v99 := (Tst.vD_brx (List.replicate 96 false))
def Tst.v101 := (Tst.vD_brx Tst.vD_okbits)
def Tst.v102 := (Tst.S {Tst.vD_dgr with terms := [(1, {Tst.term 4 1 with locked := true})]})
def Tst.v105 := (Tst.pk [(16, 2, 7), (18, 2, 1), (20, 2, 1024), (22, 1, 3)])
def Tst.v109 := (Tst.pk [(16, 2, 7)])
def Tst.v113 := (Tst.pk [(16, 2, 7), (18, 1, 1), (19, 1, 1), (20, 4, 8), (24, 4, 4)])
def Tst.v117 := (Tst.pk [(16, 2, 5)])
def Tst.vD_al : Alloc := { term := 1, allocId := 1024, cls := 2, flags := 0#8, arate := 0, prate := 0, weight := 1, maxGrant := 0, repCap := 0, credit := 100, bucket := 100, deleting := true }
def Tst.vD_xd := Tst.exec 0x504 3 (Tst.pk [(16,2,7)])
def Tst.v120 := (Tst.S (Tst.run [Tst.vD_xd] {Tst.dev with allocs := [(7,Tst.vD_al)]}))
def Tst.v123 := (Tst.pk [(16,2,8)])
def Tst.v124 := (Tst.S {Tst.dev with vers := { Tst.dev.vers with running := some ⟨1, 0, Tst.objs ++ [Tst.obj 0x502 2 [(16,2,8),(18,2,1),(20,2,1024),(22,1,1),(24,4,16)]], [], 0⟩}})
def Tst.v127 := (Tst.pk [(16,2,5)])
def Tst.vH_tb2 : ClsTable := (clsTable? Tst.devCls.objs 2).getD (⟨0,0,0,0,0,0,false,0,0,[]⟩ : ClsTable)
def Tst.v130 := (Tst.pk [(16,1,2),(18,2,0)])
def Tst.v131 := ((Tst.devCls.entryAt? Tst.vH_tb2 0).getD ((⟨0,0,[],[]⟩ : AssocEntry), 0)).1
def Tst.v132 := ((Tst.devCls.entryAt? Tst.vH_tb2 0).getD ((⟨0,0,[],[]⟩ : AssocEntry), 0)).2
def Tst.v133 := (Tst.pb (Tst.bytes 144 [(0,1,2)]))
def Tst.vH_dcz : Dev := {Tst.dev with vers := {running := some ⟨1,0,[Tst.obj 0x0601 1 [(16,1,2),(17,1,2),(19,1,1),(20,1,0),(21,1,1),(22,1,0)], ⟨0x0605, [2#8, 0#8, 0#8], Tst.bytes 32 [(0, 1, 2)]⟩, ⟨0x0605, [2#8, 0#8, 3#8], Tst.bytes 32 [(0, 1, 2),(3,1,3),(4,8,0x1234567890)]⟩ ],[],0⟩}}
def Tst.vH_hz := (Tst.vH_dcz.assocMatches Tst.vH_dcz.objs 0 ((clsTable? Tst.vH_dcz.objs 2).getD (⟨0,0,0,0,0,0,false,0,0,[]⟩ : ClsTable)))
def Tst.v136 := (Tst.S Tst.vH_dcz)
def Tst.v137 := (((clsTable? Tst.vH_dcz.objs 2).getD (⟨0,0,0,0,0,0,false,0,0,[]⟩ : ClsTable)))
def Tst.v138 := (Tst.vH_hz.headD (⟨0,0,[],[]⟩ : AssocEntry))
def Tst.v139 := Tst.vH_hz.tail
def Tst.vH_fe := Tst.devFwd.fwd.slots.headD (0, (⟨0,0,false,false,0,0,0,false,0,0,false⟩ : FwdEntry))
def Tst.v140 := (Tst.pk [(16,2,3),(18,6,9),(32,4,7)])
def Tst.v141 := (Tst.pk [(18,2,3),(20,6,9),(32,4,7)])
def Tst.vH_fl : Flush := ⟨0,3,0xFFFF,255,0xFFFF,false,1⟩
def Tst.vH_xf := Tst.exec 0x0705 3 (Tst.pk [(20,2,65535),(22,1,255),(24,2,65535)])
def Tst.vH_dfl : Dev := Tst.run [Tst.vH_xf] {Tst.devFwd with fwd := {Tst.devFwd.fwd with flush := some Tst.vH_fl}}
def Tst.v143 := (Tst.S Tst.vH_dfl)
def Tst.v144 := (Tst.devFwd.fwd)
def Tst.v145 := {Tst.vH_fe.2 with counter := 9}
def Tst.vH_nt : Notice := ⟨1,false,3,9,5,2,0,1000,0,0,0⟩
def Tst.vH_dn (r : Option Nat) (b : Nat) : Dev := {Tst.dev with fwd := {notices := [Tst.vH_nt], ring := r, burst := b, level := b*1000000000}}
def Tst.v148 := (Tst.S (Tst.vH_dn (some 0) 3))
def Tst.v150 := (Tst.S (Tst.vH_dn none 3))
def Tst.v152 := (Tst.S {Tst.dev with fwd := {slots := [(7,⟨3,9,false,false,0,0,0,true,2,1,false⟩),(8,⟨3,10,false,false,0,0,0,false,4,1,false⟩),(9,⟨3,11,true,false,0,0,0,false,4,1,false⟩)], pend := [⟨3,9,5,5000⟩]}})
def Tst.v154 := (Tst.pk [(24,4,1)])
def Tst.v155 := (Tst.pk [(16,2,3),(18,6,9)])
def Tst.v157 := (Tst.pbv (Tst.bytes 80 [(0,1,1),(4,4,7),(8,4,1)]))
def Tst.vI_fr (n : Nat) : Bytes := let h := List.replicate (n-4) 3#8; h ++ fcsOf h
def Tst.vI_sg (o p : List Byte) : Seg := { index := 9, size := 128, owners := o, past := p }
def Tst.vI_dsg (o p : List Byte) : Dev := {Tst.dev with sw := {Tst.dev.sw with segs := [(9, Tst.vI_sg o p)]}}
def Tst.v159 := (1#8 : Byte)
def Tst.v161 := (Tst.S (Tst.vI_dsg [1#8,2#8] []))
def Tst.v163 := (Tst.S (Tst.vI_dsg [2#8] [1#8]))
def Tst.vI_yf : Frame := {data := Tst.vI_fr 64, flow := 5}
def Tst.vI_ddr (sz : List Nat) : Dev := {Tst.dev with sw := {Tst.dev.sw with sizes := sz}, flows := [(5, {Tst.flow with queue := {returns := [(Tst.vI_yf, 300)]}})]}
def Tst.vI_rg (p : Nat) (q : List Frame) : FrameRing := {log2 := 6, base := 0, prodWord := 0, poll := 10, producer := p, queue := q}
def Tst.vI_drg (q : FrameRing) : Dev := {Tst.dev with sw := {Tst.dev.sw with rx := [(0,q)], tx := [(0,q)]}}
def Tst.v167 := (Tst.S (Tst.vI_drg (Tst.vI_rg 0 [Tst.vI_yf])))
def Tst.v169 := ([⟨4096,100⟩] : List RxPosted)
def Tst.v171 := ([⟨4096,10⟩] : List RxPosted)
def Tst.v175 := (Tst.pk [(16,2,0),(18,1,1)])
def Tst.v176 := (Tst.pk [(16,2,0),(19,1,1)])
def Tst.v177 := (Tst.S (Tst.vI_drg {Tst.vI_rg 0 [] with disabled := true}))
def Tst.v178 := (Tst.pb (Tst.bytes 4 [(0,2,5)]))
def Tst.v179 := (Tst.S {Tst.dev with sw := {Tst.dev.sw with repl := [(5,[(0,1)])]}})
def Tst.vI_gq := (Tst.dev.receives? 0 1).getD ⟨0,0,0,0,0,0,0,0,0,0,0,0,0⟩
def Tst.vI_ux (n : Nat) : UplinkRx := ⟨0, Tst.vI_fr n, false, .express, false⟩
def Tst.vI_dsm : Dev := {Tst.dev with vers := {running := some ⟨1,0,[Tst.obj 0x0E01 1 [(16, 1, 0), (17, 1, 1), (18, 1, 1), (19, 1, 1), (22, 2, 66)]],[],0⟩}}
def Tst.v181 := Tst.vI_ux 60
def Tst.v182 := (Tst.S Tst.vI_dsm)
def Tst.v183 := Tst.vI_ux 70
def Tst.v184 := {Tst.vI_ux 64 with data := Tst.vI_fr 64 ++ [0#8]}
def Tst.v185 := {Tst.vI_ux 64 with pcsError := true}
def Tst.v187 := {Tst.vI_ux 64 with lane := 9}
def Tst.v189 := (Tst.bytes 8 [(4,4,500)] ++ Tst.vI_fr 64)
def Tst.vI_pf (p : Nat) : Frame := {data := Tst.vI_fr 64, src := 0x4000, pass := p}
def Tst.vI_dpp (e n : List Frame) : Dev := {Tst.dev with sw := {Tst.dev.sw with pipes := [(2, {express := e, normal := n})]}}
def Tst.v190 := (Tst.S (Tst.vI_dpp [Tst.vI_pf 0] []))
def Tst.v192 := (Tst.S (Tst.vI_dpp [Tst.vI_pf 1] []))
def Tst.v195 := (Tst.S (Tst.vI_dpp [] [Tst.vI_pf 1]))
def Tst.vJ_fr (n : Nat) : Bytes := let h := List.replicate (n-4) 3#8; h ++ fcsOf h
def Tst.vJ_yf : Frame := {data := Tst.vJ_fr 64, flow := 5}
def Tst.vJ_mtr : Meter := ⟨1,false,100,1,100,1,0,0,0,0,⟨5,0,0,true⟩,⟨9,0,0,true⟩⟩
def Tst.v197 := (Tst.pk [(16,2,5),(18,1,1),(20,4,100000),(24,4,1024),(28,4,0),(32,4,1024)])
def Tst.v198 := (Tst.S {Tst.dev with meters := [(5,Tst.vJ_mtr)]})
def Tst.v199 := (Tst.pk [(16,2,6),(18,1,1),(20,4,100000),(24,4,1024),(28,4,0),(32,4,1024)])
def Tst.vJ_gl : GateList := ⟨5000, 1000, [(1, 1000)]⟩
def Tst.vJ_dg (a b : Option GateList) : Dev := {Tst.dev with gates := [(0, {inForce := a, waiting := b})], chans := [(0,{linkUp := true, hold := some 700, lantern := [Tst.vJ_yf]})], ports := [(0,{link := 2, hold := some 700})]}
def Tst.v201 := (Tst.S (Tst.vJ_dg (some Tst.vJ_gl) none))
def Tst.v202 := (Tst.S (Tst.vJ_dg none (some Tst.vJ_gl)))
def Tst.v204 := (Tst.pk [(18,2,5)])
def Tst.v205 := (Tst.pk [(16,1,1)])
def Tst.vJ_sn (f : Frame) : Sending := { frame := f, sent := 10, keyField := 0, payload := Tst.vJ_fr 64 }
def Tst.vJ_dch (c : Chan) (qf : List Frame) : Dev := let d : Dev := {Tst.dev with chans := [(0,c)], flows := [(5,{Tst.flow with queue := {frames := qf}})]}; d
def Tst.vJ_lit (c : Chan) : Chan := {c with linkUp := true}
def Tst.vJ_tt (c : Chan) (qf : List Frame) : Dev := (((Tst.vJ_dch c qf).endSending 0).dropNever 0).fillChan 0
def Tst.v207 := (Tst.S (Tst.vJ_dch (Tst.vJ_lit {}) [Tst.vJ_yf]))
def Tst.v211 := (Tst.S (Tst.vJ_dch (Tst.vJ_lit {lantern := [Tst.vJ_yf]}) []))
def Tst.v212 := (Tst.S (Tst.vJ_dch (Tst.vJ_lit {lantern := [{Tst.vJ_yf with flow := 6}], fragment := some (Tst.vJ_sn Tst.vJ_yf)}) []))
def Tst.v214 := (Tst.S (Tst.vJ_dch (Tst.vJ_lit {fragment := some (Tst.vJ_sn Tst.vJ_yf)}) []))
def Tst.v215 := (Tst.S (Tst.vJ_dch (Tst.vJ_lit {sending := some (Tst.vJ_sn {Tst.vJ_yf with early := true})}) []))
def Tst.v217 := (Tst.S {Tst.vJ_dch {} [] with sys := {Tst.dev.sw with } |> fun _ => {Tst.dev.sys with dark := true}})
def Tst.vJ_dpt (qs : List Frame) : Dev := {Tst.dev with ports := [(0,{link := 2, queues := [{}, {frames := qs}, {}, {}]})]}
def Tst.v221 := (Tst.S {Tst.vJ_dpt [Tst.vJ_yf] with ports := [(0,{link := 2, queues := [{frames := [Tst.vJ_yf]}, {}, {}, {}]})]})
def Tst.vJ_dcm : Dev := {Tst.vJ_tt (Tst.vJ_lit {}) [Tst.vJ_yf] with flows := [(5,{Tst.flow with queue := {frames := [Tst.vJ_yf]}, cir := ⟨100000,0,0,true⟩, pir := ⟨100000,0,0,false⟩})]}
def Tst.v222 := {Tst.vJ_dcm with chans := [(0,{bucket := ⟨-5,0,0,true⟩})]}
def Tst.vK_ksw : Exec := Tst.exec 0x0A03 3 (Tst.pk [(16,4,3),(20,4,0)])
def Tst.vK_kx (n : Nat) : Exec := {Tst.exec 0x0A04 3 (Tst.pk [(16,2,1)]) with aux := [n,0]}
def Tst.vK_tsw : Machine.Term := {Tst.term 4 1 with keySwitch := some (3,0)}
def Tst.vK_dsw : Dev := Tst.run [Tst.vK_ksw] {Tst.dev with keys := [(3,{ctr := true})], terms := [(1,Tst.vK_tsw)]}
def Tst.v223 := (Tst.pk [(16,4,3),(20,4,16000)])
def Tst.v226 := (Tst.pk [(16,4,49153),(20,4,16000)])
def Tst.v227 := (Tst.S {Tst.dev with keys := [(49153,{ctr := true})]})
def Tst.v228 := (Tst.S Tst.vK_dsw)
def Tst.v229 := (Tst.S {Tst.vK_dsw with terms := [(1,{Tst.vK_tsw with keySwitch := some (3,500)})]})
def Tst.vK_kb : Exec := Tst.exec 0x0A03 3 (Tst.pk [(16,4,49153),(20,4,0)])
def Tst.v230 := (Tst.S {Tst.run [Tst.vK_kb] Tst.dev with bsets := [(0,(0,some (49153,0)))]})
def Tst.v233 := (Tst.S (Tst.run [Tst.vK_kx 1] Tst.dev))
def Tst.v234 := (Tst.S (Tst.run [Tst.vK_kx 3] Tst.dev))
def Tst.vK_nover : Dev := {Tst.dev with vers := {}}
def Tst.vK_xw := Tst.exec 0x0B02 3 (Tst.pk [(16,8,5)])
def Tst.v239 := (Tst.pk [(16,8,5)])
def Tst.v240 := (Tst.S (Tst.run [Tst.vK_xw] {Tst.vK_nover with time := {waiting := some (0,3,5,500)}}))
def Tst.v241 := (Tst.S {Tst.run [Tst.exec 0x0B04 3 (Tst.pk [(16,8,5)])] Tst.dev with time := {rebases := [⟨0,3,125000,5,false⟩]}})
def Tst.v244 := (Tst.S {Tst.dev with time := {rebases := [⟨0,0,125000,5,true⟩]}})
def Tst.v246 := (Tst.S {Tst.dev with time := {pulses := [(1,2,3)], isSet := true}})
def Tst.v247 := (Tst.S {Tst.dev with time := {ppsHigh := true, ppsFall := 900, isSet := true}})
def Tst.vK_tw (s : Option (Nat × Int)) : TimeWordRx := ⟨4,1,7,100,50,s⟩
def Tst.vK_dtw (t : Time) : Dev := {Tst.dev with time := t}
def Tst.v250 := Tst.vK_tw none
def Tst.v251 := Tst.vK_tw (some (125000,5))
def Tst.v252 := (Tst.S (Tst.vK_dtw {role := 3, good := 1000}))
def Tst.v253 := (Tst.S (Tst.vK_dtw {role := 3, good := 1000, folEver := true, folLocked := false}))
def Tst.v254 := {Tst.vK_tw none with lane := 8}
def Tst.v255 := (Tst.S (Tst.vK_dtw {role := 3, good := 1000, source := some 4, paths := [(4,0,7)], folEver := true, folLocked := true}))
def Tst.v257 := (Tst.S (Tst.vK_dtw {role := 0, pllLocked := true}))
def Tst.v258 := (Tst.S (Tst.vK_dtw {role := 2, ppsLocked := true}))
def Tst.vK_cp : Capture := ⟨true,5,6⟩
def Tst.vK_ei (t : Time) := Tst.S (Tst.vK_dtw t)
def Tst.v259 := (Tst.vK_ei {inputs := [(3,⟨3#2,[Tst.vK_cp]⟩)], c := 400})
def Tst.v260 := (Tst.vK_ei {inputs := [(3,⟨3#2,List.replicate 64 Tst.vK_cp⟩)], c := 400})
def Tst.v261 := (Tst.vK_ei {inputs := [(8,⟨3#2,[Tst.vK_cp]⟩)], c := 400, role := 2})
def Tst.vK_pr (sl : Bool) : PtpRx := ⟨0,[1#8],sl,true,5,6⟩
def Tst.vK_pq : PtpPort := { profile := 1, flags := 0#8, domain := 24, asym := 0#32, prio := 1, addr := 0 }
def Tst.vK_sy : SyncePort := {flags := 1#8, prio := 1, waitTo := some 800}
def Tst.v263 := (Tst.vK_ei {ptp := [(0,Tst.vK_pq)], synce := [(0,Tst.vK_sy)]})
def Tst.v264 := Tst.vK_pr true
def Tst.v265 := (Tst.vK_ei {ptp := [(0,Tst.vK_pq)], role := 1, synce := [(0,Tst.vK_sy)]})
def Tst.v268 := (Tst.pk [(17,1,1),(18,1,1)])
def Tst.v269 := (Tst.pk [(16,2,511),(18,1,1),(24,8,10000)])
/-- A frame that holds nothing but its framing bytes. -/
def Tst.vM_stm : Bytes := [0xF6#8, 0xF6#8, 0xF6#8, 0x28#8, 0x28#8, 0x28#8] ++ List.replicate 2424 0#8
/-- A heritage frame of a lane, in its good order or with a broken pattern. -/
def Tst.vM_hx (ok : Bool) : HeritageRx := ⟨0, if ok then Tst.vM_stm else [], [(0x20000000, [1#8])]⟩
def Tst.vM_hin : Heritage := {inFrame := true, badRun := 3}
def Tst.vM_dh (h : Heritage) : Dev := {Tst.dev with tdm := {lanes := [(0,h)]}}
def Tst.v272 := Tst.vM_hx false
def Tst.v275 := (Tst.S (Tst.vM_dh {Tst.vM_hin with badRun := 0, prev := Tst.vM_stm}))
def Tst.v277 := {Tst.vM_hin with badRun := 0, prev := Tst.vM_stm}
def Tst.v279 := ({candidate := [0]} : Heritage)
def Tst.v280 := {Tst.vM_hx true with lane := 5}
def Tst.vM_xsw : Exec := {Tst.exec 0x0C03 3 (Tst.pk [(16,1,1)]) with armed := some 4}
def Tst.vM_sw1 (t : Bool) : StatusWord := ⟨5,true,false,t⟩
def Tst.vM_mr : MirrorRecord := ⟨0,0,1,0,0,9,[],[0],[],[],[],[],[],[],[],[],[],[],[],[],[],[]⟩
def Tst.vM_dprot (p : Prot) : Dev := {Tst.dev with prot := {p with mode := 1, partner := 2, tlane := 8}, time := {Tst.dev.time with c := 5000}}
def Tst.v287 := Tst.vM_sw1 false
def Tst.v288 := (Tst.S (Tst.vM_dprot {transmitting := true, sentLast := true, status := some (Tst.vM_sw1 true)}))
def Tst.v289 := Tst.vM_sw1 true
def Tst.v295 := (Tst.S (Tst.vM_dprot {held := [(1, ({data := [1#8], itime := 100}:Frame))]}))
def Tst.v296 := (Tst.S (Tst.vM_dprot {shadows := [(0,{state := 1, samples := List.replicate 16 5})]}))
def Tst.v297 := (Tst.S (Tst.vM_dprot {shadows := [(0,{state := 1, samples := 500000::List.replicate 16 5})]}))
def Tst.v298 := (Tst.S (Tst.vM_dprot {shadows := [(0,{state := 2, missed := 64})]}))
def Tst.v299 := (Tst.S (Tst.vM_dprot {wtrRunning := true, wtrDue := some 6000}))
def Tst.v300 := (Tst.S (Tst.vM_dprot {wtrRunning := true, wtrOver := true}))
def Tst.vM_dpg : Dev := let ob := Tst.objs ++ [⟨0x0C02, [1#8] ++ beBytes 4 0x10000000, Tst.bytes 12 [(0,1,1),(4,4,0x10000000),(8,4,0x10000000)]⟩]; Tst.run [Tst.vM_xsw] {Tst.dev with vers := {Tst.dev.vers with running := some ⟨1,0,ob,[],0⟩}}
def Tst.v304 := (Tst.S Tst.vM_dpg)
def Tst.vN_g0 : Group := (Tst.dev.group? 0).getD ⟨0,0,0,0,0,0,0,0,0,0,0,0,0⟩
def Tst.vN_g4 : Group := (Tst.dev.group? 4).getD Tst.vN_g0
def Tst.v306 := (Tst.S {Tst.dev with ports := [(0, { disabled := some (1, 1) })]})
def Tst.vN_tr (op : Nat) (f : List (Nat × Nat × Nat)) : Exec := Tst.exec op 3 (Tst.pk f)
def Tst.vN_x5 := Tst.vN_tr 0x0E05 []
def Tst.vN_x6 := Tst.vN_tr 0x0E06 [(17,1,3)]
def Tst.vN_ps (l : Nat) (p : Port) : Dev := {Tst.dev with ports := [(l,p)], time := {c := 5000000}}
def Tst.v307 := (Tst.S (Tst.run [Tst.vN_x5] Tst.dev))
def Tst.v312 := (Tst.S (Tst.run [Tst.vN_x6] Tst.dev))
def Tst.v316 := (Tst.S (Tst.vN_ps 0 {link := 1, retryAt := some 6000000}))
def Tst.vN_dtr : Dev := {Tst.vN_ps 0 {link := 1} with vers := {running := some ⟨1,0,[Tst.obj 0x0E01 1 [(16, 1, 0), (17, 1, 1), (18, 1, 1), (19, 1, 1), (24, 1, 1)]],[],0⟩}}
def Tst.v320 := (Tst.S Tst.vN_dtr)
def Tst.vO_ds (per : Nat) (w : Option DumpRun) : DumpSet := {period := per, bufA := 0, bufB := 4096, ranges := [(0,1)], writing := w}
def Tst.vO_du (per : Nat) (w : Option DumpRun) : Dev := {Tst.dev with health := {Tst.dev.health with dumps := [(0, Tst.vO_ds per w)]}, time := {c := 1234567}}
def Tst.vO_rn : DumpRun := ⟨0,0,5,0,none⟩
def Tst.vO_rxp : DumpRun := ⟨0,0,5,0,some (0,3)⟩
def Tst.v322 := (Tst.S (Tst.vO_du 0 none))
def Tst.v323 := Tst.vO_ds 0 none
def Tst.v324 := (Tst.S (Tst.vO_du 0 (some Tst.vO_rn)))
def Tst.v325 := Tst.vO_ds 0 (some Tst.vO_rn)
def Tst.v326 := (Tst.S (Tst.vO_du 5 (some Tst.vO_rn)))
def Tst.v327 := Tst.vO_ds 5 (some Tst.vO_rn)
def Tst.v328 := (Tst.S (Tst.vO_du 5 none))
def Tst.v329 := Tst.vO_ds 5 none
def Tst.v330 := (Tst.S (Tst.run [Tst.exec 0x0F05 3 (Tst.pk [])] (Tst.vO_du 5 (some Tst.vO_rxp))))
def Tst.v331 := Tst.vO_ds 5 (some Tst.vO_rxp)
def Tst.v332 := (Tst.pb (Tst.bytes 32 [(0,1,15),(2,1,1),(28,4,1)]))
def Tst.vO_lb : Bytes := let h := Tst.bytes 60 [(8,8,5),(16,8,6)]; h ++ beBytes 4 (crc32c h).toNat
def Tst.vO_dnc : Dev := {Tst.dev with vers := {Tst.dev.vers with committed := false}}
def Tst.v334 := (Tst.pb Tst.vO_lb)
def Tst.v335 := (Tst.S Tst.vO_dnc)
def Tst.v336 := (Tst.pk [(16,1,13)])
def Tst.v337 := (Tst.S {Tst.dev with health := {sensors := [(13,400)]}})
def Tst.vO_rd (h : Int) : List Int := List.replicate 8 h ++ List.replicate 6 9
def Tst.v338 := Tst.vO_rd 1500
def Tst.v339 := (0x10#8:Byte)
def Tst.v340 := Tst.vO_rd 1690
def Tst.v341 := (0x30#8:Byte)
def Tst.v342 := (Tst.S {Tst.dev with sys := {Tst.dev.sys with recoveredAt := some 0}})
def Tst.v343 := (Tst.S {Tst.dev with flows := [(5,{Tst.flow with queue := {returns := [({},5)], deep := [{}]}})]})
def Tst.v347 := {Tst.dev with health := {counters := [(7, 2^64-1),(8,3)], chain := [(7,true)]}}
def Tst.v348 := {Tst.dev with health := {counters := [(7, 2^64-1),(8,3)], chain := []}}
def Tst.vZ_vnoE : Dev := {Tst.dev with vers := {running := some ⟨1,0,[Tst.obj 0x0601 1 [(16,1,2),(17,1,2),(19,1,1),(20,1,0),(21,1,1)]],[],0⟩}}
def Tst.vZ_tbz : ClsTable := ⟨0,0,0,0,0,0,false,0,0,[]⟩
def Tst.v349 := (Tst.S Tst.vZ_vnoE)
def Tst.v350 := ((clsTable? Tst.vZ_vnoE.objs 2).getD Tst.vZ_tbz)
def Tst.vZ_xc := Tst.exec 0x202 3 (Tst.pk [(16,4,2)])
def Tst.vZ_rrx : RangingRx := {chan := 0, term := 2, delim := some 1300000, good := true, final := ⟨1#8,2#10,3#8,4#16,5#56,6#12⟩, msg := [], regId := List.replicate 36 7#8, consumer := 0}
def Tst.v356 := {Tst.vZ_rrx with delim := some 1450000}
def Tst.vZ_dlf : Dev := {Tst.dev with vers := { Tst.dev.vers with running := some ⟨1, 0, Tst.objs ++ [Tst.obj 0x0508 2 [(16, 2, 5), (22, 2, 64)]], [], 0⟩}}
def Tst.v358 := (Tst.S Tst.vZ_dlf)
def Tst.vZ_fr (n : Nat) : Bytes := let h := List.replicate (n-4) 3#8; h ++ fcsOf h
def Tst.vZ_ux (n : Nat) : UplinkRx := ⟨0, Tst.vZ_fr n, false, .express, false⟩
def Tst.vZ_obn (f : Nat) : List VObj := [Tst.obj 0x0E01 1 [(16, 1, 0), (17, 1, 1), (18, 1, 1), (19, 1, 1), (24, 1, f)]]
def Tst.vZ_don (f : Nat) (k : Nat) : Dev := {Tst.dev with vers := {running := some ⟨1,0,Tst.vZ_obn f,[],0⟩}, ports := [(0,{link := k})]}
def Tst.v360 := (Tst.S (Tst.vZ_don 0 2))
def Tst.v361 := {Tst.vZ_ux 64 with path := .preemptable}
def Tst.v363 := (Tst.S (Tst.vZ_don 8 5))
def Tst.v365 := (Tst.pk [(16,1,1),(17,1,1),(21,1,128)])
def Tst.v367 := (Tst.pk [(16,1,1),(20,1,16),(21,1,16),(22,1,20)])
def Tst.v368 := (Tst.pk [(16,1,1),(17,1,3),(18,2,95),(20,1,1)])
def Tst.vZ_x9 := Tst.exec 0x0E09 3 (Tst.pk [(16,1,1),(20,1,16),(21,1,16),(22,1,20)])
def Tst.v371 := (Tst.S (Tst.run [Tst.vZ_x9] Tst.dev))
def Tst.vZ_ocl : List VObj := [Tst.obj 0x0601 1 [(16, 1, 3), (17, 1, 2), (18, 1, 0), (19, 1, 1), (20, 1, 1), (21, 1, 1)]]
def Tst.vZ_ocm : Commit := ⟨0, 3, 2, sha256 (versionImage 2 Tst.vZ_ocl), 0, false, none, .checking, []⟩
def Tst.vZ_dmb : Dev := Tst.run [Tst.vZ_xc] { Dev.reset with sys := {boot := 3}, vers := { Tst.dev.vers with running := none, openObjs := Tst.vZ_ocl, commit := some Tst.vZ_ocm, retiring := [⟨1,1,[Tst.obj 0x0601 1 [(16, 1, 2), (17, 1, 2), (18, 1, 0), (19, 1, 1), (20, 1, 1), (21, 1, 1)]],[],9⟩] } }
def Tst.v372 := (Tst.S Tst.vZ_dmb)
def Tst.v373 := (Tst.flow)
def Tst.v374 := (Tst.S ({ Tst.dev with sys := { Tst.dev.sys with dark := true }, vers := {} }))
def Tst.v376 := (Tst.pk [(16, 1, 1), (17, 1, 1), (20, 2, 100), (24, 4, 5)])
def Tst.v377 := (Tst.S ({ Tst.dev with termDom := [(100, 1)] }))
def Tst.v378 := (Tst.pk [(16, 1, 15)])
def Tst.v379 := (Tst.S ({ Tst.dev with doms := [(15, { disabled := true })] }))
def Tst.v381 := (Tst.pk [(16, 4, 3)])
def Tst.v383 := (Tst.pk [(16, 4, 10)])
def Tst.v384 := (Tst.pk [(16, 4, 2)])
def Tst.v385 := (Tst.pv [(16, 2, 191), (18, 1, 1)])
def Tst.v386 := (Tst.pv [(16, 2, 0), (18, 1, 3), (20, 1, 2), (21, 1, 4)])
def Tst.v389 := (Tst.pv [(16, 2, 0)])
def Tst.v390 := (Tst.pv [(16, 2, 8), (18, 2, 1), (20, 2, 1024), (22, 1, 1), (24, 4, 16), (28, 4, 0xFFFFFFFF)])
def Tst.v392 := (Tst.pv [(16, 2, 16), (18, 2, 32), (20, 2, 48), (22, 2, 32), (24, 2, 64)])
def Tst.v393 := (Tst.pv [(16, 1, 63), (28, 4, 100), (32, 4, 50), (36, 4, 10)])
def Tst.v395 := (Tst.pv [(16, 2, 191), (24, 4, 1024)])
def Tst.v396 := (Tst.pv [(16, 1, 0), (20, 1, 1), (21, 1, 1), (22, 1, 1), (28, 4, 1024)])
def Tst.v397 := (Tst.pbv (Tst.bytes 28 [(0, 1, 1), (8, 8, 100), (16, 4, 1000), (20, 2, 1), (24, 4, 1000)]))
def Tst.v398 := (Tst.pv [(20, 1, 6), (21, 1, 3)])
def Tst.v399 := (Tst.pv [(16, 2, 0), (18, 2, 1), (20, 1, 2), (24, 2, 5), (26, 2, 5)])
def Tst.v403 := (Tst.S ({ Tst.dev with chans := [(0, { disabled := true })] }))
def Tst.v406 := (Tst.pb (Tst.bytes 9 [(0, 2, 1), (8, 1, 7)]))
def Tst.v409 := (Tst.S ({ Tst.dev with execs := [⟨0, 0, 0x030A, Tst.pk [], Tst.par [(16, 1, 1), (21, 1, 1)], [], true, none, false, none, [1]⟩], doms := [(0, { nextSeq := 1 })] }))
def Tst.v413 := (Tst.pbv (Tst.bytes 80 [(0, 1, 1), (1, 1, 1), (4, 4, 7), (8, 4, 1)]))
def Tst.v414 := (Tst.pbv (Tst.bytes 32 [(0, 1, 2), (2, 2, 0)]))
def Tst.v415 := (Tst.S (Tst.devCls))
def Tst.v416 := (Tst.pb (Tst.bytes 32 [(0, 1, 3), (2, 2, 2048)]))
def Tst.v417 := (Tst.pb (Tst.bytes 32 [(0, 1, 3), (1, 1, 1), (2, 2, 2048)]))
def Tst.v418 := (Tst.S ({ Tst.devCls with cls := { sub := [(198656, ⟨0, [], [], 0⟩)] } }))
def Tst.v430 := (Tst.pk [(16, 1, 6), (24, 4, 1)])
def Tst.v431 := (Tst.pk [(16, 2, 1), (18, 1, 6)])
def Tst.v432 := (Tst.pk [(16, 2, 6), (18, 2, 1), (20, 2, 0xFFFF), (22, 2, 0xFFFF), (24, 1, 1)])
def Tst.v433 := (Tst.pk [(16, 2, 5), (18, 2, 1), (20, 2, 100), (22, 2, 101), (24, 1, 2), (29, 1, 1)])
def Tst.v434 := (Tst.pk [(16, 2, 5), (25, 1, 2)])
def Tst.v435 := (Tst.S ({ Tst.dev with flows := [(5, { Tst.flow with disabled := true })] }))
def Tst.v441 := (Tst.pb (Tst.bytes 64 [(0, 4, 3), (4, 1, 1)]))
def Tst.v442 := (Tst.pb (Tst.bytes 64 [(0, 4, 3), (4, 1, 18), (8, 4, 9)]))
def Tst.v443 := (Tst.S ({ Tst.dev with keys := [(3, { ctr := true })] }))
def Tst.v455 := (Tst.pk [(16, 4, 0x10000000)])
def Tst.v457 := (Tst.S ({ Tst.dev with prot := { isolated := true } }))
def Tst.v466 := (Tst.pk [(16, 1, 1), (18, 2, 95)])
def Tst.v467 := (Tst.S ({ Tst.dev with lanes := [(1119, { checker := 1 })] }))
def Tst.v469 := (Tst.pk [(16, 4, 2097150), (20, 2, 1)])
def Tst.v470 := (Tst.pk [(20, 4, 65536)])
/-! ### Further values of the witnesses -/

/-- Beacon 3 comes before beacon 5; beacon 5 at the next frame's start. -/
def Tst.wA1 := Tst.S {Tst.dev with time := { beacons := [(3, {state := .set, instant := 500}), (5, {state := .armed, instant := 1000})]}}
def Tst.wA2 := Tst.S {Tst.dev with time := { beacons := [(5, {state := .set, instant := 125000})]}}
/-- A commit that waits for beacon 5, with the beacon in a state and commands armed on it. -/
def Tst.wC (b : List (Nat × Beacon)) (armed : Nat) (dry : Bool) : Machine.State :=
  let d := Tst.vC_vd { Tst.dev.vers with commit := some { Tst.vC_cm .checking 0 dry with beacon := some 5 } }
  Tst.S { d with time := { d.time with beacons := b }
                 execs := d.execs ++ (List.range armed).map fun n => { Tst.exec 0x0F05 (100 + n) (Tst.pk []) with armed := some 5 } }
def Tst.wC1 := Tst.wC [] 0 false
def Tst.wC2 := Tst.wC [(5, {state := .fired, instant := 0})] 0 false
def Tst.wC3 := Tst.wC [(5, {state := .set, instant := 10000000})] 16 false
def Tst.wC4 := Tst.wC [(5, {state := .set, instant := 10000000})] 0 true
def Tst.wC5 := Tst.wC [(5, {state := .set, instant := 10000000})] 0 false
/-- A Lantern frame waits before the OMCI message. -/
def Tst.wD1 := Tst.S {Tst.vD_dom1 with chans := [(0, {lantern := [Tst.vJ_yf]})]}
def Tst.wD2 := Tst.S (Tst.vD_open Tst.dev)
def Tst.wD3 := Tst.S (Tst.vD_open Tst.v78.dev)
def Tst.wD5 := {Tst.vD_drx with bits := List.replicate 600 false}
def Tst.wD6 := {Tst.vD_drx with decoded := false}
def Tst.wD7 := {Tst.vD_drx with serial := 1}
def Tst.wP0 : Profile := (profile? Tst.objs 0 0).getD ⟨false, 0, 0, 0, 0, 0⟩
/-- A ranging window for a terminal whose registration ID was not to be checked. -/
def Tst.wR (t : Machine.Term) (chk : Bool) (ex : List Exec) : Machine.State :=
  Tst.S (Tst.run ex ((Tst.vD_dt t).setChan 0 fun c => { c with linkUp := true, windows := [{Tst.vD_rwin with regChk := chk}] }))
def Tst.wR1 := Tst.wR {Tst.term 2 2 with regId := List.replicate 36 8#8} true []
def Tst.wR2 := Tst.wR (Tst.term 2 2) false []
def Tst.wR3 := Tst.wR {Tst.term 4 2 with eqd := 761028} false [Tst.vD_xr]
def Tst.wR4 := Tst.wR {Tst.term 4 2 with eqd := 761028, eqdWait := 5} false [Tst.vD_xr]
def Tst.wR5 := Tst.wR {Tst.term 2 2 with attempts := 9} false []
def Tst.wR6 := {Tst.vD_rrx with good := false}
def Tst.wRoff (d : Dev) : Dev := { d with vers := { d.vers with running := some ⟨1, 0, Tst.objs.filter (fun o => o.op != 0x0407), [], 0⟩ } }
def Tst.wR8 := Tst.S (Tst.wRoff Tst.wR2.dev)
def Tst.wR9 := Tst.S (Tst.wRoff Tst.wR3.dev)
def Tst.wR10 := {Tst.vD_brx Tst.vD_okbits with start := 999}
/-- A notice of a key whose earlier notice names the same source; a full list; a rate limit that passes none; no limit. -/
def Tst.wL1 := Tst.S {Tst.vH_dn (some 0) 3 with fwd := {(Tst.vH_dn (some 0) 3).fwd with pend := [⟨3, 9, 5, 5000⟩]}}
def Tst.wL2 := Tst.S {Tst.vH_dn (some 0) 3 with fwd := {(Tst.vH_dn (some 0) 3).fwd with pend := List.replicate 4096 ⟨1, 1, 1, 1⟩}}
def Tst.wL3 := Tst.S (Tst.vH_dn (some 0) 0)
def Tst.wL5 : FwdEntry := ⟨3, 11, true, false, 0, 0, 0, false, 4, 1, false⟩
def Tst.wL6 : FwdEntry := ⟨3, 9, false, false, 0, 0, 0, true, 2, 1, false⟩
def Tst.wM1 := {Tst.v185 with early := true}
def Tst.wM2 := {Tst.v183 with early := true}
def Tst.wM3 : Bytes := Tst.v189 ++ [0#8]
/-- The deep buffer's reads of a flow and of a port's class come back, with and without room in the packet memory. -/
def Tst.wB1 := Tst.S (Tst.vI_ddr [0, 0, 0, 0, 0])
def Tst.wB2 := Tst.S (Tst.vI_ddr [16, 32, 48, 32, 64])
def Tst.wB (sz : List Nat) : Machine.State :=
  Tst.S {Tst.dev with sw := {Tst.dev.sw with sizes := sz}, ports := [(0, {link := 2, queues := [{}, {returns := [(Tst.vI_yf, 300)]}, {}, {}]})]}
def Tst.wB3 := Tst.wB [0, 0, 0, 0, 0]
def Tst.wB4 := Tst.wB [16, 32, 48, 32, 64]
/-- A frame that meter 0 polices in its pass. -/
def Tst.wB5 := Tst.S {Tst.vI_dpp [Tst.vI_pf 0] [] with
  meters := [(0, Tst.vJ_mtr)]
  vers := {running := some ⟨1, 0, [Tst.obj 0x0601 1 [(16, 1, 2), (17, 1, 2), (19, 1, 1), (20, 1, 0), (21, 1, 1), (22, 1, 0)],
    ⟨0x0605, [2#8, 0#8, 0#8], Tst.bytes 32 [(0, 1, 2), (4, 8, 2 ^ 38)]⟩,
    Tst.obj 0x0602 1 [(16, 1, 0), (18, 1, 2), (19, 1, 255), (20, 1, 255), (21, 1, 255)]], [], 0⟩}}
/-- A gate list whose start has come. -/
def Tst.wG1 := Tst.S {Tst.vJ_dg none (some Tst.vJ_gl) with time := {c := 10000}}
def Tst.wJ1 := Tst.S (Tst.vJ_dch (Tst.vJ_lit {lantern := [Tst.vJ_yf], fragment := some (Tst.vJ_sn Tst.vJ_yf)}) [])
def Tst.wJ2 := Tst.S {Tst.v214.dev with prot := {cutover := .losing}}
def Tst.wJ3 := Tst.S (Tst.vJ_dch (Tst.vJ_lit {fragment := some (Tst.vJ_sn {Tst.vJ_yf with early := true})}) [])
/-- A port that preempts, with a frame on the wire or a fragment that waits, an express frame, and a closed gate. -/
def Tst.wJps : PortSend := { frame := Tst.vJ_yf, cls := 2, data := Tst.vJ_fr 64 }
def Tst.wJp (p : Port) (flags : Nat) (g : Tbl Gate) : Dev :=
  {Tst.dev with
    ports := [(0, {p with link := 2, preempt := 2})]
    gates := g
    vers := {running := some ⟨1, 0, [Tst.obj 0x0E01 1 [(16, 1, 0), (17, 1, 1), (18, 1, 1), (19, 1, 1), (24, 1, flags)]], [], 0⟩}}
def Tst.wJ4 := Tst.S (Tst.wJp {fragment := some Tst.wJps} 3 [])
def Tst.wJ5 := Tst.S (Tst.wJp {fragment := some Tst.wJps, queues := [{frames := [Tst.vJ_yf]}, {}, {}, {}]} 3 [])
def Tst.wJ6 := Tst.S (Tst.wJp {sending := some Tst.wJps} 3 [])
def Tst.wJ7 := Tst.S (Tst.wJp {sending := some Tst.wJps, queues := [{frames := [Tst.vJ_yf]}, {}, {}, {}]} 3 [])
def Tst.wJ8 := Tst.S (Tst.wJp {queues := [{}, {frames := [Tst.vJ_yf]}, {}, {}]} 3 [])
def Tst.wJ9 := Tst.S (Tst.wJp {fragment := some Tst.wJps} 3 [(1024, {inForce := some ⟨0, 200000, [(0, 100000), (15, 100000)]⟩})])
def Tst.wJg : Group := (Tst.wJ4.dev.group? 0).getD ⟨0,0,0,0,0,0,0,0,0,0,0,0,0⟩
def Tst.wJh : Group := {Tst.wJg with kind := 2}
def Tst.wT1 := Tst.vK_ei {synce := [(0, {flags := 3#8, prio := 1, ql := some 2})], freq := 2, pllLocked := true}
def Tst.wT2 := Tst.vK_ei {role := 1, ptpLocked := true}
def Tst.wT3 := Tst.vK_ei {role := 3, source := some 4, paths := [(4, 0, 7)], folEver := true, folLocked := true}
def Tst.wT4 := Tst.vK_ei {role := 3, source := some 4, paths := [(4, 0, 7), (12, 1, 7)], folEver := true, folLocked := true}
def Tst.wT5 := Tst.vK_pr false
def Tst.wN1 := Tst.pbv (Tst.bytes 16 [(2, 2, 1), (8, 4, 0x10080000), (12, 4, 0)])
def Tst.wN2 := {Tst.pk [(16, 1, 1)] with flags := 2#8, beacon := 511#32}
def Tst.wN3 := Tst.S {Tst.v304.dev with time := {Tst.v304.dev.time with beacons := [(511, {state := .set, instant := 10000000})]}, execs := []}
def Tst.wN4 : Bytes := Tst.vM_stm
def Tst.wN5 : Heritage := {left := true, position := 0, candidate := [7]}
def Tst.wO1 := Tst.S {Tst.vM_dprot {} with time := {Tst.dev.time with c := 110000}}
def Tst.wO2 := Tst.S (Tst.vM_dprot {latched := some (0, 9, true)})
/-- The line of devices that claim 5 and 7. -/
def Tst.wO3 : List Bool :=
  (List.range 34).foldl (fun s _ => s ++ [(lineDrives true 5 s).getD s.length false || (lineDrives true 7 s).getD s.length false]) []
def Tst.wO4 (n : Nat) : MirrorRecord := {Tst.vM_mr with part := n}
def Tst.wO5 := Tst.wO4 1
def Tst.wO6 := Tst.wO4 2
def Tst.wO7 := Tst.wO4 3
def Tst.wO8 := Tst.wO4 4
def Tst.wO9 := Tst.S (Tst.vM_dprot {cutover := .incoming, transmitting := true, cutAt := 125000})
def Tst.wO10 := Tst.S (Tst.vM_dprot {cutover := .opened, transmitting := true, cutAt := 125000})
def Tst.wO11 := Tst.S (Tst.vM_dprot {cutover := .closing, transmitting := true, cutAt := 125000})
def Tst.wQ1 : Group := {Tst.vN_g0 with rate := 3}
def Tst.wQ2 : Group := {Tst.vN_g0 with rate := 2, precode := 5}
/-- A flow whose committed bucket is empty. -/
def Tst.wJx : Dev := {Tst.vJ_dcm with flows := [(5, {Tst.flow with queue := {frames := [Tst.vJ_yf]}, cir := ⟨-100, 0, 0, true⟩, pir := ⟨100000, 0, 0, true⟩})]}

/-! ### Witnesses: the hypotheses of each clause of a statement, at the values above (`Tst.ok` is `CmdDef.accepts`) -/

/-- States and operands that meet the hypotheses of `Obligations.SystemReadsAnswer`. -/
theorem wit_SystemReadsAnswer :
    Tst.ok cmdEpochQuery Tst.dev Tst.v9 = true
    ∧ Tst.ok cmdVersionQuery Tst.dev Tst.v9 = true
    ∧ Tst.ok cmdMeshStatus Tst.dev Tst.v9 = true := by
  refine ⟨?_, ?_, ?_⟩ <;> decide +kernel

/-- States and operands that meet the hypotheses of `Obligations.SystemSettingsChange`. -/
theorem wit_SystemSettingsChange :
    (let b := Packet.bytes Tst.v66;
      Tst.ok cmdHeartbeatSet Tst.v374.dev Tst.v66 = true ∧ ent b 16 8 ≠ 0)
    ∧ Tst.ok cmdEpochPin Tst.v374.dev Tst.v66 = true
    ∧ (let b := Packet.bytes Tst.v9;
      Tst.ok cmdHeartbeatSet Tst.dev Tst.v9 = true ∧ ent b 16 8 = 0)
    ∧ Tst.ok cmdDomainGrant Tst.v377.dev Tst.v376 = true
    ∧ Tst.ok cmdDomainRevoke Tst.v377.dev Tst.v376 = true
    ∧ Tst.ok cmdDomainDisable Tst.dev Tst.v378 = true
    ∧ Tst.ok cmdDomainEnable Tst.v379.dev Tst.v378 = true := by
  refine ⟨?_, ?_, ?_, ?_, ?_, ?_, ?_⟩ <;> decide +kernel

/-- States and operands that meet the hypotheses of `Obligations.FirmwareAndItsStagingMemory`. -/
theorem wit_FirmwareAndItsStagingMemory :
    Tst.ok cmdFirmwareLoad Tst.v1.dev Tst.v0 = true
    ∧ Memory.wf Tst.v2 = true
    ∧ (let b := Packet.bytes Tst.v6;
      let image := fun n => Memory.load Tst.v7.dev.sys.staging n;
      (Tst.v7.dev.sys.inReset = false ∧ Tst.v7.dev.sys.fatal = false) ∧ (Tst.v6.ring ≤ 15 ∧ Packet.fence Tst.v6 = false ∧ Packet.atBeacon Tst.v6 = false ∧ Packet.dry Tst.v6 = false) ∧ Tst.v6.ring = 0 ∧ Tst.v6.domain = 0#8 ∧ Tst.v6.tver = 0#32 ∧ Packet.indirect Tst.v6 = false ∧ entryForm Tst.v6 false false = true ∧ 64 ≤ ent b 16 4 ∧ ent b 16 4 ≤ 16777216 ∧ zeros 16 b [(24, 63)] = true ∧ Tst.v7.dev.sys.fwStarted = false ∧ Tst.v7.dev.sys.boot ≠ 3 ∧ BitVec.toNat (crc32c (image (ent b 16 4))) = ent b 20 4)
    ∧ (Tst.v10.dev.sys.inReset = false ∧ Tst.v10.dev.sys.starting = some (some (0, 0)) ∧ Tst.v10.dev.exec? 0 0 = some Tst.v12) := by
  refine ⟨?_, ?_, ?_, ?_⟩ <;> decide +kernel

/-- States and operands that meet the hypotheses of `Obligations.RegisterWritesActOnTheirRing`. -/
theorem wit_RegisterWritesActOnTheirRing :
    (decide (Tst.v299.dev.sys.inReset = false) && (
        let badLog : Prop := Tst.v14.toNat < 6;
        let m : Dom := Tst.v299.dev.dom 1;
        let badBase : Prop := BitVec.toNat m.cmdBaseLo % 4096 ≠ 0 ∨ BitVec.toNat m.replyBaseLo % 4096 ≠ 0;
        decide (1 ≤ 15) && decide (m.disabled = false ∧ m.enable = false ∧ Tst.v299.dev.inExec 1 = 0 ∧ ¬badLog ∧ ¬badBase))) = true
    ∧ (decide (Tst.v299.dev.sys.inReset = false) && (
        let badLog : Prop := (0#4).toNat < 6;
        let m : Dom := Tst.v299.dev.dom 1;
        let badBase : Prop := BitVec.toNat m.cmdBaseLo % 4096 ≠ 0 ∨ BitVec.toNat m.replyBaseLo % 4096 ≠ 0;
        decide (1 ≤ 15) && decide (m.disabled = false ∧ m.enable = false ∧ Tst.v299.dev.inExec 1 = 0 ∧ (badLog ∨ badBase)))) = true
    ∧ (decide (Tst.v299.dev.sys.inReset = false) && (
        let m : Dom := Tst.v299.dev.dom 0;
        decide (0 ≤ 15) && decide (m.disabled = true ∨ m.enable = true ∨ Tst.v299.dev.inExec 0 ≠ 0))) = true
    ∧ (decide (Tst.v299.dev.sys.inReset = false) && decide (0 ≤ 15)) = true
    ∧ (decide (Tst.v23.dev.sys.inReset = false) && (
        let m : Dom := Tst.v23.dev.dom 2;
        decide (2 ≤ 15) && decide (m.disabled = true))) = true
    ∧ (decide (Tst.v299.dev.sys.inReset = false) && (
        let m : Dom := Tst.v299.dev.dom 0;
        decide (0 ≤ 15) && (
          let v : BitVec 16 := BitVec.setWidth 16 Tst.v22;
          decide (m.disabled = false ∧ m.enable = true ∧ 2 ^ m.log2.toNat < (v - m.consumer).toNat)))) = true
    ∧ (decide (Tst.v299.dev.sys.inReset = false) && (
        let m : Dom := Tst.v299.dev.dom 0;
        decide (0 ≤ 15) && (
          let v : BitVec 16 := BitVec.setWidth 16 Tst.v17;
          decide (m.disabled = false ∧ (m.enable = false ∨ (v - m.consumer).toNat ≤ 2 ^ m.log2.toNat))))) = true
    ∧ (decide (Tst.v299.dev.sys.inReset = false) && (
        let quiet : Prop := (Tst.v299.dev.dom 1).enable = false ∧ Tst.v299.dev.inExec 1 = 0;
        decide (1 ≤ 15) && decide (quiet))) = true
    ∧ (decide (Tst.v299.dev.sys.inReset = false) && (
        let quiet : Prop := (Tst.v299.dev.dom 0).enable = false ∧ Tst.v299.dev.inExec 0 = 0;
        decide (0 ≤ 15) && decide (0 ≠ 4 ∨ 0 ≠ 4112 ∧ 0 ≠ 4116 ∧ (¬quiet ∨ ¬0 ∈ [4096, 4100, 4104, 4108])))) = true
    ∧ (decide (4 ≤ 4) && decide (4 < 31)) = true
    ∧ (let m : Dom := Tst.vZ_dlf.dom 0;
      decide (m.errCount ≤ 255)) = true
    ∧ (decide (12 ≤ 14) && decide (14 < 30)) = true
    ∧ (decide (¬1 ∈ [0, 4, 8, 12, 16, 20, 4096, 4100, 4104, 4108, 4112, 4116, 4120, 4124])) = true := by
  refine ⟨?_, ?_, ?_, ?_, ?_, ?_, ?_, ?_, ?_, ?_, ?_, ?_, ?_⟩ <;> decide +kernel

/-- States and operands that meet the hypotheses of `Obligations.FetchTakesTheNextEntry`. -/
theorem wit_FetchTakesTheNextEntry :
    (decide (Tst.v299.dev.sys.inReset = false ∧ Tst.v299.dev.sys.fatal = false) && decide (Tst.v299.dev.heldReady? = none)) = true
    ∧ (let d : Dev := Tst.v24.dev.startHeld Tst.v24.dev.execs.length;
      decide (Tst.v24.dev.sys.inReset = false ∧ Tst.v24.dev.sys.fatal = false) && (
        match d.turn? with
        | some _ =>
          true
        | _ => false)) = true
    ∧ (let d : Dev := Tst.v299.dev.startHeld Tst.v299.dev.execs.length;
      decide (Tst.v299.dev.sys.inReset = false ∧ Tst.v299.dev.sys.fatal = false) && decide (d.turn? = none)) = true := by
  refine ⟨?_, ?_, ?_⟩ <;> decide +kernel

/-- States and operands that meet the hypotheses of `Obligations.VersionCommandsChangeTheOpenVersion`. -/
theorem wit_VersionCommandsChangeTheOpenVersion :
    (decide (Tst.ok cmdVersionOpen Tst.v320.dev Tst.v268 = true)) = true
    ∧ (decide (Tst.ok cmdVersionAbort Tst.v299.dev Tst.v9 = true) && decide (Tst.v299.dev.vers.commit = none)) = true
    ∧ (decide (Tst.ok cmdVersionRetireLimit Tst.v299.dev Tst.v9 = true)) = true
    ∧ (decide (Tst.ok cmdVersionCommit Tst.v299.dev Tst.v384 = true)) = true := by
  refine ⟨?_, ?_, ?_, ?_⟩ <;> decide +kernel

/-- States and operands that meet the hypotheses of `Obligations.CommitsFinishAndVersionsRetire`. -/
theorem wit_CommitsFinishAndVersionsRetire :
    (decide (Tst.v35.dev.sys.inReset = false) && (
        match Tst.v35.dev.vers.commit with
        | some c =>
          decide (c.phase = CommitPhase.checking) && (
            match Tst.v35.dev.exec? c.dom c.seq with
            | some _ =>
              match Tst.v35.dev.commitFailures c with
              | _ :: _ =>
                decide (c.report ≠ 0)
              | _ => false
            | _ => false)
        | _ => false)) = true
    ∧ (decide (Tst.v38.dev.sys.inReset = false) && (
        match Tst.v38.dev.vers.commit with
        | some c =>
          decide (c.phase = CommitPhase.checking) && (
            match Tst.v38.dev.exec? c.dom c.seq with
            | some _ =>
              match Tst.v38.dev.commitFailures c with
              | _ :: _ =>
                decide (c.report = 0)
              | _ => false
            | _ => false)
        | _ => false)) = true
    ∧ (decide (Tst.v372.dev.sys.inReset = false) && (
        match Tst.v372.dev.vers.commit with
        | some c =>
          decide (c.phase = CommitPhase.checking) && (
            match Tst.v372.dev.exec? c.dom c.seq with
            | some _ =>
              decide (Tst.v372.dev.commitFailures c = []) && decide (Tst.v372.dev.memoryBusy = true)
            | _ => false)
        | _ => false)) = true
    ∧ (decide (Tst.v33.dev.sys.inReset = false) && (
        match Tst.v33.dev.vers.commit with
        | some c =>
          decide (c.phase = CommitPhase.checking) && (
            match Tst.v33.dev.exec? c.dom c.seq with
            | some _ =>
              decide (Tst.v33.dev.commitFailures c = []) && decide (Tst.v33.dev.memoryBusy = false) && decide (c.beacon = none) && decide
                  (c.dry = true)
            | _ => false)
        | _ => false)) = true
    ∧ (decide (Tst.v29.dev.sys.inReset = false) && (
        match Tst.v29.dev.vers.commit with
        | some c =>
          decide (c.phase = CommitPhase.checking) && (
            match Tst.v29.dev.exec? c.dom c.seq with
            | some _ =>
              decide (Tst.v29.dev.commitFailures c = []) && decide (Tst.v29.dev.memoryBusy = false) && decide (c.beacon = none) && decide
                  (c.dry = false)
            | _ => false)
        | _ => false)) = true
    ∧ (decide (Tst.wC1.dev.sys.inReset = false) && (
        match Tst.wC1.dev.vers.commit with
        | some c =>
          decide (c.phase = CommitPhase.checking) && (
            match Tst.wC1.dev.exec? c.dom c.seq with
            | some _ =>
              decide (Tst.wC1.dev.commitFailures c = []) && decide (Tst.wC1.dev.memoryBusy = false) && (
                match c.beacon with
                | some b =>
                  let x : Beacon := Tst.wC1.dev.beacon b;
                  decide (x.state = BeaconState.unset)
                | _ => false)
            | _ => false)
        | _ => false)) = true
    ∧ (decide (Tst.wC2.dev.sys.inReset = false) && (
        match Tst.wC2.dev.vers.commit with
        | some c =>
          decide (c.phase = CommitPhase.checking) && (
            match Tst.wC2.dev.exec? c.dom c.seq with
            | some _ =>
              decide (Tst.wC2.dev.commitFailures c = []) && decide (Tst.wC2.dev.memoryBusy = false) && (
                match c.beacon with
                | some b =>
                  let x : Beacon := Tst.wC2.dev.beacon b;
                  let gone : Prop := x.state = BeaconState.fired ∨ x.state = BeaconState.missed ∨ tdiff x.instant Tst.wC2.dev.now < 250000;
                  decide (x.state ≠ BeaconState.unset) && decide (gone)
                | _ => false)
            | _ => false)
        | _ => false)) = true
    ∧ (decide (Tst.wC3.dev.sys.inReset = false) && (
        match Tst.wC3.dev.vers.commit with
        | some c =>
          decide (c.phase = CommitPhase.checking) && (
            match Tst.wC3.dev.exec? c.dom c.seq with
            | some _ =>
              decide (Tst.wC3.dev.commitFailures c = []) && decide (Tst.wC3.dev.memoryBusy = false) && (
                match c.beacon with
                | some b =>
                  let x : Beacon := Tst.wC3.dev.beacon b;
                  let gone : Prop := x.state = BeaconState.fired ∨ x.state = BeaconState.missed ∨ tdiff x.instant Tst.wC3.dev.now < 250000;
                  let full : Prop := 16 ≤ (Tst.wC3.dev.armedOn b).length;
                  decide (x.state ≠ BeaconState.unset) && decide (¬gone) && decide (full)
                | _ => false)
            | _ => false)
        | _ => false)) = true
    ∧ (decide (Tst.wC4.dev.sys.inReset = false) && (
        match Tst.wC4.dev.vers.commit with
        | some c =>
          decide (c.phase = CommitPhase.checking) && (
            match Tst.wC4.dev.exec? c.dom c.seq with
            | some _ =>
              decide (Tst.wC4.dev.commitFailures c = []) && decide (Tst.wC4.dev.memoryBusy = false) && (
                match c.beacon with
                | some b =>
                  decide (c.dry = true) && (
                    let x : Beacon := Tst.wC4.dev.beacon b;
                    let gone : Prop := x.state = BeaconState.fired ∨ x.state = BeaconState.missed ∨ tdiff x.instant Tst.wC4.dev.now <
                        250000;
                    let full : Prop := 16 ≤ (Tst.wC4.dev.armedOn b).length;
                    decide (x.state ≠ BeaconState.unset) && decide (¬gone) && decide (¬full))
                | _ => false)
            | _ => false)
        | _ => false)) = true
    ∧ (decide (Tst.wC5.dev.sys.inReset = false) && (
        match Tst.wC5.dev.vers.commit with
        | some c =>
          decide (c.phase = CommitPhase.checking) && (
            match Tst.wC5.dev.exec? c.dom c.seq with
            | some _ =>
              decide (Tst.wC5.dev.commitFailures c = []) && decide (Tst.wC5.dev.memoryBusy = false) && (
                match c.beacon with
                | some b =>
                  decide (c.dry = false) && (
                    let x : Beacon := Tst.wC5.dev.beacon b;
                    let gone : Prop := x.state = BeaconState.fired ∨ x.state = BeaconState.missed ∨ tdiff x.instant Tst.wC5.dev.now <
                        250000;
                    let full : Prop := 16 ≤ (Tst.wC5.dev.armedOn b).length;
                    decide (x.state ≠ BeaconState.unset) && decide (¬gone) && decide (¬full))
                | _ => false)
            | _ => false)
        | _ => false)) = true
    ∧ (decide (Tst.v40.dev.sys.inReset = false) && (
        match Tst.v40.dev.vers.switched with
        | c :: rest =>
          match c.phase with
          | CommitPhase.switched _ _ =>
            let lit : Dev := { Tst.v40.dev with sys := { Tst.v40.dev.sys with dark := Tst.v40.dev.sys.fatal }, vers := { Tst.v40.dev.vers with switched := rest } }.relink;
            match lit.exec? c.dom c.seq with
            | some _ =>
              true
            | _ => false
          | _ => false
        | _ => false)) = true
    ∧ (decide (Tst.v299.dev.sys.inReset = false) && decide (∀ (x : Frame), x ∈ Tst.v299.dev.allFrames → x.slot ≠ 0)) = true
    ∧ (decide (Tst.v167.dev.sys.inReset = false) && decide (∃ (x : Frame), x ∈ Tst.v167.dev.allFrames ∧ x.slot = 4)) = true
    ∧ (decide (Tst.v42.dev.sys.inReset = false) && (
        match List.find? (fun (v : Version) => v.slot == 3) Tst.v42.dev.vers.retiring with
        | some _ =>
          true
        | _ => false)) = true := by
  refine ⟨?_, ?_, ?_, ?_, ?_, ?_, ?_, ?_, ?_, ?_, ?_, ?_, ?_, ?_⟩ <;> decide +kernel

/-- States and operands that meet the hypotheses of `Obligations.FrameInstantTakesTheOrderOfR28`. -/
theorem wit_FrameInstantTakesTheOrderOfR28 :
    (decide (Tst.v299.dev.sys.inReset = false)) = true
    ∧ (decide (∀ (x : Nat × Beacon), x ∈ Tst.vZ_dlf.time.beacons → x.fst < 512)) = true
    ∧ (decide (∀ (x : Nat × Beacon), x ∈ Tst.v44.dev.time.beacons → x.fst < 512) && (
        match Tst.v44.dev.dueBeacon? 1000 with
        | some _ =>
          true
        | _ => false)) = true := by
  refine ⟨?_, ?_, ?_⟩ <;> decide +kernel

/-- States and operands that meet the hypotheses of `Obligations.BeaconsHeartbeatsAndDrainsAct`. -/
theorem wit_BeaconsHeartbeatsAndDrainsAct :
    (let n : Nat := Tst.v44.dev.time.frame + 1;
      decide (Tst.v44.dev.sys.inReset = false) && (
        let x : Beacon := Tst.v44.dev.beacon 5;
        decide (x.state = BeaconState.set ∨ x.state = BeaconState.armed) && decide (x.instant ≠ n * 125000) && decide
            (Tst.v44.dev.dueBeacon? x.instant = some 5))) = true
    ∧ (let n : Nat := Tst.wA1.dev.time.frame + 1;
      decide (Tst.wA1.dev.sys.inReset = false) && (
        let x : Beacon := Tst.wA1.dev.beacon 5;
        decide (x.state = BeaconState.set ∨ x.state = BeaconState.armed) && decide (x.instant ≠ n * 125000) && (
          match Tst.wA1.dev.dueBeacon? x.instant with
          | some a =>
            decide (a ≠ 5)
          | _ => false))) = true
    ∧ (decide (Tst.v44.dev.sys.inReset = false) && (
        let x : Beacon := Tst.v44.dev.beacon 5;
        decide (x.state = BeaconState.set ∨ x.state = BeaconState.armed))) = true
    ∧ (let n : Nat := Tst.wA2.dev.time.frame + 1;
      decide (Tst.wA2.dev.sys.inReset = false) && (
        let x : Beacon := Tst.wA2.dev.beacon 5;
        decide (x.state = BeaconState.set ∨ x.state = BeaconState.armed) && decide (x.instant = n * 125000))) = true
    ∧ (decide (Tst.v299.dev.sys.inReset = false) && (
        let x : Beacon := Tst.v299.dev.beacon 0;
        decide (x.state ≠ BeaconState.set) && decide (x.state ≠ BeaconState.armed))) = true
    ∧ (decide (Tst.v44.dev.sys.inReset = false) && (
        match Tst.v44.dev.dueBeacon? 1000 with
        | some b =>
          let x : Beacon := Tst.v44.dev.beacon b;
          decide ((x.state = BeaconState.set ∨ x.state = BeaconState.armed) ∧ x.instant = 1000)
        | _ => false)) = true
    ∧ (decide (Tst.wA1.dev.sys.inReset = false) && (
        let x : Beacon := Tst.wA1.dev.beacon 5;
        decide ((x.state = BeaconState.set ∨ x.state = BeaconState.armed) ∧ x.instant = 1000) && (
          match Tst.wA1.dev.dueBeacon? 1000 with
          | some a =>
            decide (a ≠ 5)
          | _ => false))) = true
    ∧ (decide (Tst.v299.dev.sys.inReset = false) && (
        let x : Beacon := Tst.v299.dev.beacon 0;
        decide (¬((x.state = BeaconState.set ∨ x.state = BeaconState.armed) ∧ x.instant = 0)))) = true
    ∧ (decide (Tst.v47.dev.sys.inReset = false) && decide (Tst.v47.dev.sys.fatal = false) && (
        let m : Dom := Tst.v47.dev.dom 5;
        decide (5 ≤ 15) && decide (m.hbAddr ≠ 0))) = true
    ∧ (decide (Tst.v299.dev.sys.inReset = false) && (
        let m : Dom := Tst.v299.dev.dom 0;
        decide (m.hbAddr = 0 ∨ Tst.v299.dev.sys.fatal = true))) = true
    ∧ (decide (Tst.v48.dev.sys.inReset = false) && (
        match List.find? (fun (y : Drain) => y.obj == Tst.v45) Tst.v48.dev.drains with
        | some x =>
          match List.find? (fun (y : Drain) => y.obj == Tst.v45) Tst.v48.dev.drains with
          | some _ =>
            let mine : Exec → Bool := fun (e : Exec) => e.isFor Tst.v45 && !(e.dom == x.dom && e.seq == x.seq);
            let quiet : Prop := Tst.v48.dev.drainWork Tst.v45 = 0 ∧ List.filter mine Tst.v48.dev.execs = [];
            decide (quiet → Tst.v48.dev = Tst.v48.dev) && decide (¬quiet → Tst.v48.dev = Tst.v48.dev.goCounter x.due) && (
              match (Tst.v48.dev.endAll mine Status.abandoned).drainDiscard Tst.v45 with
              | (_, _) =>
                true)
          | _ => false
        | _ => false)) = true
    ∧ (decide (Tst.v48.dev.sys.inReset = false) && (
        match List.find? (fun (y : Drain) => y.obj == Tst.v45) Tst.v48.dev.drains with
        | some x =>
          match Tst.v48.dev.exec? x.dom x.seq with
          | some _ =>
            let mine : Exec → Bool := fun (e : Exec) => e.isFor Tst.v45 && !(e.dom == x.dom && e.seq == x.seq);
            let quiet : Prop := Tst.v48.dev.drainWork Tst.v45 = 0 ∧ List.filter mine Tst.v48.dev.execs = [];
            decide (quiet) && decide (Tst.v45 = DrainObj.domain 3)
          | _ => false
        | _ => false)) = true := by
  refine ⟨?_, ?_, ?_, ?_, ?_, ?_, ?_, ?_, ?_, ?_, ?_, ?_⟩ <;> decide +kernel

/-- States and operands that meet the hypotheses of `Obligations.VersionedCommandsStageOneObject`. -/
theorem wit_VersionedCommandsStageOneObject :
    Tst.ok cmdChannelModeSet Tst.dev Tst.v385 = true
    ∧ Tst.ok cmdDiscoverySet Tst.dev Tst.v385 = true
    ∧ Tst.ok cmdPlannerSet Tst.dev Tst.v385 = true
    ∧ Tst.ok cmdCutSet Tst.dev Tst.v385 = true
    ∧ Tst.ok cmdShapeProfileSet Tst.dev Tst.v385 = true
    ∧ Tst.ok cmdBurstProfileSet Tst.dev Tst.v386 = true
    ∧ Tst.ok cmdPortSet Tst.dev Tst.v386 = true
    ∧ Tst.ok cmdLanternAllocSet Tst.dev Tst.v390 = true
    ∧ Tst.ok cmdLanternFlowSet Tst.dev Tst.v390 = true
    ∧ Tst.ok cmdPoolCarveSet Tst.dev Tst.v392 = true
    ∧ Tst.ok cmdQueueProfileSet Tst.dev Tst.v393 = true
    ∧ Tst.ok cmdTmChannelSet Tst.dev Tst.v395 = true
    ∧ Tst.ok cmdTmPortSet Tst.dev Tst.v396 = true
    ∧ Tst.ok cmdGateListSet Tst.dev Tst.v397 = true
    ∧ Tst.ok cmdHeritageLaneSet Tst.dev Tst.v398 = true
    ∧ Tst.ok cmdCircuitSet Tst.dev Tst.v399 = true := by
  refine ⟨?_, ?_, ?_, ?_, ?_, ?_, ?_, ?_, ?_, ?_, ?_, ?_, ?_, ?_, ?_, ?_⟩ <;> decide +kernel

/-- States and operands that meet the hypotheses of `Obligations.ChannelsAndManagementAct`. -/
theorem wit_ChannelsAndManagementAct :
    (decide (Tst.ok cmdChannelEnable Tst.v403.dev Tst.v9 = true)) = true
    ∧ (decide (Tst.ok cmdChannelDisable Tst.v299.dev Tst.v9 = true)) = true
    ∧ (decide (Tst.ok cmdChannelStatus Tst.v299.dev Tst.v9 = true)) = true
    ∧ (decide (Tst.ok cmdMgmtRingSet Tst.v299.dev Tst.v9 = true)) = true
    ∧ (decide (Tst.ok cmdOmciSend Tst.v299.dev Tst.v406 = true)) = true
    ∧ (decide (Tst.v55.dev.sys.inReset = false) && (
        match Tst.v55.dev.term? 1 with
        | some t =>
          match t.omci with
          | (_, _, _) :: _ =>
            let c : Chan := Tst.v55.dev.chan t.chan;
            let free : Prop := Tst.v55.dev.chanLink t.chan = true ∧ c.lantern = [] ∧ c.fragment = none ∧ Tst.v55.dev.mayStart = true;
            decide (free)
          | _ => false
        | _ => false)) = true
    ∧ (decide (Tst.wD1.dev.sys.inReset = false) && (
        match Tst.wD1.dev.term? 1 with
        | some t =>
          match t.omci with
          | (_, _, _) :: _ =>
            let c : Chan := Tst.wD1.dev.chan t.chan;
            let free : Prop := Tst.wD1.dev.chanLink t.chan = true ∧ c.lantern = [] ∧ c.fragment = none ∧ Tst.wD1.dev.mayStart = true;
            decide (¬free)
          | _ => false
        | _ => false)) = true
    ∧ (let b : Bytes := Packet.bytes Tst.v470;
      decide (Tst.ok cmdModuleAccess Tst.v299.dev Tst.v470 = true) && decide ((Tst.v299.dev.accesses (ent b 16 1 / 3)).isEmpty = true)) = true
    ∧ (let b : Bytes := Packet.bytes Tst.v470;
      decide (Tst.ok cmdModuleAccess Tst.v409.dev Tst.v470 = true) && decide ((Tst.v409.dev.accesses (ent b 16 1 / 3)).isEmpty = false)) = true
    ∧ (decide (Tst.v409.dev.sys.inReset = false) && (
        match Tst.v409.dev.access? 0 with
        | some _ =>
          true
        | _ => false)) = true
    ∧ (decide (Tst.v299.dev.sys.inReset = false) && (
        match Tst.v299.dev.term? 1 with
        | some t =>
          let g : Nat := t.chan;
          decide ((chanCfg Tst.v299.dev.objs g).ploamCopy = false ∨ (Tst.v299.dev.dom 0).mgmt = none)
        | _ => false)) = true
    ∧ (decide (Tst.v62.dev.sys.inReset = false) && (
        match (Tst.v62.dev.dom 0).mgmt with
        | some _ =>
          match Tst.v62.dev.term? 1 with
          | some t =>
            let g : Nat := t.chan;
            decide ((chanCfg Tst.v62.dev.objs g).ploamCopy = true)
          | _ => false
        | _ => false)) = true
    ∧ (decide (Tst.v62.dev.sys.inReset = false) && (
        match Tst.v62.dev.term? 1 with
        | some t =>
          let g : Nat := t.chan;
          match (Tst.v62.dev.dom (Tst.v62.dev.termOwner 1)).mgmt with
          | some _ =>
            true
          | _ => false
        | _ => false)) = true
    ∧ (decide (Tst.v299.dev.sys.inReset = false) && (
        match Tst.v299.dev.term? 1 with
        | some t =>
          let g : Nat := t.chan;
          decide ((Tst.v299.dev.dom (Tst.v299.dev.termOwner 1)).mgmt = none)
        | _ => false)) = true := by
  refine ⟨?_, ?_, ?_, ?_, ?_, ?_, ?_, ?_, ?_, ?_, ?_, ?_, ?_, ?_⟩ <;> decide +kernel

/-- States and operands that meet the hypotheses of `Obligations.TerminalCommandsAct`. -/
theorem wit_TerminalCommandsAct :
    (let b : Bytes := Packet.bytes Tst.v65;
      let h : Nat := ent b 16 2;
      decide (Tst.ok cmdTerminalSet Tst.v299.dev Tst.v65 = true) && (
        match Tst.v299.dev.term? h with
        | some _ =>
          true
        | _ => false)) = true
    ∧ (let b : Bytes := Packet.bytes Tst.v268;
      let h : Nat := ent b 16 2;
      decide (Tst.ok cmdTerminalSet Tst.v89.dev Tst.v268 = true) && decide (Tst.v89.dev.term? h = none)) = true
    ∧ (decide (Tst.ok cmdTerminalDelete Tst.v299.dev Tst.v65 = true)) = true
    ∧ (decide (Tst.ok cmdTerminalRegidSet Tst.v299.dev Tst.v140 = true)) = true
    ∧ (decide (Tst.ok cmdBearingClear Tst.v89.dev Tst.v65 = true)) = true
    ∧ (decide (Tst.ok cmdTerminalDisable Tst.v299.dev Tst.v65 = true)) = true
    ∧ (let b : Bytes := Packet.bytes Tst.v67;
      let h : Nat := ent b 16 2;
      decide (Tst.ok cmdTerminalEnable Tst.v299.dev Tst.v67 = true) && (
        match Tst.v299.dev.term? h with
        | some _ =>
          true
        | _ => false)) = true
    ∧ (let b : Bytes := Packet.bytes Tst.v65;
      decide (Tst.ok cmdTerminalStatus Tst.v299.dev Tst.v65 = true) && (
        match Tst.v299.dev.term? (ent b 16 2) with
        | some _ =>
          true
        | _ => false)) = true
    ∧ (let b : Bytes := Packet.bytes Tst.v65;
      decide (Tst.ok cmdBearingRead Tst.v299.dev Tst.v65 = true) && (
        match Tst.v299.dev.term? (ent b 16 2) with
        | some _ =>
          true
        | _ => false)) = true
    ∧ (let b : Bytes := Packet.bytes Tst.v268;
      decide (bit (ent b 26 1) 0 = false) && decide (Tst.ok cmdDiscoveryRead Tst.v299.dev Tst.v268 = true)) = true
    ∧ (let b : Bytes := Packet.bytes Tst.v69;
      decide (bit (ent b 26 1) 0 = true) && decide (Tst.ok cmdDiscoveryRead Tst.v299.dev Tst.v69 = true)) = true := by
  refine ⟨?_, ?_, ?_, ?_, ?_, ?_, ?_, ?_, ?_, ?_, ?_⟩ <;> decide +kernel

/-- States and operands that meet the hypotheses of `Obligations.TerminalsDeactivateAndRerange`. -/
theorem wit_TerminalsDeactivateAndRerange :
    (decide (Tst.vZ_dlf.execs = []) && (
        match Tst.vZ_dlf.term? 1 with
        | some _ =>
          true
        | _ => false)) = true
    ∧ (decide (Tst.ok cmdTerminalDeactivate Tst.v89.dev Tst.v65 = true)) = true
    ∧ (let b : Bytes := Packet.bytes Tst.v65;
      let h : Nat := ent b 16 2;
      decide (Tst.ok cmdRerange Tst.v89.dev Tst.v65 = true) && (
        match Tst.v89.dev.term? h with
        | some _ =>
          true
        | _ => false)) = true := by
  refine ⟨?_, ?_, ?_⟩ <;> decide +kernel

/-- States and operands that meet the hypotheses of `Obligations.DiscoveryAdmitsTerminals`. -/
theorem wit_DiscoveryAdmitsTerminals :
    (decide (Tst.wD2.dev.sys.inReset = false) && decide (Tst.wD2.dev.standby = false) && decide (Tst.wD2.dev.chanOn Tst.wD5.chan = true) &&
          (
        match (Tst.wD2.dev.chan Tst.wD5.chan).windowOf? 5 65535 with
        | some w =>
          let found : Option (Nat × Bool) := searchWindow (chanCfg Tst.wD2.dev.objs Tst.wD5.chan) (profileOr0 Tst.wD2.dev.objs Tst.wD5.chan
              0) (List.take (8 * w.len) Tst.wD5.bits);
          decide (found = none)
        | _ => false)) = true
    ∧ (decide (Tst.wD2.dev.sys.inReset = false) && decide (Tst.wD2.dev.standby = false) && decide (Tst.wD2.dev.chanOn Tst.v73.chan = true) &&
          (
        match (Tst.wD2.dev.chan Tst.v73.chan).windowOf? 5 65535 with
        | some w =>
          let found : Option (Nat × Bool) := searchWindow (chanCfg Tst.wD2.dev.objs Tst.v73.chan) (profileOr0 Tst.wD2.dev.objs Tst.v73.chan
              0) (List.take (8 * w.len) Tst.v73.bits);
          match found with
          | some (_, second) =>
            decide (second = true ∨ Tst.v73.badWithEnergy = true)
          | _ => false
        | _ => false)) = true
    ∧ (decide (Tst.wD2.dev.sys.inReset = false) && decide (Tst.wD2.dev.standby = false) && decide (Tst.wD2.dev.chanOn Tst.v72.chan = true) &&
          (
        match (Tst.wD2.dev.chan Tst.v72.chan).windowOf? 5 65535 with
        | some w =>
          decide (Tst.v72.badWithEnergy = false) && decide (Tst.v72.unsupported = true) && (
            let found : Option (Nat × Bool) := searchWindow (chanCfg Tst.wD2.dev.objs Tst.v72.chan) (profileOr0 Tst.wD2.dev.objs
                Tst.v72.chan 0) (List.take (8 * w.len) Tst.v72.bits);
            match found with
            | some (_, second) =>
              decide (second = false)
            | _ => false)
        | _ => false)) = true
    ∧ (decide (Tst.wD2.dev.sys.inReset = false) && decide (Tst.wD2.dev.standby = false) && decide (Tst.wD2.dev.chanOn Tst.wD6.chan = true) &&
          (
        match (Tst.wD2.dev.chan Tst.wD6.chan).windowOf? 5 65535 with
        | some w =>
          decide (Tst.wD6.badWithEnergy = false) && decide (Tst.wD6.unsupported = false) && decide (Tst.wD6.decoded = false) && (
            let found : Option (Nat × Bool) := searchWindow (chanCfg Tst.wD2.dev.objs Tst.wD6.chan) (profileOr0 Tst.wD2.dev.objs
                Tst.wD6.chan 0) (List.take (8 * w.len) Tst.wD6.bits);
            match found with
            | some (_, second) =>
              decide (second = false)
            | _ => false)
        | _ => false)) = true
    ∧ (decide (Tst.wD2.dev.sys.inReset = false) && decide (Tst.wD2.dev.standby = false) && (
        let known : Option (Nat × Machine.Term) := List.find? (fun (t : Nat × Machine.Term) => t.snd.serial == Tst.v79.serial && t.snd.chan
            / 4 == Tst.v79.chan / 4) Tst.wD2.dev.terms;
        decide (Tst.wD2.dev.chanOn Tst.v79.chan = true) && (
          match (Tst.wD2.dev.chan Tst.v79.chan).windowOf? 5 65535 with
          | some w =>
            decide (Tst.v79.badWithEnergy = false) && decide (Tst.v79.unsupported = false) && decide (Tst.v79.decoded = true) && decide
                (known = none) && (
              let found : Option (Nat × Bool) := searchWindow (chanCfg Tst.wD2.dev.objs Tst.v79.chan) (profileOr0 Tst.wD2.dev.objs
                  Tst.v79.chan 0) (List.take (8 * w.len) Tst.v79.bits);
              match found with
              | some (_, second) =>
                decide (second = false)
              | _ => false)
          | _ => false))) = true
    ∧ (decide (Tst.wD2.dev.sys.inReset = false) && decide (Tst.wD2.dev.standby = false) && (
        let known : Option (Nat × Machine.Term) := List.find? (fun (t : Nat × Machine.Term) => t.snd.serial == Tst.v77.serial && t.snd.chan
            / 4 == Tst.v77.chan / 4) Tst.wD2.dev.terms;
        decide (Tst.wD2.dev.chanOn Tst.v77.chan = true) && (
          match (Tst.wD2.dev.chan Tst.v77.chan).windowOf? 5 65535 with
          | some w =>
            decide (Tst.v77.badWithEnergy = false) && decide (Tst.v77.unsupported = false) && decide (Tst.v77.decoded = true) && (
              match known with
              | some (h, t) =>
                decide (t.state = 6 ∨ Tst.wD2.dev.draining (DrainObj.terminal h) = true) && (
                  let found : Option (Nat × Bool) := searchWindow (chanCfg Tst.wD2.dev.objs Tst.v77.chan) (profileOr0 Tst.wD2.dev.objs
                      Tst.v77.chan 0) (List.take (8 * w.len) Tst.v77.bits);
                  match found with
                  | some (_, second) =>
                    decide (second = false)
                  | _ => false)
              | _ => false)
          | _ => false))) = true
    ∧ (decide (Tst.wD3.dev.sys.inReset = false) && decide (Tst.wD3.dev.standby = false) && (
        let known : Option (Nat × Machine.Term) := List.find? (fun (t : Nat × Machine.Term) => t.snd.serial == Tst.v79.serial && t.snd.chan
            / 4 == Tst.v79.chan / 4) Tst.wD3.dev.terms;
        decide (Tst.wD3.dev.chanOn Tst.v79.chan = true) && (
          match (Tst.wD3.dev.chan Tst.v79.chan).windowOf? 5 65535 with
          | some w =>
            decide (Tst.v79.badWithEnergy = false) && decide (Tst.v79.unsupported = false) && decide (Tst.v79.decoded = true) && (
              match known with
              | some (h, t) =>
                decide (t.state ≠ 6) && decide (Tst.wD3.dev.draining (DrainObj.terminal h) = false) && decide (t.chan ≠ Tst.v79.chan) && (
                  let found : Option (Nat × Bool) := searchWindow (chanCfg Tst.wD3.dev.objs Tst.v79.chan) (profileOr0 Tst.wD3.dev.objs
                      Tst.v79.chan 0) (List.take (8 * w.len) Tst.v79.bits);
                  match found with
                  | some (_, second) =>
                    decide (second = false)
                  | _ => false)
              | _ => false)
          | _ => false))) = true
    ∧ (decide (Tst.wD2.dev.sys.inReset = false) && decide (Tst.wD2.dev.standby = false) && (
        let known : Option (Nat × Machine.Term) := List.find? (fun (t : Nat × Machine.Term) => t.snd.serial == Tst.v76.serial && t.snd.chan
            / 4 == Tst.v76.chan / 4) Tst.wD2.dev.terms;
        decide (Tst.wD2.dev.chanOn Tst.v76.chan = true) && (
          match (Tst.wD2.dev.chan Tst.v76.chan).windowOf? 5 65535 with
          | some w =>
            decide (Tst.v76.badWithEnergy = false) && decide (Tst.v76.unsupported = false) && decide (Tst.v76.decoded = true) && (
              match known with
              | some (h, t) =>
                decide (t.state ≠ 6) && decide (Tst.wD2.dev.draining (DrainObj.terminal h) = false) && decide (t.chan = Tst.v76.chan) && (
                  let found : Option (Nat × Bool) := searchWindow (chanCfg Tst.wD2.dev.objs Tst.v76.chan) (profileOr0 Tst.wD2.dev.objs
                      Tst.v76.chan 0) (List.take (8 * w.len) Tst.v76.bits);
                  match found with
                  | some (pos, second) =>
                    decide (second = false) && (
                      let rtd : Nat := (coarseRtd Tst.wD2.dev.objs Tst.v76.chan w pos Tst.v76.randDelay).toNat;
                      decide (inReach Tst.wD2.dev.objs Tst.v76.chan rtd = false))
                  | _ => false)
              | _ => false)
          | _ => false))) = true
    ∧ (decide (Tst.wD2.dev.sys.inReset = false) && decide (Tst.wD2.dev.standby = false) && (
        let known : Option (Nat × Machine.Term) := List.find? (fun (t : Nat × Machine.Term) => t.snd.serial == Tst.v75.serial && t.snd.chan
            / 4 == Tst.v75.chan / 4) Tst.wD2.dev.terms;
        decide (Tst.wD2.dev.chanOn Tst.v75.chan = true) && (
          match (Tst.wD2.dev.chan Tst.v75.chan).windowOf? 5 65535 with
          | some w =>
            decide (Tst.v75.badWithEnergy = false) && decide (Tst.v75.unsupported = false) && decide (Tst.v75.decoded = true) && (
              match known with
              | some (h, t) =>
                decide (t.state ≠ 6) && decide (Tst.wD2.dev.draining (DrainObj.terminal h) = false) && decide (t.chan = Tst.v75.chan) &&
                    decide (t.state = 1) && (
                  let found : Option (Nat × Bool) := searchWindow (chanCfg Tst.wD2.dev.objs Tst.v75.chan) (profileOr0 Tst.wD2.dev.objs
                      Tst.v75.chan 0) (List.take (8 * w.len) Tst.v75.bits);
                  match found with
                  | some (pos, second) =>
                    decide (second = false) && (
                      let rtd : Nat := (coarseRtd Tst.wD2.dev.objs Tst.v75.chan w pos Tst.v75.randDelay).toNat;
                      decide (inReach Tst.wD2.dev.objs Tst.v75.chan rtd = true))
                  | _ => false)
              | _ => false)
          | _ => false))) = true
    ∧ (decide (Tst.wD2.dev.sys.inReset = false) && decide (Tst.wD2.dev.standby = false) && (
        let known : Option (Nat × Machine.Term) := List.find? (fun (t : Nat × Machine.Term) => t.snd.serial == Tst.wD7.serial && t.snd.chan
            / 4 == Tst.wD7.chan / 4) Tst.wD2.dev.terms;
        decide (Tst.wD2.dev.chanOn Tst.wD7.chan = true) && (
          match (Tst.wD2.dev.chan Tst.wD7.chan).windowOf? 5 65535 with
          | some w =>
            decide (Tst.wD7.badWithEnergy = false) && decide (Tst.wD7.unsupported = false) && decide (Tst.wD7.decoded = true) && (
              match known with
              | some (h, t) =>
                decide (t.state ≠ 6) && decide (Tst.wD2.dev.draining (DrainObj.terminal h) = false) && decide (t.chan = Tst.wD7.chan) &&
                    decide (t.state ≠ 1) && (
                  let found : Option (Nat × Bool) := searchWindow (chanCfg Tst.wD2.dev.objs Tst.wD7.chan) (profileOr0 Tst.wD2.dev.objs
                      Tst.wD7.chan 0) (List.take (8 * w.len) Tst.wD7.bits);
                  match found with
                  | some (pos, second) =>
                    decide (second = false) && (
                      let rtd : Nat := (coarseRtd Tst.wD2.dev.objs Tst.wD7.chan w pos Tst.wD7.randDelay).toNat;
                      decide (inReach Tst.wD2.dev.objs Tst.wD7.chan rtd = true))
                  | _ => false)
              | _ => false)
          | _ => false))) = true
    ∧ (let c : ChanCfg := (chanCfg Tst.objs 0);
      decide (Tst.wP0.delimLen ≠ 0) && (
        match searchWindow c Tst.wP0 Tst.vD_window with
        | some (_, _) =>
          true
        | _ => false)) = true
    ∧ (decide (Tst.v81.standby = false) && (
        match Tst.v81.term? 4 with
        | some t =>
          decide (t.onuId = 65535) && decide ((Tst.v81.heldIds t.chan 4).length ≤ 1020)
        | _ => false)) = true := by
  refine ⟨?_, ?_, ?_, ?_, ?_, ?_, ?_, ?_, ?_, ?_, ?_, ?_⟩ <;> decide +kernel

/-- States and operands that meet the hypotheses of `Obligations.RangingAndLossesMoveTheTerminal`. -/
theorem wit_RangingAndLossesMoveTheTerminal :
    (decide (Tst.wR5.dev.sys.inReset = false) && decide (Tst.wR5.dev.standby = false) && (
        match Tst.wR5.dev.term? Tst.v84.term with
        | some t =>
          decide (t.chan = Tst.v84.chan) && (
            match (Tst.wR5.dev.chan Tst.v84.chan).windowOf? 6 Tst.v84.term with
            | some w =>
              match Tst.v84.delim with
              | some at_ =>
                decide (Tst.v84.good = true) && decide (t.state = 2) && decide (Tst.wR5.dev.rerange? Tst.v84.term = none) && (
                  let rtd : Int := rtdOf Tst.wR5.dev.objs Tst.v84.chan w at_;
                  let known : Prop := w.regChk = false ∨ Tst.wR5.dev.ploamPasses t Tst.v84.msg = true ∧ regMatches t.regId Tst.v84.regId =
                      true;
                  let inRange : Prop := 0 ≤ rtd ∧ rangeReach Tst.wR5.dev.objs Tst.v84.chan rtd.toNat = true;
                  decide (known) && decide (¬inRange))
              | _ => false
            | _ => false)
        | _ => false)) = true
    ∧ (decide (Tst.wR5.dev.sys.inReset = false) && decide (Tst.wR5.dev.standby = false) && (
        match Tst.wR5.dev.term? Tst.v356.term with
        | some t =>
          decide (t.chan = Tst.v356.chan) && (
            match (Tst.wR5.dev.chan Tst.v356.chan).windowOf? 6 Tst.v356.term with
            | some w =>
              match Tst.v356.delim with
              | some at_ =>
                decide (Tst.v356.good = true) && decide (t.state = 2) && decide (Tst.wR5.dev.rerange? Tst.v356.term = none) && (
                  let rtd : Int := rtdOf Tst.wR5.dev.objs Tst.v356.chan w at_;
                  let known : Prop := w.regChk = false ∨ Tst.wR5.dev.ploamPasses t Tst.v356.msg = true ∧ regMatches t.regId Tst.v356.regId =
                      true;
                  let inRange : Prop := 0 ≤ rtd ∧ rangeReach Tst.wR5.dev.objs Tst.v356.chan rtd.toNat = true;
                  decide (known) && decide (inRange))
              | _ => false
            | _ => false)
        | _ => false)) = true
    ∧ (decide (Tst.wR9.dev.sys.inReset = false) && decide (Tst.wR9.dev.standby = false) && (
        let r5 : Nat := upRate5 (chanCfg Tst.wR9.dev.objs Tst.vD_rrx.chan);
        match Tst.wR9.dev.term? Tst.vD_rrx.term with
        | some t =>
          decide (t.chan = Tst.vD_rrx.chan) && (
            match (Tst.wR9.dev.chan Tst.vD_rrx.chan).windowOf? 6 Tst.vD_rrx.term with
            | some w =>
              match Tst.vD_rrx.delim with
              | some at_ =>
                decide (Tst.vD_rrx.good = true) && (
                  match Tst.wR9.dev.rerange? Tst.vD_rrx.term with
                  | some _ =>
                    let rtd : Int := rtdOf Tst.wR9.dev.objs Tst.vD_rrx.chan w at_;
                    let eqd : Int := ↑t.eqd - roundDiv (rtd * ↑r5 - ↑(teqBits Tst.wR9.dev.objs Tst.vD_rrx.chan * 100000)) 100000;
                    let own : Int := rtd - roundDiv (↑t.eqd * 100000) r5;
                    let fits : Prop := 0 ≤ eqd ∧ 0 ≤ own ∧ rangeReach Tst.wR9.dev.objs Tst.vD_rrx.chan own.toNat = true;
                    decide (¬fits)
                  | _ => false)
              | _ => false
            | _ => false)
        | _ => false)) = true
    ∧ (decide (Tst.wR4.dev.sys.inReset = false) && decide (Tst.wR4.dev.standby = false) && (
        let r5 : Nat := upRate5 (chanCfg Tst.wR4.dev.objs Tst.v356.chan);
        match Tst.wR4.dev.term? Tst.v356.term with
        | some t =>
          decide (t.chan = Tst.v356.chan) && (
            match (Tst.wR4.dev.chan Tst.v356.chan).windowOf? 6 Tst.v356.term with
            | some w =>
              match Tst.v356.delim with
              | some at_ =>
                decide (Tst.v356.good = true) && (
                  match Tst.wR4.dev.rerange? Tst.v356.term with
                  | some _ =>
                    decide (t.eqdWait ≠ 0) && (
                      let rtd : Int := rtdOf Tst.wR4.dev.objs Tst.v356.chan w at_;
                      let eqd : Int := ↑t.eqd - roundDiv (rtd * ↑r5 - ↑(teqBits Tst.wR4.dev.objs Tst.v356.chan * 100000)) 100000;
                      let own : Int := rtd - roundDiv (↑t.eqd * 100000) r5;
                      let fits : Prop := 0 ≤ eqd ∧ 0 ≤ own ∧ rangeReach Tst.wR4.dev.objs Tst.v356.chan own.toNat = true;
                      decide (fits))
                  | _ => false)
              | _ => false
            | _ => false)
        | _ => false)) = true
    ∧ (decide (Tst.wR9.dev.sys.inReset = false) && decide (Tst.wR9.dev.standby = false) && (
        let r5 : Nat := upRate5 (chanCfg Tst.wR9.dev.objs Tst.v356.chan);
        match Tst.wR9.dev.term? Tst.v356.term with
        | some t =>
          decide (t.chan = Tst.v356.chan) && (
            match (Tst.wR9.dev.chan Tst.v356.chan).windowOf? 6 Tst.v356.term with
            | some w =>
              match Tst.v356.delim with
              | some at_ =>
                decide (Tst.v356.good = true) && (
                  match Tst.wR9.dev.rerange? Tst.v356.term with
                  | some _ =>
                    decide (t.eqdWait = 0) && (
                      let rtd : Int := rtdOf Tst.wR9.dev.objs Tst.v356.chan w at_;
                      let eqd : Int := ↑t.eqd - roundDiv (rtd * ↑r5 - ↑(teqBits Tst.wR9.dev.objs Tst.v356.chan * 100000)) 100000;
                      let own : Int := rtd - roundDiv (↑t.eqd * 100000) r5;
                      let fits : Prop := 0 ≤ eqd ∧ 0 ≤ own ∧ rangeReach Tst.wR9.dev.objs Tst.v356.chan own.toNat = true;
                      decide (fits))
                  | _ => false)
              | _ => false
            | _ => false)
        | _ => false)) = true
    ∧ (decide (Tst.wR5.dev.sys.inReset = false) && decide (Tst.wR5.dev.standby = false) && (
        let c : DiscCfg := discCfg Tst.wR5.dev.objs Tst.wR6.chan;
        match Tst.wR5.dev.term? Tst.wR6.term with
        | some t =>
          decide (t.chan = Tst.wR6.chan) && decide (t.state = 2 ∨ (Tst.wR5.dev.rerange? Tst.wR6.term).isSome = true) && (
            match (Tst.wR5.dev.chan Tst.wR6.chan).windowOf? 6 Tst.wR6.term with
            | some _ =>
              decide (Tst.wR6.delim = none ∨ Tst.wR6.good = false) && decide (c.rangeAtt ≤ t.attempts + 1)
            | _ => false)
        | _ => false)) = true
    ∧ (decide (Tst.wR3.dev.sys.inReset = false) && decide (Tst.wR3.dev.standby = false) && (
        let c : DiscCfg := discCfg Tst.wR3.dev.objs Tst.wR6.chan;
        match Tst.wR3.dev.term? Tst.wR6.term with
        | some t =>
          decide (t.chan = Tst.wR6.chan) && decide (t.state = 2 ∨ (Tst.wR3.dev.rerange? Tst.wR6.term).isSome = true) && (
            match (Tst.wR3.dev.chan Tst.wR6.chan).windowOf? 6 Tst.wR6.term with
            | some _ =>
              decide (Tst.wR6.delim = none ∨ Tst.wR6.good = false) && decide (t.attempts + 1 < c.rangeAtt) && decide (c.on = true)
            | _ => false)
        | _ => false)) = true
    ∧ (decide (Tst.wR8.dev.sys.inReset = false) && decide (Tst.wR8.dev.standby = false) && (
        let c : DiscCfg := discCfg Tst.wR8.dev.objs Tst.wR6.chan;
        match Tst.wR8.dev.term? Tst.wR6.term with
        | some t =>
          decide (t.chan = Tst.wR6.chan) && decide (t.state = 2 ∨ (Tst.wR8.dev.rerange? Tst.wR6.term).isSome = true) && (
            match (Tst.wR8.dev.chan Tst.wR6.chan).windowOf? 6 Tst.wR6.term with
            | some _ =>
              decide (Tst.wR6.delim = none ∨ Tst.wR6.good = false) && decide (t.attempts + 1 < c.rangeAtt) && decide (c.on = false) &&
                  decide (Tst.wR8.dev.rerange? Tst.wR6.term = none)
            | _ => false)
        | _ => false)) = true
    ∧ (decide (Tst.wR9.dev.sys.inReset = false) && decide (Tst.wR9.dev.standby = false) && (
        let c : DiscCfg := discCfg Tst.wR9.dev.objs Tst.wR6.chan;
        match Tst.wR9.dev.term? Tst.wR6.term with
        | some t =>
          decide (t.chan = Tst.wR6.chan) && decide (t.state = 2 ∨ (Tst.wR9.dev.rerange? Tst.wR6.term).isSome = true) && (
            match (Tst.wR9.dev.chan Tst.wR6.chan).windowOf? 6 Tst.wR6.term with
            | some _ =>
              decide (Tst.wR6.delim = none ∨ Tst.wR6.good = false) && decide (t.attempts + 1 < c.rangeAtt) && decide (c.on = false) && (
                match Tst.wR9.dev.rerange? Tst.wR6.term with
                | some _ =>
                  true
                | _ => false)
            | _ => false)
        | _ => false)) = true
    ∧ (decide (Tst.v97.dev.sys.inReset = false) && decide (Tst.v97.dev.standby = false) && (
        match Tst.v97.dev.term? 2 with
        | some t =>
          decide ((discCfg Tst.v97.dev.objs t.chan).rangeAtt ≤ t.attempts) && (
            match Tst.v97.dev.rerange? 2 with
            | some _ =>
              true
            | _ => false)
        | _ => false)) = true
    ∧ (decide (Tst.v95.dev.sys.inReset = false) && decide (Tst.v95.dev.standby = false) && (
        match Tst.v95.dev.term? 2 with
        | some t =>
          decide ((discCfg Tst.v95.dev.objs t.chan).rangeAtt ≤ t.attempts) && decide (Tst.v95.dev.rerange? 2 = none) && decide (t.state = 2)
        | _ => false)) = true
    ∧ (decide (Tst.v87.dev.sys.inReset = false) && decide (Tst.v87.dev.standby = false) && (
        match Tst.v87.dev.term? 2 with
        | some t =>
          decide (4 ≤ t.missing) && decide (t.state = 3)
        | _ => false)) = true
    ∧ (decide (Tst.v89.dev.sys.inReset = false) && decide (Tst.v89.dev.standby = false) && (
        match Tst.v89.dev.term? 2 with
        | some t =>
          decide (4 ≤ t.missing) && decide (t.state = 4)
        | _ => false)) = true
    ∧ (decide (Tst.v265.dev.sys.inReset = false) && decide (Tst.v265.dev.standby = false) && (
        match Tst.v265.dev.term? 1 with
        | some t =>
          decide (t.missing < 4)
        | _ => false)) = true
    ∧ (decide (Tst.v93.dev.sys.inReset = false) && decide (Tst.v93.dev.standby = false) && (
        match Tst.v93.dev.term? 2 with
        | some t =>
          decide (t.state = 5)
        | _ => false)) = true
    ∧ (decide (Tst.v89.dev.sys.inReset = false) && decide (Tst.v89.dev.standby = false) && (
        match Tst.v89.dev.term? 2 with
        | some t =>
          decide (4 ≤ t.noDelim)
        | _ => false)) = true := by
  refine ⟨?_, ?_, ?_, ?_, ?_, ?_, ?_, ?_, ?_, ?_, ?_, ?_, ?_, ?_, ?_, ?_⟩ <;> decide +kernel

/-- States and operands that meet the hypotheses of `Obligations.ReceiverFollowsGrantedBursts`. -/
theorem wit_ReceiverFollowsGrantedBursts :
    (decide (Tst.v102.dev.sys.inReset = false) && (
        match Tst.v102.dev.term? 1 with
        | some t =>
          let g : Nat := t.chan;
          decide (t.locked = true) && (
            let discovery : Bool := false;
            decide (discovery = false))
        | _ => false)) = true
    ∧ (decide (Tst.v299.dev.sys.inReset = false) && (
        let discovery : Bool := true;
        decide (discovery = true ∨ ∀ (x : Machine.Term), Tst.v299.dev.term? 0 = some x → x.chan ≠ 0 ∨ x.locked = false))) = true
    ∧ (decide (Tst.v98.dev.sys.inReset = false) && decide ((chanCfg Tst.v98.dev.objs 0).losFr ≤ (Tst.v98.dev.chan 0).losRun) && decide
          (Tst.v98.dev.mode 0 ≠ 0)) = true
    ∧ (decide (Tst.v299.dev.sys.inReset = false) && decide (0 < 48)) = true
    ∧ (decide (Tst.v98.dev.sys.inReset = false) && (
        match Tst.v98.dev.term? Tst.wR10.term with
        | some _ =>
          match (Tst.v98.dev.chan Tst.wR10.chan).plan? Tst.wR10.frame with
          | some _ =>
            decide (Tst.v98.dev.burstGrants Tst.wR10 = [])
          | _ => false
        | _ => false)) = true
    ∧ (decide (Tst.v98.dev.sys.inReset = false) && (
        let m : SearchMode := Tst.v98.dev.searchMode Tst.v99;
        match Tst.v98.dev.term? Tst.v99.term with
        | some _ =>
          match (Tst.v98.dev.chan Tst.v99.chan).plan? Tst.v99.frame with
          | some plan =>
            match Tst.v98.dev.burstGrants Tst.v99 with
            | e :: _ =>
              decide (m ≠ SearchMode.none) && decide (Tst.v98.dev.chanIdle Tst.v99.chan = false) && (
                let p : Profile := plan.prof e.profile;
                decide (Tst.v98.dev.delimiterAt Tst.v99 m p = none))
            | _ => false
          | _ => false
        | _ => false)) = true
    ∧ (decide (Tst.v98.dev.sys.inReset = false) && (
        let m : SearchMode := Tst.v98.dev.searchMode Tst.v101;
        match Tst.v98.dev.term? Tst.v101.term with
        | some _ =>
          match (Tst.v98.dev.chan Tst.v101.chan).plan? Tst.v101.frame with
          | some plan =>
            match Tst.v98.dev.burstGrants Tst.v101 with
            | e :: _ =>
              decide (m ≠ SearchMode.none) && decide (Tst.v98.dev.chanIdle Tst.v101.chan = false) && (
                let p : Profile := plan.prof e.profile;
                match Tst.v98.dev.delimiterAt Tst.v101 m p with
                | some _ =>
                  true
                | _ => false)
            | _ => false
          | _ => false
        | _ => false)) = true
    ∧ (decide (Tst.vD_delim ≠ [])) = true
    ∧ (decide (3 ≤ Tst.vK_tsw.state) && decide (Tst.vK_tsw.state ≤ 5)) = true := by
  refine ⟨?_, ?_, ?_, ?_, ?_, ?_, ?_, ?_, ?_⟩ <;> decide +kernel

/-- States and operands that meet the hypotheses of `Obligations.AllocationCommandsAct`. -/
theorem wit_AllocationCommandsAct :
    (decide (Tst.ok cmdAllocSet Tst.v299.dev Tst.v105 = true)) = true
    ∧ (decide (Tst.ok cmdAllocDelete Tst.v299.dev Tst.v109 = true)) = true
    ∧ (decide (Tst.ok cmdPlannerForecast Tst.v299.dev Tst.v113 = true)) = true
    ∧ (decide (Tst.v120.dev.sys.inReset = false) && (
        match Tst.v120.dev.alloc? 7 with
        | some a =>
          decide (a.deleting = true) && decide (a.lastPlan = 0) && (
            match List.find? (fun (e : Exec) => e.op == 1284 && e.started && e.armed.isNone && ent e.par 16 2 == 7) Tst.v120.dev.execs with
            | some _ =>
              true
            | _ => false)
        | _ => false)) = true
    ∧ (let h : Nat := ent Tst.v189 16 2;
      decide (1 ≠ h)) = true
    ∧ (let b : Bytes := Packet.bytes Tst.v109;
      let h : Nat := ent b 16 2;
      decide (Tst.ok cmdAllocStatus Tst.v299.dev Tst.v109 = true) && (
        match Tst.v299.dev.alloc? h with
        | some _ =>
          true
        | _ => false)) = true
    ∧ (let b : Bytes := Packet.bytes Tst.v123;
      let h : Nat := ent b 16 2;
      decide (Tst.ok cmdAllocStatus Tst.v124.dev Tst.v123 = true) && decide (Tst.v124.dev.alloc? h = none) && (
        match lalloc? Tst.v124.dev.objs h with
        | some _ =>
          true
        | _ => false)) = true
    ∧ (decide (Tst.ok cmdPlanRead Tst.v299.dev Tst.v9 = true)) = true
    ∧ (let b : Bytes := Packet.bytes Tst.v127;
      let h : Nat := ent b 16 2;
      decide (Tst.ok cmdLanternBoundRead Tst.v358.dev Tst.v127 = true) && (
        match Tst.v358.dev.boundObjs (bit (ent b 18 1) 0) with
        | some objs =>
          match lflow? objs h with
          | some _ =>
            true
          | _ => false
        | _ => false)) = true := by
  refine ⟨?_, ?_, ?_, ?_, ?_, ?_, ?_, ?_, ?_⟩ <;> decide +kernel

/-- States and operands that meet the hypotheses of `Obligations.PlanningIsKeptPerChannel`. -/
theorem wit_PlanningIsKeptPerChannel :
    3 ≠ 0 := by
  decide +kernel

/-- States and operands that meet the hypotheses of `Obligations.ClassifierCommandsAct`. -/
theorem wit_ClassifierCommandsAct :
    (let b := Packet.bytes Tst.v130;
      Tst.ok cmdClsEntryRead Tst.devCls Tst.v130 = true ∧ clsTable? Tst.devCls.objs (ent b 16 1) = some Tst.vH_tb2 ∧ Tst.devCls.entryAt? Tst.vH_tb2 (ent b 18 2) = some (Tst.v131, Tst.v132))
    ∧ (let b := Packet.bytes Tst.v133;
      let hits := List.filter (fun x => decide (field b 4 4 ≤ x.addr)) (Tst.v136.dev.assocMatches Tst.v136.dev.objs (beNat (slice b 16 128)) Tst.v137);
      Tst.ok cmdClsSearch Tst.v136.dev Tst.v133 = true ∧ clsTable? Tst.v136.dev.objs (field b 0 1) = some Tst.v137 ∧ hits = Tst.v138 :: Tst.v139)
    ∧ (let b := Packet.bytes Tst.v157;
      Tst.ok cmdClsRuleSet Tst.dev Tst.v157 = true ∧ bit (field b 1 1) 0 = false)
    ∧ (let b := Packet.bytes Tst.v133;
      let hits := List.filter (fun x => decide (field b 4 4 ≤ x.addr)) (Tst.v349.dev.assocMatches Tst.v349.dev.objs (beNat (slice b 16 128)) Tst.v350);
      Tst.ok cmdClsSearch Tst.v349.dev Tst.v133 = true ∧ clsTable? Tst.v349.dev.objs (field b 0 1) = some Tst.v350 ∧ hits = [])
    ∧ Tst.ok cmdClsTableSet Tst.v415.dev Tst.v414 = true
    ∧ Tst.ok cmdClsProgramSet Tst.v415.dev Tst.v414 = true
    ∧ Tst.ok cmdClsBindSet Tst.dev Tst.v389 = true
    ∧ (let b := Packet.bytes Tst.v413;
      Tst.ok cmdClsRuleSet Tst.dev Tst.v413 = true ∧ bit (field b 1 1) 0 = true)
    ∧ (let b := Packet.bytes Tst.v414;
      Tst.ok cmdClsEntrySet Tst.v415.dev Tst.v414 = true ∧ clsEntryKind Tst.v415.dev Tst.v414 b = CmdKind.versioned)
    ∧ (let b := Packet.bytes Tst.v416;
      Tst.ok cmdClsEntrySet Tst.v415.dev Tst.v416 = true ∧ clsEntryKind Tst.v415.dev Tst.v416 b ≠ CmdKind.versioned ∧ bit (field b 1 1) 0 = false)
    ∧ (let b := Packet.bytes Tst.v417;
      Tst.ok cmdClsEntrySet Tst.v418.dev Tst.v417 = true ∧ clsEntryKind Tst.v418.dev Tst.v417 b ≠ CmdKind.versioned ∧ bit (field b 1 1) 0 = true)
    ∧ Tst.ok cmdClsUsage Tst.dev Tst.v9 = true := by
  refine ⟨?_, ?_, ?_, ?_, ?_, ?_, ?_, ?_, ?_, ?_, ?_, ?_⟩ <;> decide +kernel

/-- States and operands that meet the hypotheses of `Obligations.ForwardingCommandsAct`. -/
theorem wit_ForwardingCommandsAct :
    (let b : Bytes := Packet.bytes Tst.v140;
      let fid : Nat := ent b 16 2;
      let mac : Nat := ent b 18 6;
      decide (Tst.ok cmdFwdEntryWrite Tst.v143.dev Tst.v140 = true) && (
        match Tst.v143.dev.fwd.find fid mac with
        | some (_, _) =>
          true
        | _ => false)) = true
    ∧ (let b : Bytes := Packet.bytes Tst.v140;
      let fid : Nat := ent b 16 2;
      let mac : Nat := ent b 18 6;
      decide (Tst.ok cmdFwdEntryWrite Tst.v299.dev Tst.v140 = true) && decide (Tst.v299.dev.fwd.find fid mac = none) && (
        match Tst.v299.dev.fwd.chain fid mac with
        | some (_ :: _) =>
          true
        | _ => false)) = true
    ∧ (let b : Bytes := Packet.bytes Tst.v155;
      let fid : Nat := ent b 16 2;
      let mac : Nat := ent b 18 6;
      decide (Tst.ok cmdFwdEntryDelete Tst.v143.dev Tst.v155 = true) && (
        match Tst.v143.dev.fwd.find fid mac with
        | some (_, _) =>
          true
        | _ => false)) = true
    ∧ (let b : Bytes := Packet.bytes Tst.v141;
      let hit : Option (Nat × FwdEntry) := if ent b 16 1 = 0 then Tst.v143.dev.fwd.find (ent b 18 2) (ent b 20 6) else Option.map (fun (x : FwdEntry) => (ent b 28 4, x)) (Tst.v143.dev.fwd.slots.find? (ent b 28 4));
      decide (Tst.ok cmdFwdEntryRead Tst.v143.dev Tst.v141 = true) && (
        match hit with
        | some (_, _) =>
          true
        | _ => false)) = true
    ∧ (let b : Bytes := Packet.bytes Tst.v9;
      let hit : Option (Nat × FwdEntry) := if ent b 16 1 = 0 then Tst.v299.dev.fwd.find (ent b 18 2) (ent b 20 6) else Option.map (fun (x : FwdEntry) => (ent b 28 4, x)) (Tst.v299.dev.fwd.slots.find? (ent b 28 4));
      decide (Tst.ok cmdFwdEntryRead Tst.v299.dev Tst.v9 = true) && decide (hit = none)) = true
    ∧ (decide (Tst.ok cmdFwdSearch Tst.v299.dev Tst.v69 = true)) = true
    ∧ (decide (Tst.ok cmdFwdFlush Tst.v299.dev Tst.v9 = true)) = true
    ∧ (decide (Tst.v143.dev.sys.inReset = false) && (
        match Tst.v143.dev.fwd.flush with
        | some f =>
          match Tst.v143.dev.exec? f.dom f.seq with
          | some _ =>
            true
          | _ => false
        | _ => false)) = true
    ∧ (decide (Tst.ok cmdFwdSourceSet Tst.v299.dev Tst.v268 = true)) = true
    ∧ (decide (Tst.ok cmdLearnSet Tst.v299.dev Tst.v154 = true)) = true
    ∧ (match Tst.v144.find Tst.v145.fid Tst.v145.mac with
      | some (_, _) =>
        true
      | _ => false) = true
    ∧ (match Tst.v144.find Tst.v145.fid Tst.v145.mac with
      | some (_, _) =>
        decide ((0, 0) ≠ (Tst.v145.fid, Tst.v145.mac))
      | _ => false) = true := by
  refine ⟨?_, ?_, ?_, ?_, ?_, ?_, ?_, ?_, ?_, ?_, ?_, ?_⟩ <;> decide +kernel

/-- States and operands that meet the hypotheses of `Obligations.LearningEventsAct`. -/
theorem wit_LearningEventsAct :
    (decide (Tst.v299.dev.sys.inReset = false) && decide (Tst.v299.dev.fwd.notices = [])) = true
    ∧ (decide (Tst.wL1.dev.sys.inReset = false) && (
        match sortBy (fun (n : Notice) => n.time * 8 + n.pipe) Tst.wL1.dev.fwd.notices with
        | n :: _ =>
          let prior : Option Pend := List.find? (fun (q : Pend) => q.fid == n.fid && q.mac == n.mac) Tst.wL1.dev.fwd.pend;
          match prior with
          | some q =>
            decide (q.src = n.src)
          | _ => false
        | _ => false)) = true
    ∧ (decide (Tst.wL2.dev.sys.inReset = false) && (
        match sortBy (fun (n : Notice) => n.time * 8 + n.pipe) Tst.wL2.dev.fwd.notices with
        | n :: _ =>
          decide (4096 ≤ Tst.wL2.dev.fwd.pend.length) && (
            let prior : Option Pend := List.find? (fun (q : Pend) => q.fid == n.fid && q.mac == n.mac) Tst.wL2.dev.fwd.pend;
            decide (prior = none))
        | _ => false)) = true
    ∧ (decide (Tst.v150.dev.sys.inReset = false) && (
        match sortBy (fun (n : Notice) => n.time * 8 + n.pipe) Tst.v150.dev.fwd.notices with
        | n :: _ =>
          decide (Tst.v150.dev.fwd.ring = none) && (
            let prior : Option Pend := List.find? (fun (q : Pend) => q.fid == n.fid && q.mac == n.mac) Tst.v150.dev.fwd.pend;
            decide (prior = none ∧ Tst.v150.dev.fwd.pend.length < 4096 ∧ Tst.vH_nt = n ∨ (∃ (q : Pend), prior = some q ∧ q.src ≠ n.src) ∧ Tst.vH_nt = { n with contested := true }))
        | _ => false)) = true
    ∧ (decide (Tst.v152.dev.sys.inReset = false) && (
        match List.find? (fun (q : Pend) => q.fid == 3 && q.mac == 9) Tst.v152.dev.fwd.pend with
        | some _ =>
          true
        | _ => false)) = true
    ∧ (decide (Tst.v299.dev.sys.inReset = false)) = true
    ∧ (decide (Tst.wL5.static = true)) = true
    ∧ (decide (Tst.wL6.static = false) && decide (Tst.wL6.hit = true)) = true
    ∧ (decide (Tst.v145.static = false) && decide (Tst.v145.hit = false)) = true := by
  refine ⟨?_, ?_, ?_, ?_, ?_, ?_, ?_, ?_, ?_⟩ <;> decide +kernel

/-- States and operands that meet the hypotheses of `Obligations.PacketMemoryAndHostRingsAct`. -/
theorem wit_PacketMemoryAndHostRingsAct :
    (decide (Tst.ok cmdPoolStatus Tst.v299.dev Tst.v9 = true)) = true
    ∧ (decide (Tst.ok cmdSegmentLogRead Tst.v299.dev Tst.v268 = true)) = true
    ∧ (let b : Bytes := Packet.bytes Tst.v178;
      decide (field b 2 1 = 0) && decide (Tst.ok cmdReplListSet Tst.v179.dev Tst.v178 = true)) = true
    ∧ (let b : Bytes := Packet.bytes Tst.v417;
      decide (field b 2 1 ≠ 0) && decide (Tst.ok cmdReplListSet Tst.v299.dev Tst.v417 = true)) = true
    ∧ (decide (Tst.ok cmdExceptionSet Tst.v299.dev Tst.v430 = true)) = true
    ∧ (let b : Bytes := Packet.bytes Tst.v431;
      decide (bit (ent b 19 1) 0 = false) && decide (Tst.ok cmdRxRingSet Tst.v299.dev Tst.v431 = true)) = true
    ∧ (let b : Bytes := Packet.bytes Tst.v176;
      decide (bit (ent b 19 1) 0 = true) && decide (Tst.ok cmdRxRingSet Tst.v177.dev Tst.v176 = true)) = true
    ∧ (let b : Bytes := Packet.bytes Tst.v431;
      decide (bit (ent b 19 1) 0 = false) && decide (Tst.ok cmdTxRingSet Tst.v299.dev Tst.v431 = true)) = true
    ∧ (let b : Bytes := Packet.bytes Tst.v176;
      decide (bit (ent b 19 1) 0 = true) && decide (Tst.ok cmdTxRingSet Tst.v177.dev Tst.v176 = true)) = true
    ∧ (let b : Bytes := Packet.bytes Tst.v9;
      decide (ent b 18 1 = 0) && decide (Tst.ok cmdRingDisable Tst.v299.dev Tst.v9 = true)) = true
    ∧ (let b : Bytes := Packet.bytes Tst.v175;
      decide (ent b 18 1 = 1) && decide (Tst.ok cmdRingDisable Tst.v167.dev Tst.v175 = true)) = true
    ∧ (decide (Tst.v167.dev.sys.inReset = false) && (
        match Tst.v167.dev.sw.rx.find? 0 with
        | some q =>
          match q.queue with
          | _ :: _ =>
            let ahead : Nat → Nat := fun (p : Nat) => (p % 65536 + 65536 - q.index % 65536) % 65536;
            decide (ahead q.producer = 0) && decide (ahead 0 = 0)
          | _ => false
        | _ => false)) = true
    ∧ (decide (Tst.v167.dev.sys.inReset = false) && (
        match Tst.v167.dev.sw.rx.find? 0 with
        | some q =>
          match q.queue with
          | x :: _ =>
            let ahead : Nat → Nat := fun (p : Nat) => (p % 65536 + 65536 - q.index % 65536) % 65536;
            let short : Prop := ahead q.producer = 0 ∨ (spread (List.take (ahead q.producer) Tst.v169) x.data).snd ≠ [];
            decide (¬(ahead q.producer = 0 ∧ ahead 1 = 0)) && (
              let parts : List (RxPosted × Bytes) × Bytes := spread (List.take (ahead 1) Tst.v169) x.data;
              decide (short → 1 = 1 % 65536) && decide (¬short → 1 = q.producer) && decide (parts.snd = []))
          | _ => false
        | _ => false)) = true
    ∧ (decide (Tst.v167.dev.sys.inReset = false) && (
        match Tst.v167.dev.sw.rx.find? 0 with
        | some q =>
          match q.queue with
          | x :: _ =>
            let ahead : Nat → Nat := fun (p : Nat) => (p % 65536 + 65536 - q.index % 65536) % 65536;
            let short : Prop := ahead q.producer = 0 ∨ (spread (List.take (ahead q.producer) Tst.v171) x.data).snd ≠ [];
            decide (¬(ahead q.producer = 0 ∧ ahead 1 = 0)) && (
              let parts : List (RxPosted × Bytes) × Bytes := spread (List.take (ahead 1) Tst.v171) x.data;
              decide (short → 1 = 1 % 65536) && decide (¬short → 1 = q.producer) && decide (parts.snd ≠ []))
          | _ => false
        | _ => false)) = true
    ∧ (decide (Tst.v167.dev.sys.inReset = false) && (
        match Tst.v167.dev.sw.tx.find? 0 with
        | some q =>
          decide (q.disabled = false)
        | _ => false)) = true
    ∧ (decide (Tst.v177.dev.sys.inReset = false) && (
        match Tst.v177.dev.sw.tx.find? 0 with
        | some q =>
          decide (q.disabled = true)
        | _ => false)) = true := by
  refine ⟨?_, ?_, ?_, ?_, ?_, ?_, ?_, ?_, ?_, ?_, ?_, ?_, ?_, ?_, ?_, ?_⟩ <;> decide +kernel

/-- States and operands that meet the hypotheses of `Obligations.ReceiveMacsJudgeFrames`. -/
theorem wit_ReceiveMacsJudgeFrames :
    (decide (Tst.v299.dev.sys.inReset = false) && decide (Tst.v299.dev.receives? Tst.v187.lane 1 = none)) = true
    ∧ (decide (Tst.v360.dev.sys.inReset = false) && (
        match Tst.v360.dev.receives? Tst.v361.lane 1 with
        | some q =>
          let wrong : Prop := Tst.v361.path = MacPath.preemptable ∧ q.preempt = false;
          decide (wrong)
        | _ => false)) = true
    ∧ (decide (Tst.v299.dev.sys.inReset = false) && (
        let n : Nat := List.length Tst.v181.data;
        match Tst.v299.dev.receives? Tst.v181.lane 1 with
        | some q =>
          decide (Tst.v181.pcsError = false) && decide (n < 64) && (
            let wrong : Prop := Tst.v181.path = MacPath.preemptable ∧ q.preempt = false;
            decide (¬wrong))
        | _ => false)) = true
    ∧ (decide (Tst.v299.dev.sys.inReset = false) && (
        let n : Nat := List.length Tst.wM1.data;
        match Tst.v299.dev.receives? Tst.wM1.lane 1 with
        | some q =>
          decide (Tst.wM1.pcsError = true ∨ 64 ≤ n ∧ fcsGood Tst.wM1.data = false) && decide (Tst.wM1.early = true ∧ 64 ≤ n) && (
            let wrong : Prop := Tst.wM1.path = MacPath.preemptable ∧ q.preempt = false;
            decide (¬wrong))
        | _ => false)) = true
    ∧ (decide (Tst.v299.dev.sys.inReset = false) && (
        let n : Nat := List.length Tst.v184.data;
        match Tst.v299.dev.receives? Tst.v184.lane 1 with
        | some q =>
          decide (Tst.v184.pcsError = true ∨ 64 ≤ n ∧ fcsGood Tst.v184.data = false) && decide (Tst.v184.early = false ∨ n < 64) && (
            let wrong : Prop := Tst.v184.path = MacPath.preemptable ∧ q.preempt = false;
            decide (¬wrong))
        | _ => false)) = true
    ∧ (decide (Tst.v182.dev.sys.inReset = false) && (
        let n : Nat := List.length Tst.wM2.data;
        match Tst.v182.dev.receives? Tst.wM2.lane 1 with
        | some q =>
          decide (Tst.wM2.pcsError = false) && decide (64 ≤ n) && decide (fcsGood Tst.wM2.data = true) && decide (q.maxFrame < n) && decide
              (Tst.wM2.early = true) && (
            let wrong : Prop := Tst.wM2.path = MacPath.preemptable ∧ q.preempt = false;
            decide (¬wrong))
        | _ => false)) = true
    ∧ (decide (Tst.v182.dev.sys.inReset = false) && (
        let n : Nat := List.length Tst.v183.data;
        match Tst.v182.dev.receives? Tst.v183.lane 1 with
        | some q =>
          decide (Tst.v183.pcsError = false) && decide (64 ≤ n) && decide (fcsGood Tst.v183.data = true) && decide (q.maxFrame < n) &&
              decide (Tst.v183.early = false) && (
            let wrong : Prop := Tst.v183.path = MacPath.preemptable ∧ q.preempt = false;
            decide (¬wrong))
        | _ => false)) = true
    ∧ (decide (Tst.v299.dev.sys.inReset = false) && (
        let n : Nat := List.length Tst.v361.data;
        match Tst.v299.dev.receives? Tst.v361.lane 1 with
        | some q =>
          decide (Tst.v361.pcsError = false) && decide (64 ≤ n) && decide (fcsGood Tst.v361.data = true) && decide (n ≤ q.maxFrame) && (
            let wrong : Prop := Tst.v361.path = MacPath.preemptable ∧ q.preempt = false;
            decide (¬wrong))
        | _ => false)) = true
    ∧ (decide (Tst.v299.dev.sys.inReset = false) && decide (Tst.v299.dev.receives? 0 2 = none ∨ List.length Tst.v189 < 8)) = true
    ∧ (decide (Tst.v299.dev.sys.inReset = false) && (
        let frame : List Byte := List.drop 8 Tst.v189;
        decide (8 ≤ List.length Tst.v189) && decide (fcsGood frame = true) && (
          match Tst.v299.dev.receives? 4 2 with
          | some _ =>
            true
          | _ => false))) = true
    ∧ (decide (Tst.v299.dev.sys.inReset = false) && (
        let frame : List Byte := List.drop 8 Tst.wM3;
        decide (8 ≤ List.length Tst.wM3) && decide (fcsGood frame = false) && (
          match Tst.v299.dev.receives? 4 2 with
          | some _ =>
            let early : Bool := true;
            decide (early = true ∧ 64 ≤ frame.length)
          | _ => false))) = true
    ∧ (decide (Tst.v299.dev.sys.inReset = false) && (
        let frame : List Byte := List.drop 8 Tst.vO_lb;
        decide (8 ≤ List.length Tst.vO_lb) && decide (fcsGood frame = false) && (
          match Tst.v299.dev.receives? 4 2 with
          | some _ =>
            let early : Bool := true;
            decide (early = false ∨ frame.length < 64)
          | _ => false))) = true
    ∧ (decide (0 < 2 ^ 32) && decide (0 ≤ 0)) = true := by
  refine ⟨?_, ?_, ?_, ?_, ?_, ?_, ?_, ?_, ?_, ?_, ?_, ?_, ?_⟩ <;> decide +kernel

/-- States and operands that meet the hypotheses of `Obligations.FramesCrossTheDevice`. -/
theorem wit_FramesCrossTheDevice :
    (decide (Tst.v299.dev.sys.inReset = false) && (
        let held : List (Nat × Seg) := List.filter (fun (e : Nat × Seg) => e.snd.index == 0) Tst.v299.dev.sw.segs;
        decide (held = []))) = true
    ∧ (decide (Tst.v163.dev.sys.inReset = false) && (
        let held : List (Nat × Seg) := List.filter (fun (e : Nat × Seg) => e.snd.index == 9) Tst.v163.dev.sw.segs;
        match held.getLast? with
        | some (a, x) =>
          decide (List.find? (fun (e : Nat × Seg) => e.fst == a) Tst.v163.dev.sw.segs = some (a, x)) && (
            let others : List Byte := x.owners.erase (2#8);
            decide (x.owners.contains (2#8) = true) && decide (others = []))
        | _ => false)) = true
    ∧ (decide (Tst.v161.dev.sys.inReset = false) && (
        let held : List (Nat × Seg) := List.filter (fun (e : Nat × Seg) => e.snd.index == 9) Tst.v161.dev.sw.segs;
        match held.getLast? with
        | some (a, x) =>
          decide (List.find? (fun (e : Nat × Seg) => e.fst == a) Tst.v161.dev.sw.segs = some (a, x)) && (
            let others : List Byte := x.owners.erase Tst.v159;
            decide (x.owners.contains Tst.v159 = true) && decide (others ≠ []))
        | _ => false)) = true
    ∧ (decide (Tst.v163.dev.sys.inReset = false) && (
        let held : List (Nat × Seg) := List.filter (fun (e : Nat × Seg) => e.snd.index == 9) Tst.v163.dev.sw.segs;
        match held.getLast? with
        | some (a, x) =>
          decide (List.find? (fun (e : Nat × Seg) => e.fst == a) Tst.v163.dev.sw.segs = some (a, x)) && decide (x.owners.contains Tst.v339 =
              false)
        | _ => false)) = true
    ∧ (decide (Tst.v299.dev.sys.inReset = false) && decide (Tst.v299.dev.returnsDue = [])) = true
    ∧ (decide (Tst.wB1.dev.sys.inReset = false) && (
        match sortBy (fun (r : Nat × Nat × Nat × Nat) => r.fst) Tst.wB1.dev.returnsDue with
        | (due, k, i, _) :: _ =>
          decide (k = 0) && (
            match Tst.wB1.dev.flow? i with
            | some u =>
              let q : Queue := u.queue;
              let t : Dev := Tst.wB1.dev.goCounter due;
              match q.returns with
              | (y, _) :: later =>
                match t.place (List.length y.data) false y.slot (y.itime % 2 ^ 32) [16#8] with
                | Except.error (_, _) =>
                  decide (q.returns = (y, due) :: later)
                | _ => false
              | _ => false
            | _ => false)
        | _ => false)) = true
    ∧ (decide (Tst.wB2.dev.sys.inReset = false) && (
        match sortBy (fun (r : Nat × Nat × Nat × Nat) => r.fst) Tst.wB2.dev.returnsDue with
        | (due, k, i, _) :: _ =>
          decide (k = 0) && (
            match Tst.wB2.dev.flow? i with
            | some u =>
              let q : Queue := u.queue;
              let t : Dev := Tst.wB2.dev.goCounter due;
              match q.returns with
              | (y, _) :: later =>
                match t.place (List.length y.data) false y.slot (y.itime % 2 ^ 32) [16#8] with
                | Except.ok (_, _) =>
                  decide (q.returns = (y, due) :: later)
                | _ => false
              | _ => false
            | _ => false)
        | _ => false)) = true
    ∧ (decide (Tst.wB3.dev.sys.inReset = false) && (
        match sortBy (fun (r : Nat × Nat × Nat × Nat) => r.fst) Tst.wB3.dev.returnsDue with
        | (due, k, i, c) :: _ =>
          decide (k = 1) && (
            let q : Queue := (Tst.wB3.dev.port i).queue c;
            let t : Dev := Tst.wB3.dev.goCounter due;
            match q.returns with
            | (y, _) :: later =>
              match t.place (List.length y.data) false y.slot (y.itime % 2 ^ 32) [16#8] with
              | Except.error (_, _) =>
                decide (q.returns = (y, due) :: later)
              | _ => false
            | _ => false)
        | _ => false)) = true
    ∧ (decide (Tst.wB4.dev.sys.inReset = false) && (
        match sortBy (fun (r : Nat × Nat × Nat × Nat) => r.fst) Tst.wB4.dev.returnsDue with
        | (due, k, i, c) :: _ =>
          decide (k = 1) && (
            let q : Queue := (Tst.wB4.dev.port i).queue c;
            let t : Dev := Tst.wB4.dev.goCounter due;
            match q.returns with
            | (y, _) :: later =>
              match t.place (List.length y.data) false y.slot (y.itime % 2 ^ 32) [16#8] with
              | Except.ok (_, _) =>
                decide (q.returns = (y, due) :: later)
              | _ => false
            | _ => false)
        | _ => false)) = true
    ∧ (decide (Tst.v192.dev.sys.inReset = false) && (
        let q : Pipe := Tst.v192.dev.pipe 2;
        decide (2 ≤ 7) && (
          match q.express with
          | x :: _ =>
            decide (Tst.v192.dev.meterOfPass x = none)
          | _ => false))) = true
    ∧ (decide (Tst.v195.dev.sys.inReset = false) && (
        let q : Pipe := Tst.v195.dev.pipe 2;
        decide (2 ≤ 7) && decide (q.express = []) && (
          match q.normal with
          | x :: _ =>
            decide (Tst.v195.dev.meterOfPass x = none)
          | _ => false))) = true
    ∧ (decide (Tst.wB5.dev.sys.inReset = false) && (
        let q : Pipe := Tst.wB5.dev.pipe 2;
        decide (2 ≤ 7) && (
          match q.front with
          | some x =>
            match Tst.wB5.dev.meterOfPass x with
            | some _ =>
              true
            | _ => false
          | _ => false))) = true
    ∧ (decide (Tst.wB5.dev.sys.inReset = false) && (
        let q : Pipe := Tst.wB5.dev.pipe 2;
        decide (2 ≤ 7) && (
          match q.front with
          | some x =>
            match Tst.wB5.dev.meterOfPass x with
            | some m =>
              decide (∀ (k : Nat), k < 8 → k ≠ 2 → ∀ (y : Frame), y ∈ (Tst.wB5.dev.pipe k).waiting → y.itime * 8 + k < x.itime * 8 + 2 →
                  Tst.wB5.dev.meterOfPass y ≠ some m)
            | _ => false
          | _ => false))) = true
    ∧ (decide (Tst.v192.dev.sys.inReset = false) && (
        let q : Pipe := Tst.v192.dev.pipe 2;
        decide (2 ≤ 7) && (
          match q.front with
          | some f =>
            decide (f.pass ≠ 0)
          | _ => false))) = true
    ∧ (decide (Tst.v190.dev.sys.inReset = false) && (
        let q : Pipe := Tst.v190.dev.pipe 2;
        decide (2 ≤ 7) && (
          match q.front with
          | some f =>
            decide (f.pass ≠ 1)
          | _ => false))) = true
    ∧ (decide (Tst.v299.dev.sys.inReset = false) && (
        let q : Pipe := Tst.v299.dev.pipe 0;
        decide (0 ≤ 7) && decide (q.front = none))) = true := by
  refine ⟨?_, ?_, ?_, ?_, ?_, ?_, ?_, ?_, ?_, ?_, ?_, ?_, ?_, ?_, ?_, ?_⟩ <;> decide +kernel

/-- States and operands that meet the hypotheses of `Obligations.FlowCommandsAct`. -/
theorem wit_FlowCommandsAct :
    (let b := Packet.bytes Tst.v197;
      let h := ent b 16 2;
      Tst.ok cmdMeterSet Tst.v198.dev Tst.v197 = true ∧ ent b 18 1 ≠ 0 ∧ Tst.v198.dev.meters.find? h = some Tst.vJ_mtr)
    ∧ (let b := Packet.bytes Tst.v199;
      let h := ent b 16 2;
      Tst.ok cmdMeterSet Tst.v198.dev Tst.v199 = true ∧ ent b 18 1 ≠ 0 ∧ Tst.v198.dev.meters.find? h = none)
    ∧ (let b := Packet.bytes Tst.v432;
      let h := ent b 16 2;
      Tst.ok cmdFlowSet Tst.dev Tst.v432 = true ∧ bit (ent b 25 1) 1 = false ∧ Tst.dev.flow? h = none)
    ∧ (let b := Packet.bytes Tst.v117;
      Tst.ok cmdMeterSet Tst.v198.dev Tst.v117 = true ∧ ent b 18 1 = 0)
    ∧ (let b := Packet.bytes Tst.v433;
      let h := ent b 16 2;
      Tst.ok cmdFlowSet Tst.dev Tst.v433 = true ∧ bit (ent b 25 1) 1 = false ∧ Tst.dev.flow? h = some Tst.v373)
    ∧ (let b := Packet.bytes Tst.v434;
      Tst.ok cmdFlowSet Tst.v435.dev Tst.v434 = true ∧ bit (ent b 25 1) 1 = true)
    ∧ Tst.ok cmdFlowDisable Tst.dev Tst.v117 = true
    ∧ Tst.ok cmdFlowEnable Tst.v435.dev Tst.v117 = true
    ∧ Tst.ok cmdTerminalShapeSet Tst.dev Tst.v66 = true
    ∧ Tst.ok cmdSampleSet Tst.dev Tst.v383 = true := by
  refine ⟨?_, ?_, ?_, ?_, ?_, ?_, ?_, ?_, ?_, ?_⟩ <;> decide +kernel

/-- States and operands that meet the hypotheses of `Obligations.TrafficReadsAndEvents`. -/
theorem wit_TrafficReadsAndEvents :
    (let b : Bytes := Packet.bytes Tst.v9;
      let i : Nat := ent b 18 2;
      let q : Gate := Tst.v202.dev.gate (ent b 16 1) i;
      decide (Tst.ok cmdGateStatus Tst.v202.dev Tst.v9 = true) && (
        match q.waiting with
        | some w =>
          decide (Tst.v202.dev.now < w.start)
        | _ => false)) = true
    ∧ (let b : Bytes := Packet.bytes Tst.v9;
      let i : Nat := ent b 18 2;
      let q : Gate := Tst.wG1.dev.gate (ent b 16 1) i;
      decide (Tst.ok cmdGateStatus Tst.wG1.dev Tst.v9 = true) && (
        match q.waiting with
        | some w =>
          decide (w.start ≤ Tst.wG1.dev.now)
        | _ => false)) = true
    ∧ (let b : Bytes := Packet.bytes Tst.v9;
      let i : Nat := ent b 18 2;
      let q : Gate := Tst.v201.dev.gate (ent b 16 1) i;
      decide (Tst.ok cmdGateStatus Tst.v201.dev Tst.v9 = true) && decide (q.waiting = none) && (
        match q.inForce with
        | some _ =>
          true
        | _ => false)) = true
    ∧ (let b : Bytes := Packet.bytes Tst.v9;
      let i : Nat := ent b 18 2;
      let q : Gate := Tst.v299.dev.gate (ent b 16 1) i;
      decide (Tst.ok cmdGateStatus Tst.v299.dev Tst.v9 = true) && decide (q.waiting = none) && decide (q.inForce = none)) = true
    ∧ (let b : Bytes := Packet.bytes Tst.v204;
      let i : Nat := ent b 18 2;
      decide (ent b 16 1 = 0) && decide (Tst.ok cmdQueueSampleRead Tst.v299.dev Tst.v204 = true) && (
        match Tst.v299.dev.flow? i with
        | some _ =>
          true
        | _ => false)) = true
    ∧ (let b : Bytes := Packet.bytes Tst.v205;
      decide (ent b 16 1 = 1) && decide (Tst.ok cmdQueueSampleRead Tst.v299.dev Tst.v205 = true)) = true
    ∧ (let b : Bytes := Packet.bytes Tst.v130;
      decide (ent b 16 1 = 2) && decide (Tst.ok cmdQueueSampleRead Tst.v299.dev Tst.v130 = true)) = true
    ∧ (decide (Tst.v202.dev.sys.inReset = false) && (
        match (Tst.v202.dev.gate 0 0).waiting with
        | some _ =>
          true
        | _ => false)) = true
    ∧ (decide (Tst.v299.dev.sys.inReset = false) && decide ((Tst.v299.dev.gate 0 0).waiting = none)) = true
    ∧ (decide (Tst.v299.dev.sys.inReset = false)) = true
    ∧ (decide (Tst.v202.dev.sys.inReset = false) && (
        match (Tst.v202.dev.chan 0).hold with
        | some _ =>
          true
        | _ => false)) = true
    ∧ (decide (Tst.v202.dev.sys.inReset = false) && (
        match (Tst.v202.dev.port 0).hold with
        | some _ =>
          true
        | _ => false)) = true := by
  refine ⟨?_, ?_, ?_, ?_, ?_, ?_, ?_, ?_, ?_, ?_, ?_, ?_⟩ <;> decide +kernel

/-- States and operands that meet the hypotheses of `Obligations.ChannelsAndPortsSendInOrder`. -/
theorem wit_ChannelsAndPortsSendInOrder :
    (decide (Tst.v299.dev.sys.inReset = false) && decide (1 ≤ 191) && decide (Tst.v299.dev.chanIdle 1 = true)) = true
    ∧ (decide (Tst.v299.dev.sys.inReset = false) && decide (0 ≤ 191) && decide (Tst.v299.dev.chanIdle 0 = false) && decide
          ((Tst.v299.dev.endSending 0).chanLink 0 = false)) = true
    ∧ (decide (Tst.v211.dev.sys.inReset = false) && (
        let t : Dev := ((Tst.v211.dev.endSending 0).dropNever 0).fillChan 0;
        let lantern : List Frame := if t.mayLantern = true then (t.chan 0).lantern else [];
        decide (0 ≤ 191) && decide (Tst.v211.dev.chanIdle 0 = false) && decide ((Tst.v211.dev.endSending 0).chanLink 0 = true) && (
          match lantern with
          | _ :: _ =>
            decide ((t.chan 0).fragment = none)
          | _ => false))) = true
    ∧ (decide (Tst.v212.dev.sys.inReset = false) && (
        let t : Dev := ((Tst.v212.dev.endSending 0).dropNever 0).fillChan 0;
        let lantern : List Frame := if t.mayLantern = true then (t.chan 0).lantern else [];
        decide (0 ≤ 191) && decide (Tst.v212.dev.chanIdle 0 = false) && decide ((Tst.v212.dev.endSending 0).chanLink 0 = true) && (
          match lantern with
          | x :: _ =>
            match (t.chan 0).fragment with
            | some u =>
              decide (u.frame.flow ≠ x.flow)
            | _ => false
          | _ => false))) = true
    ∧ (decide (Tst.wJ1.dev.sys.inReset = false) && (
        let t : Dev := ((Tst.wJ1.dev.endSending 0).dropNever 0).fillChan 0;
        let lantern : List Frame := if t.mayLantern = true then (t.chan 0).lantern else [];
        decide (0 ≤ 191) && decide (Tst.wJ1.dev.chanIdle 0 = false) && decide ((Tst.wJ1.dev.endSending 0).chanLink 0 = true) && (
          match lantern with
          | x :: _ =>
            match (t.chan 0).fragment with
            | some u =>
              decide (u.frame.flow = x.flow)
            | _ => false
          | _ => false))) = true
    ∧ (decide (Tst.v214.dev.sys.inReset = false) && (
        let t : Dev := ((Tst.v214.dev.endSending 0).dropNever 0).fillChan 0;
        let lantern : List Frame := if t.mayLantern = true then (t.chan 0).lantern else [];
        decide (0 ≤ 191) && decide (Tst.v214.dev.chanIdle 0 = false) && decide ((Tst.v214.dev.endSending 0).chanLink 0 = true) && decide
            (lantern = []) && (
          match (t.chan 0).fragment with
          | some _ =>
            decide (t.mayGoOn = true)
          | _ => false))) = true
    ∧ (decide (Tst.wJ2.dev.sys.inReset = false) && (
        let t : Dev := ((Tst.wJ2.dev.endSending 0).dropNever 0).fillChan 0;
        let lantern : List Frame := if t.mayLantern = true then (t.chan 0).lantern else [];
        decide (0 ≤ 191) && decide (Tst.wJ2.dev.chanIdle 0 = false) && decide ((Tst.wJ2.dev.endSending 0).chanLink 0 = true) && decide
            (lantern = []) && (
          match (t.chan 0).fragment with
          | some _ =>
            decide (t.mayGoOn = false)
          | _ => false))) = true
    ∧ (decide (Tst.v55.dev.sys.inReset = false) && (
        let t : Dev := ((Tst.v55.dev.endSending 0).dropNever 0).fillChan 0;
        let lantern : List Frame := if t.mayLantern = true then (t.chan 0).lantern else [];
        decide (0 ≤ 191) && decide (Tst.v55.dev.chanIdle 0 = false) && decide ((Tst.v55.dev.endSending 0).chanLink 0 = true) && decide
            (lantern = []) && decide ((t.chan 0).fragment = none) && decide (t.mayStart = false ∨ t.omciWaits 0 = true))) = true
    ∧ (decide (Tst.v265.dev.sys.inReset = false) && (
        let t : Dev := ((Tst.v265.dev.endSending 0).dropNever 0).fillChan 0;
        let lantern : List Frame := if t.mayLantern = true then (t.chan 0).lantern else [];
        decide (0 ≤ 191) && decide (Tst.v265.dev.chanIdle 0 = false) && decide ((Tst.v265.dev.endSending 0).chanLink 0 = true) && decide
            (lantern = []) && decide ((t.chan 0).fragment = none) && decide (t.mayStart = true) && decide (t.omciWaits 0 = false) && decide
            (t.nextDown 0 = none))) = true
    ∧ (decide (Tst.v207.dev.sys.inReset = false) && (
        let t : Dev := ((Tst.v207.dev.endSending 0).dropNever 0).fillChan 0;
        let lantern : List Frame := if t.mayLantern = true then (t.chan 0).lantern else [];
        decide (0 ≤ 191) && decide (Tst.v207.dev.chanIdle 0 = false) && decide ((Tst.v207.dev.endSending 0).chanLink 0 = true) && decide
            (lantern = []) && decide ((t.chan 0).fragment = none) && decide (t.mayStart = true) && decide (t.omciWaits 0 = false) && (
          match t.nextDown 0 with
          | some (_, _, _) =>
            true
          | _ => false))) = true
    ∧ (decide (Tst.v215.dev.sys.inReset = false) && decide (0 ≤ 191) && (
        match (Tst.v215.dev.chan 0).sending with
        | some u =>
          decide (u.frame.early = true)
        | _ => false)) = true
    ∧ (decide (Tst.v299.dev.sys.inReset = false) && decide (0 ≤ 191) && decide (∀ (w : Sending), (Tst.v299.dev.chan 0).sending = some w →
          w.frame.early = false) && decide (∀ (w : Sending), (Tst.v299.dev.chan 0).fragment = some w → w.frame.early = false)) = true
    ∧ (decide ((Tst.v222.chan 0).bucket.ok = false)) = true
    ∧ (decide (List.Pairwise (fun (x1 x2 : Nat) => x1 < x2) (List.map Prod.fst Tst.vJ_dcm.flows)) && (
        match Tst.vJ_dcm.committed 0 1 with
        | some _ =>
          true
        | _ => false)) = true
    ∧ (decide (Tst.v299.dev.sys.inReset = false) && decide (Tst.v299.dev.group? 1 = none)) = true
    ∧ (decide (Tst.v299.dev.sys.inReset = false) && (
        match Tst.v299.dev.group? 8 with
        | some q =>
          decide (q.kind ≠ 1 ∧ q.kind ≠ 2 ∨ Tst.v299.dev.portUp 8 = false ∨ Tst.v299.dev.groupLit q = false)
        | _ => false)) = true
    ∧ (decide (Tst.v299.dev.sys.inReset = false) && (
        let filled : Dev := Tst.v299.dev.releaseLantern.setPort 0 fun (p : Port) => { p with bucket := p.bucket.fill (Tst.v299.dev.releaseLantern.portRate Tst.v299.dev.releaseLantern.objs 0) (tmPort Tst.v299.dev.releaseLantern.objs 0).pbs Tst.v299.dev.now };
        match Tst.v299.dev.group? 0 with
        | some q =>
          decide (q.kind = 1 ∨ q.kind = 2) && decide (Tst.v299.dev.portUp 0 = true) && decide (Tst.v299.dev.groupLit q = true) && (
            let t : Dev := (filled.dropNeverPort q).yieldPort q;
            decide ((t.port 0).fragment = none) && decide (t.portPick q false = none))
        | _ => false)) = true
    ∧ (decide (Tst.wJ8.dev.sys.inReset = false) && (
        let filled : Dev := Tst.wJ8.dev.releaseLantern.setPort 0 fun (p : Port) => { p with bucket := p.bucket.fill (Tst.wJ8.dev.releaseLantern.portRate Tst.wJ8.dev.releaseLantern.objs 0) (tmPort Tst.wJ8.dev.releaseLantern.objs 0).pbs Tst.wJ8.dev.now };
        match Tst.wJ8.dev.group? 0 with
        | some q =>
          decide (q.kind = 1 ∨ q.kind = 2) && decide (Tst.wJ8.dev.portUp 0 = true) && decide (Tst.wJ8.dev.groupLit q = true) && (
            let t : Dev := (filled.dropNeverPort q).yieldPort q;
            decide ((t.port 0).fragment = none) && (
              match t.portPick q false with
              | some (_, _) =>
                true
              | _ => false))
        | _ => false)) = true
    ∧ (decide (Tst.wJ5.dev.sys.inReset = false) && (
        let filled : Dev := Tst.wJ5.dev.releaseLantern.setPort 0 fun (p : Port) => { p with bucket := p.bucket.fill (Tst.wJ5.dev.releaseLantern.portRate Tst.wJ5.dev.releaseLantern.objs 0) (tmPort Tst.wJ5.dev.releaseLantern.objs 0).pbs Tst.wJ5.dev.now };
        match Tst.wJ5.dev.group? 0 with
        | some q =>
          decide (q.kind = 1 ∨ q.kind = 2) && decide (Tst.wJ5.dev.portUp 0 = true) && decide (Tst.wJ5.dev.groupLit q = true) && (
            let t : Dev := (filled.dropNeverPort q).yieldPort q;
            match (t.port 0).fragment with
            | some _ =>
              match t.portPick q true with
              | some (_, _) =>
                true
              | _ => false
            | _ => false)
        | _ => false)) = true
    ∧ (decide (Tst.wJ9.dev.sys.inReset = false) && (
        let filled : Dev := Tst.wJ9.dev.releaseLantern.setPort 0 fun (p : Port) => { p with bucket := p.bucket.fill (Tst.wJ9.dev.releaseLantern.portRate Tst.wJ9.dev.releaseLantern.objs 0) (tmPort Tst.wJ9.dev.releaseLantern.objs 0).pbs Tst.wJ9.dev.now };
        match Tst.wJ9.dev.group? 0 with
        | some q =>
          decide (q.kind = 1 ∨ q.kind = 2) && decide (Tst.wJ9.dev.portUp 0 = true) && decide (Tst.wJ9.dev.groupLit q = true) && (
            let t : Dev := (filled.dropNeverPort q).yieldPort q;
            match (t.port 0).fragment with
            | some w =>
              decide (t.portPick q true = none) && (
                let held : Prop := t.portPreempts q = true ∧ (t.gate 1 0).openFor w.cls Tst.wJ9.dev.now = some 0;
                decide (held))
            | _ => false)
        | _ => false)) = true
    ∧ (decide (Tst.wJ4.dev.sys.inReset = false) && (
        let filled : Dev := Tst.wJ4.dev.releaseLantern.setPort 0 fun (p : Port) => { p with bucket := p.bucket.fill (Tst.wJ4.dev.releaseLantern.portRate Tst.wJ4.dev.releaseLantern.objs 0) (tmPort Tst.wJ4.dev.releaseLantern.objs 0).pbs Tst.wJ4.dev.now };
        match Tst.wJ4.dev.group? 0 with
        | some q =>
          decide (q.kind = 1 ∨ q.kind = 2) && decide (Tst.wJ4.dev.portUp 0 = true) && decide (Tst.wJ4.dev.groupLit q = true) && (
            let t : Dev := (filled.dropNeverPort q).yieldPort q;
            match (t.port 0).fragment with
            | some w =>
              decide (t.portPick q true = none) && (
                let held : Prop := t.portPreempts q = true ∧ (t.gate 1 0).openFor w.cls Tst.wJ4.dev.now = some 0;
                decide (¬held))
            | _ => false)
        | _ => false)) = true
    ∧ (decide (Tst.v221.dev.portReady Tst.vI_gq 0 = true)) = true
    ∧ (decide ((Tst.vZ_dlf.port Tst.vN_g4.lane).sending = none)) = true
    ∧ (match (Tst.wJ7.dev.port Tst.vI_gq.lane).sending with
      | some w =>
        let cut : Prop := Tst.wJ7.dev.portPreempts Tst.vI_gq = true ∧ ((Tst.wJ7.dev.gate 1 Tst.vI_gq.lane).openFor w.cls Tst.wJ7.dev.now =
            some 0 ∨ (Tst.wJ7.dev.portPick Tst.vI_gq true).isSome = true);
        decide (cut)
      | _ => false) = true
    ∧ (match (Tst.wJ6.dev.port Tst.vI_gq.lane).sending with
      | some w =>
        let cut : Prop := Tst.wJ6.dev.portPreempts Tst.vI_gq = true ∧ ((Tst.wJ6.dev.gate 1 Tst.vI_gq.lane).openFor w.cls Tst.wJ6.dev.now =
            some 0 ∨ (Tst.wJ6.dev.portPick Tst.vI_gq true).isSome = true);
        decide (¬cut)
      | _ => false) = true
    ∧ (match ((Tst.v221.dev.port Tst.vI_gq.lane).queue 0).frames with
      | x :: _ =>
        decide (x.src ≠ srcKeepers)
      | _ => false) = true
    ∧ (decide (Tst.wJh.kind = 2) && (
        match ((Tst.wJ5.dev.port Tst.wJh.lane).queue 0).frames with
        | _ :: _ =>
          true
        | _ => false)) = true
    ∧ (decide (Tst.vI_gq.kind ≠ 2) && (
        match ((Tst.wJ8.dev.port Tst.vI_gq.lane).queue 1).frames with
        | x :: rest =>
          decide (Tst.vI_gq.expressClass 1 = false) && (
            let u : Queue := ({ (Tst.wJ8.dev.port Tst.vI_gq.lane).queue 1 with frames := rest }).turn (Tst.wJ8.dev.portProf Tst.vI_gq.lane 1) Tst.wJ8.dev.time.c;
            let o : Dev × Frame := (Tst.wJ8.dev.setPortQueue Tst.vI_gq.lane 1 fun (x : Queue) => u).ptpOut Tst.vI_gq x;
            let e : Dev := o.fst.setPort Tst.vI_gq.lane fun (p : Port) => { p with bucket := p.bucket.charge (List.length o.snd.data) (tmPort o.fst.objs Tst.vI_gq.lane).overhead, deficits := if u.frames = [] ∧ 1 ≠ 0 then p.deficits.set (1 - 1) 0 else p.deficits };
            decide (e.portPreempts Tst.vI_gq = true))
        | _ => false)) = true
    ∧ (decide (Tst.vI_gq.kind ≠ 2) && (
        match ((Tst.wJ5.dev.port Tst.vI_gq.lane).queue 0).frames with
        | x :: rest =>
          let u : Queue := ({ (Tst.wJ5.dev.port Tst.vI_gq.lane).queue 0 with frames := rest }).turn (Tst.wJ5.dev.portProf Tst.vI_gq.lane 0) Tst.wJ5.dev.time.c;
          let o : Dev × Frame := (Tst.wJ5.dev.setPortQueue Tst.vI_gq.lane 0 fun (x : Queue) => u).ptpOut Tst.vI_gq x;
          let e : Dev := o.fst.setPort Tst.vI_gq.lane fun (p : Port) => { p with bucket := p.bucket.charge (List.length o.snd.data) (tmPort o.fst.objs Tst.vI_gq.lane).overhead, deficits := if u.frames = [] ∧ 0 ≠ 0 then p.deficits.set (0 - 1) 0 else p.deficits };
          decide (e.portPreempts Tst.vI_gq = false ∨ Tst.vI_gq.expressClass 0 = true)
        | _ => false)) = true := by
  refine ⟨?_, ?_, ?_, ?_, ?_, ?_, ?_, ?_, ?_, ?_, ?_, ?_, ?_, ?_, ?_, ?_, ?_, ?_, ?_, ?_, ?_, ?_, ?_, ?_, ?_, ?_, ?_, ?_, ?_⟩ <;> decide +kernel

/-- States and operands that meet the hypotheses of `Obligations.KeyCommandsAct`. -/
theorem wit_KeyCommandsAct :
    (let b := Packet.bytes Tst.v441;
      let flags := field b 4 1;
      Tst.ok cmdKeyWrite Tst.dev Tst.v441 = true ∧ bit flags 4 = false)
    ∧ (let b := Packet.bytes Tst.v442;
      let flags := field b 4 1;
      Tst.ok cmdKeyWrite Tst.v443.dev Tst.v442 = true ∧ bit flags 4 = true)
    ∧ Tst.ok cmdKeyErase Tst.dev Tst.v381 = true
    ∧ Tst.ok cmdKeyStatus Tst.dev Tst.v381 = true
    ∧ Tst.ok cmdKeyRead Tst.dev Tst.v381 = true
    ∧ Tst.ok cmdKeyBindSet Tst.dev Tst.v117 = true
    ∧ Tst.ok cmdSessionKeySet Tst.dev Tst.v66 = true := by
  refine ⟨?_, ?_, ?_, ?_, ?_, ?_, ?_⟩ <;> decide +kernel

/-- States and operands that meet the hypotheses of `Obligations.KeySwitchesAndExchanges`. -/
theorem wit_KeySwitchesAndExchanges :
    (let b : Bytes := Packet.bytes Tst.v223;
      let k : Nat := ent b 16 4;
      decide (k < 49152) && decide (Tst.ok cmdKeySwitch Tst.v443.dev Tst.v223 = true)) = true
    ∧ (let b : Bytes := Packet.bytes Tst.v226;
      let k : Nat := ent b 16 4;
      decide (49152 ≤ k) && decide (Tst.ok cmdKeySwitch Tst.v227.dev Tst.v226 = true)) = true
    ∧ (decide (Tst.v228.dev.sys.inReset = false) && (
        match List.find? (fun (e : Exec) => e.op == 2563 && e.started && e.armed.isNone && ent e.par 16 4 == 3) Tst.v228.dev.execs with
        | some _ =>
          decide (3 < 49152) && (
            let t : Nat := 3 / 2;
            match Tst.v228.dev.term? t with
            | some x =>
              let ahead : Int := Tst.v228.dev.sfcAhead 0;
              decide (ahead ≤ 0) && decide (x.keySwitch = some (3, 0))
            | _ => false)
        | _ => false)) = true
    ∧ (decide (Tst.v230.dev.sys.inReset = false) && (
        let n : Nat := (49153 - 49152) / 2;
        match List.find? (fun (e : Exec) => e.op == 2563 && e.started && e.armed.isNone && ent e.par 16 4 == 49153) Tst.v230.dev.execs with
        | some _ =>
          decide (49152 ≤ 49153) && (
            let ahead : Int := Tst.v230.dev.sfcAhead 0;
            decide (ahead ≤ 0) && decide ((Tst.v230.dev.bset n).snd = some (49153, 0)))
        | _ => false)) = true
    ∧ (decide (Tst.v229.dev.sys.inReset = false) && (
        let ahead : Int := Tst.v229.dev.sfcAhead 500;
        decide (Tst.v229.dev.slotSwitch? 3 = some (3, 500)) && decide (0 < ahead))) = true
    ∧ (let b : Bytes := Packet.bytes Tst.v65;
      decide (Tst.ok cmdKeyExchange Tst.v89.dev Tst.v65 = true) && (
        match Tst.v89.dev.term? (ent b 16 2) with
        | some _ =>
          true
        | _ => false)) = true
    ∧ (decide (Tst.v233.dev.sys.inReset = false) && (
        match Tst.v233.dev.term? 1 with
        | some _ =>
          match Tst.v233.dev.exchange? 1 with
          | some _ =>
            true
          | _ => false
        | _ => false)) = true
    ∧ (decide (Tst.v233.dev.sys.inReset = false) && (
        match Tst.v233.dev.term? 1 with
        | some _ =>
          match Tst.v233.dev.exchange? 1 with
          | some e =>
            decide (e.aux.getD 0 0 < 3)
          | _ => false
        | _ => false)) = true
    ∧ (decide (Tst.v234.dev.sys.inReset = false) && (
        match Tst.v234.dev.term? 1 with
        | some _ =>
          match Tst.v234.dev.exchange? 1 with
          | some e =>
            decide (3 ≤ e.aux.getD 0 0)
          | _ => false
        | _ => false)) = true
    ∧ (decide (Tst.v299.dev.sys.inReset = false) && (
        match Tst.v299.dev.term? 1 with
        | some _ =>
          decide (Tst.v299.dev.exchange? 1 = none)
        | _ => false)) = true := by
  refine ⟨?_, ?_, ?_, ?_, ?_, ?_, ?_, ?_, ?_, ?_⟩ <;> decide +kernel

/-- States and operands that meet the hypotheses of `Obligations.TimeCommandsAct`. -/
theorem wit_TimeCommandsAct :
    (decide (Tst.ok cmdTimeSourceSet Tst.v217.dev Tst.v417 = true)) = true
    ∧ (let b : Bytes := Packet.bytes Tst.v432;
      decide (ent b 24 1 = 1) && decide (Tst.ok cmdTimeSet Tst.v320.dev Tst.v432 = true)) = true
    ∧ (let b : Bytes := Packet.bytes Tst.v268;
      decide (ent b 24 1 = 0) && decide (Tst.ok cmdTimeSet Tst.v320.dev Tst.v268 = true)) = true
    ∧ (decide (Tst.v240.dev.sys.inReset = false) && (
        match Tst.v240.dev.time.waiting with
        | some (dom, seq, _, _) =>
          match Tst.v240.dev.exec? dom seq with
          | some _ =>
            true
          | _ => false
        | _ => false)) = true
    ∧ (decide (Tst.v299.dev.sys.inReset = false) && decide (Tst.v299.dev.time.waiting = none)) = true
    ∧ (decide (Tst.ok cmdTeInputSet Tst.v299.dev Tst.v9 = true)) = true
    ∧ (decide (Tst.ok cmdTsRingSet Tst.v299.dev Tst.v9 = true)) = true
    ∧ (decide (Tst.ok cmdPtpPortSet Tst.v299.dev Tst.v9 = true)) = true
    ∧ (decide (Tst.ok cmdSyncePortSet Tst.v299.dev Tst.v268 = true)) = true
    ∧ (decide (Tst.ok cmdTimeStatus Tst.v299.dev Tst.v9 = true)) = true
    ∧ (decide (Tst.ok cmdBeaconStatus Tst.v299.dev Tst.v9 = true)) = true
    ∧ (decide (Tst.ok cmdTodQuery Tst.v299.dev Tst.v9 = true)) = true
    ∧ (decide (Tst.ok cmdTeCaptureRead Tst.v299.dev Tst.v9 = true)) = true := by
  refine ⟨?_, ?_, ?_, ?_, ?_, ?_, ?_, ?_, ?_, ?_, ?_, ?_, ?_⟩ <;> decide +kernel

/-- States and operands that meet the hypotheses of `Obligations.TimeEventsAct`. -/
theorem wit_TimeEventsAct :
    (decide (Tst.ok cmdTimeRebase Tst.v217.dev Tst.v268 = true)) = true
    ∧ (decide (Tst.v244.dev.sys.inReset = false) && (
        match Tst.v244.dev.time.nextRebase with
        | some r =>
          decide (r.remote = true)
        | _ => false)) = true
    ∧ (decide (Tst.v241.dev.sys.inReset = false) && (
        match Tst.v241.dev.time.nextRebase with
        | some r =>
          decide (r.remote = false)
        | _ => false)) = true
    ∧ (decide (Tst.ok cmdBeaconSet Tst.v265.dev Tst.v269 = true)) = true
    ∧ (decide (Tst.ok cmdBeaconClear Tst.v299.dev Tst.v9 = true)) = true
    ∧ (decide (Tst.v246.dev.sys.inReset = false) && (
        match List.find? (fun (x : Nat × Nat × Nat) => x.fst == 1) Tst.v246.dev.time.pulses with
        | some _ =>
          true
        | _ => false)) = true
    ∧ (decide (Tst.v246.dev.sys.inReset = false) && decide (Tst.v246.dev.time.ppsHigh = false) && decide (Tst.v246.dev.time.isSet = true)) = true
    ∧ (decide (Tst.v299.dev.sys.inReset = false) && decide (Tst.v299.dev.time.isSet = false)) = true
    ∧ (decide (Tst.v247.dev.sys.inReset = false) && decide (Tst.v247.dev.time.ppsHigh = true)) = true
    ∧ (decide (Tst.v255.dev.sys.inReset = false) && decide (Tst.v255.dev.time.role = 3) && (
        let heard : Dev := Tst.v255.dev.setTime fun (t : Time) => { t with paths := List.filter (fun (p : Nat × Nat × Nat) => p.fst != Tst.v254.lane) t.paths ++ [(Tst.v254.lane, Tst.v254.hops, Tst.v254.master)] }.reselect;
        decide (Tst.v255.dev.isGroup Tst.v254.lane [2, 3] = true) && decide (Tst.v255.dev.portUp Tst.v254.lane = true) && decide
            (heard.time.source ≠ some Tst.v254.lane))) = true
    ∧ (decide (Tst.v255.dev.sys.inReset = false) && decide (Tst.v255.dev.time.role = 3) && (
        let heard : Dev := Tst.v255.dev.setTime fun (t : Time) => { t with paths := List.filter (fun (p : Nat × Nat × Nat) => p.fst != Tst.v250.lane) t.paths ++ [(Tst.v250.lane, Tst.v250.hops, Tst.v250.master)] }.reselect;
        decide (Tst.v255.dev.isGroup Tst.v250.lane [2, 3] = true) && decide (Tst.v255.dev.portUp Tst.v250.lane = true) && decide
            (heard.time.source = some Tst.v250.lane) && decide (Tst.v250.step = none))) = true
    ∧ (decide (Tst.v255.dev.sys.inReset = false) && decide (Tst.v255.dev.time.role = 3) && (
        let heard : Dev := Tst.v255.dev.setTime fun (t : Time) => { t with paths := List.filter (fun (p : Nat × Nat × Nat) => p.fst != Tst.v251.lane) t.paths ++ [(Tst.v251.lane, Tst.v251.hops, Tst.v251.master)] }.reselect;
        decide (Tst.v255.dev.isGroup Tst.v251.lane [2, 3] = true) && decide (Tst.v255.dev.portUp Tst.v251.lane = true) && decide
            (heard.time.source = some Tst.v251.lane) && (
          match Tst.v251.step with
          | some (_, _) =>
            true
          | _ => false))) = true
    ∧ (decide (Tst.v252.dev.sys.inReset = false) && decide (Tst.v252.dev.time.role = 3) && decide (1000 ≤ Tst.v252.dev.time.good) && decide
          (Tst.v252.dev.time.folLocked = false) && decide (Tst.v252.dev.time.folEver = false)) = true
    ∧ (decide (Tst.v253.dev.sys.inReset = false) && decide (Tst.v253.dev.time.role = 3) && decide (1000 ≤ Tst.v253.dev.time.good) && decide
          (Tst.v253.dev.time.folLocked = false) && decide (Tst.v253.dev.time.folEver = true)) = true
    ∧ (decide (Tst.v299.dev.sys.inReset = false) && decide (Tst.v299.dev.time.role ≠ 3) && decide (Tst.v299.dev.time.freq ≠ 2)) = true
    ∧ (decide (Tst.wT1.dev.sys.inReset = false) && decide (Tst.wT1.dev.time.role ≠ 3) && decide (Tst.wT1.dev.time.freq = 2) && decide
          (Tst.wT1.dev.synceSource.isSome = true)) = true
    ∧ (decide (Tst.v257.dev.sys.inReset = false) && decide (Tst.v257.dev.time.pllLocked = true)) = true
    ∧ (decide (Tst.v258.dev.sys.inReset = false) && decide (Tst.v258.dev.time.role = 2) && decide (Tst.v258.dev.time.ppsLocked = true)) = true
    ∧ (decide (Tst.wT2.dev.sys.inReset = false) && decide (Tst.wT2.dev.time.role = 1) && decide (Tst.wT2.dev.time.ptpLocked = true)) = true
    ∧ (let lost : Nat → Time := fun (l : Nat) => ({ Tst.wT3.dev.time with paths := List.filter (fun (p : Nat × Nat × Nat) => p.fst != l) Tst.wT3.dev.time.paths }).reselect;
      decide (Tst.wT3.dev.sys.inReset = false) && decide (Tst.wT3.dev.time.role = 3) && decide (Tst.wT3.dev.time.source.isSome = true) &&
          decide ((lost 4).source = none)) = true
    ∧ (let lost : Nat → Time := fun (l : Nat) => ({ Tst.wT4.dev.time with paths := List.filter (fun (p : Nat × Nat × Nat) => p.fst != l) Tst.wT4.dev.time.paths }).reselect;
      decide (Tst.wT4.dev.sys.inReset = false) && decide (Tst.wT4.dev.time.role = 3) && decide ((lost 0).source.isSome = true)) = true := by
  refine ⟨?_, ?_, ?_, ?_, ?_, ?_, ?_, ?_, ?_, ?_, ?_, ?_, ?_, ?_, ?_, ?_, ?_, ?_, ?_, ?_, ?_⟩ <;> decide +kernel

/-- States and operands that meet the hypotheses of `Obligations.EdgesAndPortProtocolsAct`. -/
theorem wit_EdgesAndPortProtocolsAct :
    (decide (Tst.v259.dev.sys.inReset = false) && (
        let q : TeInput := Tst.v259.dev.time.inputs.getD 3 { : TeInput };
        decide (3 < 8) && decide (q.caps.length < 64) && (
          let rising : Bool := true;
          let on : Bool := q.mask.getLsbD (if rising = true then 0 else 1);
          decide (on = true)))) = true
    ∧ (decide (Tst.v260.dev.sys.inReset = false) && (
        let q : TeInput := Tst.v260.dev.time.inputs.getD 3 { : TeInput };
        decide (3 < 8) && decide (64 ≤ q.caps.length) && (
          let rising : Bool := true;
          let on : Bool := q.mask.getLsbD (if rising = true then 0 else 1);
          decide (on = true)))) = true
    ∧ (decide (Tst.v299.dev.sys.inReset = false) && (
        let q : TeInput := Tst.v299.dev.time.inputs.getD 0 { : TeInput };
        decide (0 < 8) && (
          let rising : Bool := true;
          let on : Bool := q.mask.getLsbD (if rising = true then 0 else 1);
          decide (on = false)))) = true
    ∧ (decide (Tst.v299.dev.sys.inReset = false)) = true
    ∧ (decide (Tst.v259.dev.sys.inReset = false) && (
        let set : Dev := (Tst.v259.dev.capture 8 true 0);
        decide (set.time.role ≠ 2) && (
          let pps : Dev := Tst.v259.dev.capture 8 true 0;
          decide (pps.time.waiting = none ∧ set = pps ∨ pps.time.waiting = some (0, 0, 0, 0) ∧ set = ((pps.setStep 0).setTime fun (t : Time) => { t with stepped := true }).finishId 0 0 Status.done [])))) = true
    ∧ (decide (Tst.v261.dev.sys.inReset = false) && (
        let set : Dev := (Tst.v261.dev.capture 8 true 0);
        decide (set.time.role = 2) && (
          let pps : Dev := Tst.v261.dev.capture 8 true 0;
          decide (pps.time.waiting = none ∧ set = pps ∨ pps.time.waiting = some (0, 0, 0, 0) ∧ set = ((pps.setStep 0).setTime fun (t : Time) => { t with stepped := true }).finishId 0 0 Status.done [])))) = true
    ∧ (decide (Tst.v265.dev.sys.inReset = false) && (
        match Tst.v265.dev.time.ptp.find? Tst.v264.lane with
        | some q =>
          let slave : Bool := Tst.v264.slave && Tst.v265.dev.time.role == 1 && !bit (BitVec.toNat q.flags) 1;
          decide (slave = true)
        | _ => false)) = true
    ∧ (decide (Tst.v265.dev.sys.inReset = false) && decide (Tst.v265.dev.time.role = 1) && (
        match Tst.v265.dev.time.ptp.find? Tst.wT5.lane with
        | some q =>
          let slave : Bool := Tst.wT5.slave && Tst.v265.dev.time.role == 1 && !bit (BitVec.toNat q.flags) 1;
          let heard : PtpPort := { q with slave := slave, locked := slave && Tst.wT5.locked, rxStamp := if ptpEvent q Tst.wT5.data = true then some (Tst.v265.dev.stamp (Tst.v265.dev.laneFix false Tst.wT5.lane), Tst.v265.dev.frac) else q.rxStamp };
          let moved : Dev := Tst.v265.dev.setTime fun (t : Time) => { t with ptp := t.ptp.put Tst.wT5.lane heard };
          decide (slave = false) && decide (moved.time.slaves = [])
        | _ => false)) = true
    ∧ (decide (Tst.v263.dev.sys.inReset = false) && (
        match Tst.v263.dev.time.ptp.find? Tst.v264.lane with
        | some q =>
          let slave : Bool := Tst.v264.slave && Tst.v263.dev.time.role == 1 && !bit (BitVec.toNat q.flags) 1;
          let heard : PtpPort := { q with slave := slave, locked := slave && Tst.v264.locked, rxStamp := if ptpEvent q Tst.v264.data = true then some (Tst.v263.dev.stamp (Tst.v263.dev.laneFix false Tst.v264.lane), Tst.v263.dev.frac) else q.rxStamp };
          let moved : Dev := Tst.v263.dev.setTime fun (t : Time) => { t with ptp := t.ptp.put Tst.v264.lane heard };
          decide (slave = false) && decide (Tst.v263.dev.time.role ≠ 1 ∨ moved.time.slaves ≠ [])
        | _ => false)) = true
    ∧ (decide (Tst.v265.dev.sys.inReset = false) && decide (List.length Tst.v189 ≤ 256) && (
        let sent : Bool := ((Tst.v265.dev.port 0).queue 0).frames.any fun (x : Frame) => x.src == srcKeepers;
        match Tst.v265.dev.time.ptp.find? 0 with
        | some _ =>
          decide (sent = false)
        | _ => false)) = true
    ∧ (decide (Tst.v265.dev.sys.inReset = false) && (
        let sent : Bool := ((Tst.v265.dev.port 0).queue 0).frames.any fun (x : Frame) => x.src == srcKeepers;
        match Tst.v265.dev.time.ptp.find? 0 with
        | some _ =>
          decide (256 < List.length Tst.vM_stm ∨ sent = true)
        | _ => false)) = true
    ∧ (decide (Tst.v265.dev.sys.inReset = false) && (
        match Tst.v265.dev.time.synce.find? 0 with
        | some y =>
          decide (bit (BitVec.toNat y.flags) 0 = true) && decide (Tst.v265.dev.portUp 0 = true)
        | _ => false)) = true
    ∧ (decide (Tst.v265.dev.sys.inReset = false) && (
        match Tst.v265.dev.time.synce.find? 0 with
        | some y =>
          match y.waitTo with
          | some _ =>
            true
          | _ => false
        | _ => false)) = true := by
  refine ⟨?_, ?_, ?_, ?_, ?_, ?_, ?_, ?_, ?_, ?_, ?_, ?_, ?_⟩ <;> decide +kernel

/-- States and operands that meet the hypotheses of `Obligations.GatewayCommandsAct`. -/
theorem wit_GatewayCommandsAct :
    (decide (Tst.ok cmdTsiConnSet Tst.v299.dev Tst.wN1 = true)) = true
    ∧ (decide (Tst.wN2.ring ≤ 15) && decide (Packet.fence Tst.wN2 = false) && decide (Packet.dry Tst.wN2 = false) && decide (Packet.atBeacon
          Tst.wN2 = true) && decide (Tst.wN3.dev.sys.inReset = false ∧ Tst.wN3.dev.sys.fatal = false) && decide (cmdTsiPageSwap.refuse
          (Tst.wN3.dev.fetch Tst.wN2) (cmdTsiPageSwap.entry Tst.wN3.dev Tst.wN2) = none)) = true
    ∧ (decide (cmdTsiPageSwap.forbid (Tst.v304.dev.park { Tst.vM_xsw with stamp := some 0 }) { Tst.vM_xsw with stamp := some 0 } = none)) = true
    ∧ (decide (Tst.ok cmdHeritageStatus Tst.v299.dev Tst.v455 = true)) = true
    ∧ (let b : Bytes := Packet.bytes Tst.v455;
      decide (Tst.ok cmdTdmPmRead Tst.v299.dev Tst.v455 = true) && (
        match Tst.v299.dev.entityOf (ent b 16 4) with
        | some _ =>
          true
        | _ => false)) = true := by
  refine ⟨?_, ?_, ?_, ?_, ?_⟩ <;> decide +kernel

/-- States and operands that meet the hypotheses of `Obligations.HeritageLanesAndPerformance`. -/
theorem wit_HeritageLanesAndPerformance :
    (decide (Tst.vM_hin.inFrame = true) && decide (Tst.vM_hin.badRun = 3) && decide (framed 0 Tst.v189 Tst.vM_hin.position = false)) = true
    ∧ (decide (Tst.v277.inFrame = true) && decide (Tst.v277.badRun < 3) && decide (framed 0 Tst.v189 Tst.v277.position = false)) = true
    ∧ (decide (Tst.vM_hin.inFrame = true) && decide (framed 0 Tst.vM_stm Tst.vM_hin.position = true)) = true
    ∧ (decide (Tst.v279.inFrame = false) && (
        match List.find? (fun (c : Nat) => (frameStarts 1 Tst.wN4).contains c) Tst.v279.candidate with
        | some _ =>
          true
        | _ => false)) = true
    ∧ (decide (Tst.v279.inFrame = false) && decide (∀ (c : Nat), c ∈ Tst.v279.candidate → ¬c ∈ frameStarts 0 Tst.v189)) = true
    ∧ (decide (Tst.wN5.inFrame = false) && decide (Tst.wN5.left = true) && decide (∀ (c : Nat), c ∈ Tst.wN5.candidate → ¬c ∈ frameStarts 1
          Tst.wN4) && decide (Tst.wN5.position ∈ frameStarts 1 Tst.wN4)) = true
    ∧ (decide (Tst.v299.dev.sys.inReset = false) && (
        let x : HLane := hlane Tst.v299.dev.objs Tst.v280.lane;
        decide (x.mode = 0))) = true
    ∧ (decide (Tst.v299.dev.sys.inReset = false) && (
        let x : HLane := hlane Tst.v299.dev.objs Tst.v272.lane;
        let n : Nat := lineN x.mode;
        let bs : Bytes := slice Tst.v272.bits 0 (2430 * n);
        let two : Bytes := slice (Tst.v299.dev.hl Tst.v272.lane).prev 0 (2430 * n) ++ bs;
        let al : Heritage := ((Tst.v299.dev.hl Tst.v272.lane).align n two).elapse bs;
        decide (x.mode ≠ 0) && decide (Tst.v272.lane ≤ 31) && decide (al.inFrame = false))) = true
    ∧ (decide (Tst.v275.dev.sys.inReset = false) && (
        let x : HLane := hlane Tst.v275.dev.objs Tst.v272.lane;
        let n : Nat := lineN x.mode;
        let bs : Bytes := slice Tst.v272.bits 0 (2430 * n);
        let two : Bytes := slice (Tst.v275.dev.hl Tst.v272.lane).prev 0 (2430 * n) ++ bs;
        let al : Heritage := ((Tst.v275.dev.hl Tst.v272.lane).align n two).elapse bs;
        decide (x.mode ≠ 0) && decide (Tst.v272.lane ≤ 31) && decide (al.inFrame = true))) = true
    ∧ (decide (Tst.v299.dev.sys.inReset = false) && decide (adKind 268435456 = 1) && decide ((hlane Tst.v299.dev.objs (adLane
          268435456)).mode ≠ 0) && decide (0 ≤ 14) && decide (0 < 8 ∨ (hlane Tst.v299.dev.objs (adLane 268435456)).has 268435456 = true)) = true
    ∧ (decide (Tst.v299.dev.sys.inReset = false) && decide (adKind 268435456 = 1) && decide (0 ≤ 14)) = true
    ∧ (decide (Tst.v299.dev.sys.inReset = false)) = true := by
  refine ⟨?_, ?_, ?_, ?_, ?_, ?_, ?_, ?_, ?_, ?_, ?_, ?_⟩ <;> decide +kernel

/-- States and operands that meet the hypotheses of `Obligations.ProtectionCommandsAct`. -/
theorem wit_ProtectionCommandsAct :
    (decide (Tst.ok cmdProtSet Tst.v374.dev Tst.v368 = true)) = true
    ∧ (decide (Tst.ok cmdClaimSet Tst.v299.dev Tst.v378 = true)) = true
    ∧ (let b : Bytes := Packet.bytes Tst.v205;
      let t : Nat := ent b 16 1;
      decide (t = 1) && decide (Tst.ok cmdProtIsolate Tst.v299.dev Tst.v205 = true)) = true
    ∧ (let b : Bytes := Packet.bytes Tst.v9;
      let t : Nat := ent b 16 1;
      decide (t = 0) && decide (Tst.ok cmdProtIsolate Tst.v457.dev Tst.v9 = true)) = true
    ∧ (decide (Tst.v299.dev.isProtected = true)) = true
    ∧ (decide (Tst.wO1.dev.isProtected = true) && decide (100000 ≤ Tst.wO1.dev.now % 125000)) = true
    ∧ (decide (Tst.v299.dev.prot.latched = none)) = true
    ∧ (match Tst.wO2.dev.prot.latched with
      | some (_, _, _) =>
        true
      | _ => false) = true
    ∧ (let b : Bytes := Packet.bytes Tst.v9;
      let t : Nat := ent b 16 1;
      let delta : Int := signed 32 (ent b 20 4);
      decide (Tst.ok cmdShadowSet Tst.v299.dev Tst.v9 = true) && decide ((Tst.v299.dev.shadow t).delta0 = delta)) = true
    ∧ (let b : Bytes := Packet.bytes Tst.v239;
      let t : Nat := ent b 16 1;
      let delta : Int := signed 32 (ent b 20 4);
      decide (Tst.ok cmdShadowSet Tst.v299.dev Tst.v239 = true) && decide ((Tst.v299.dev.shadow t).delta0 ≠ delta)) = true
    ∧ (decide (Tst.ok cmdShadowRead Tst.v299.dev Tst.v9 = true)) = true
    ∧ (decide (Tst.ok cmdProtStatus Tst.v299.dev Tst.v9 = true)) = true := by
  refine ⟨?_, ?_, ?_, ?_, ?_, ?_, ?_, ?_, ?_, ?_, ?_, ?_⟩ <;> decide +kernel

/-- States and operands that meet the hypotheses of `Obligations.HigherClaimWinsTheLine`. -/
theorem wit_HigherClaimWinsTheLine :
    (decide (0 < 34)) = true
    ∧ (let low : Nat → Bool := fun (i : Nat) => Tst.wO3.getD i false;
      decide (5 < 2 ^ 32) && decide (7 < 2 ^ 32) && decide (5 ≠ 7) && decide (∀ (i : Nat), i < 34 → low i = ((lineDrives true 5
          Tst.wO3).getD i false || (lineDrives true 7 Tst.wO3).getD i false))) = true
    ∧ (let low : Nat → Bool := fun (i : Nat) => Tst.wO3.getD i false;
      decide (7 < 2 ^ 32) && decide (5 < 2 ^ 32) && decide (7 ≠ 5) && decide (∀ (i : Nat), i < 34 → low i = ((lineDrives true 7
          Tst.wO3).getD i false || (lineDrives true 5 Tst.wO3).getD i false))) = true := by
  refine ⟨?_, ?_, ?_⟩ <;> decide +kernel

/-- States and operands that meet the hypotheses of `Obligations.ProtectionEventsAct`. -/
theorem wit_ProtectionEventsAct :
    (decide (Tst.v265.dev.sys.inReset = false) && decide (Tst.v265.dev.isProtected = false)) = true
    ∧ (decide (Tst.v299.dev.sys.inReset = false) && decide (Tst.v299.dev.isProtected = true)) = true
    ∧ (decide (Tst.v299.dev.sys.inReset = false) && decide (Tst.v299.dev.isProtected = true) && decide (Tst.v299.dev.prot.hung = false)) = true
    ∧ (decide (Tst.v299.dev.sys.inReset = false)) = true
    ∧ (decide (Tst.v299.dev.sys.inReset = false) && decide (Tst.v299.dev.prot.held = [])) = true
    ∧ (decide (Tst.v295.dev.sys.inReset = false) && (
        match sortBy (fun (h : Nat × Frame) => h.snd.itime) Tst.v295.dev.prot.held with
        | _ :: _ =>
          decide (Tst.v295.dev.standby = true)
        | _ => false)) = true
    ∧ (decide (Tst.v296.dev.sys.inReset = false) && decide (Tst.v296.dev.follows = true) && (
        let l : List Int := List.take 16 (Tst.v296.dev.shadow 0).samples;
        let spread : Int := List.foldl max (l.headD 0) l - List.foldl min (l.headD 0) l;
        decide ((Tst.v296.dev.shadow 0).state = 1) && decide (l.length = 16) && decide (spread ≤ ↑(8 * Tst.v296.dev.bitUnits 0)))) = true
    ∧ (decide (Tst.v297.dev.sys.inReset = false) && decide (Tst.v297.dev.follows = true) && (
        let l : List Int := List.take 16 (Tst.v297.dev.shadow 0).samples;
        let spread : Int := List.foldl max (l.headD 0) l - List.foldl min (l.headD 0) l;
        decide ((Tst.v297.dev.shadow 0).state = 1) && decide (↑(8 * Tst.v297.dev.bitUnits 0) < spread))) = true
    ∧ (decide (Tst.v298.dev.sys.inReset = false) && decide ((Tst.v298.dev.shadow 0).state = 2) && decide (64 ≤ (Tst.v298.dev.shadow
          0).missed)) = true
    ∧ (decide (Tst.v299.dev.sys.inReset = false) && (
        match Tst.v299.dev.prot.wtrDue with
        | some _ =>
          decide (Tst.v299.dev.prot.wtrRunning = true) && decide (Tst.v299.dev.prot.wtrOver = false)
        | _ => false)) = true
    ∧ (decide (Tst.v300.dev.sys.inReset = false) && decide (Tst.v300.dev.prot.wtrRunning = true) && decide (Tst.v300.dev.prot.wtrOver = true)
          && decide (Tst.v300.dev.restoring = false)) = true
    ∧ (decide (Tst.v265.dev.sys.inReset = false) && decide (Tst.v265.dev.tenderUp = false)) = true
    ∧ (decide (Tst.v299.dev.sys.inReset = false) && decide (Tst.v299.dev.tenderUp = true) && decide (Tst.v287.transmitted = false)) = true
    ∧ (decide (Tst.v288.dev.sys.inReset = false) && decide (Tst.v288.dev.tenderUp = true) && decide (Tst.v288.dev.prot.sentLast = true) &&
          decide (Tst.v288.dev.prot.status ≠ none) && decide (Tst.v289.transmitted = true)) = true
    ∧ (decide (Tst.v298.dev.sys.inReset = false) && decide (Tst.v298.dev.tenderUp = true) && decide (Tst.v298.dev.prot.sentLast = false) &&
          decide (Tst.v298.dev.prot.status = none) && decide (Tst.v298.dev.role = 2) && decide (Tst.v289.transmitted = true)) = true
    ∧ (decide (Tst.v299.dev.sys.inReset = false) && decide (Tst.v299.dev.tenderUp = true) && decide (Tst.v299.dev.follows = true) && decide
          (Tst.vM_mr.part = 0)) = true
    ∧ (decide (Tst.v299.dev.sys.inReset = false) && decide (Tst.v299.dev.tenderUp = true) && decide (Tst.v299.dev.follows = true) && decide
          (Tst.wO5.part = 1)) = true
    ∧ (decide (Tst.v299.dev.sys.inReset = false) && decide (Tst.v299.dev.tenderUp = true) && decide (Tst.v299.dev.follows = true) && decide
          (Tst.wO6.part = 2)) = true
    ∧ (decide (Tst.v299.dev.sys.inReset = false) && decide (Tst.v299.dev.tenderUp = true) && decide (Tst.v299.dev.follows = true) && decide
          (Tst.wO7.part = 3)) = true
    ∧ (decide (Tst.v299.dev.sys.inReset = false) && decide (Tst.v299.dev.tenderUp = true) && decide (Tst.v299.dev.follows = true) && decide
          (3 < Tst.wO8.part)) = true
    ∧ (decide (Tst.wO9.dev.sys.inReset = false) && decide (Tst.wO9.dev.tenderUp = true) && decide (Tst.wO9.dev.follows = false) && decide
          (Tst.wO9.dev.prot.transmitting = true) && decide (Tst.wO9.dev.prot.cutover = Cutover.incoming) && (
        let cut : Prop := (Tst.vM_mr.frame + 1) * 125000 = Tst.wO9.dev.prot.cutAt;
        decide (Tst.vM_mr.part = 0) && decide (cut))) = true
    ∧ (decide (Tst.wO9.dev.sys.inReset = false) && decide (Tst.wO9.dev.tenderUp = true) && decide (Tst.wO9.dev.follows = false) && decide
          (Tst.wO9.dev.prot.transmitting = true) && decide (Tst.wO9.dev.prot.cutover = Cutover.incoming) && (
        let cut : Prop := (Tst.wO5.frame + 1) * 125000 = Tst.wO9.dev.prot.cutAt;
        decide (Tst.wO5.part = 1) && decide (cut))) = true
    ∧ (decide (Tst.wO10.dev.sys.inReset = false) && decide (Tst.wO10.dev.tenderUp = true) && decide (Tst.wO10.dev.follows = false) && decide
          (Tst.wO10.dev.prot.transmitting = true) && decide (Tst.wO10.dev.prot.cutover = Cutover.opened) && (
        let cut : Prop := (Tst.wO6.frame + 1) * 125000 = Tst.wO10.dev.prot.cutAt;
        decide (Tst.wO6.part = 2) && decide (cut))) = true
    ∧ (decide (Tst.wO11.dev.sys.inReset = false) && decide (Tst.wO11.dev.tenderUp = true) && decide (Tst.wO11.dev.follows = false) && decide
          (Tst.wO11.dev.prot.transmitting = true) && (
        let cut : Prop := (Tst.wO7.frame + 1) * 125000 = Tst.wO11.dev.prot.cutAt;
        decide (Tst.wO7.part = 3) && decide (cut))) = true
    ∧ (decide (Tst.wO11.dev.sys.inReset = false) && decide (Tst.wO11.dev.tenderUp = true) && decide (Tst.wO11.dev.follows = false) && decide
          (Tst.wO11.dev.prot.transmitting = true) && decide (Tst.wO11.dev.prot.cutover = Cutover.closing) && decide (Tst.wO8.part = 4)) = true
    ∧ (decide (Tst.v265.dev.sys.inReset = false) && decide (Tst.v265.dev.follows = false) && decide (Tst.v265.dev.prot.transmitting = false)) = true := by
  refine ⟨?_, ?_, ?_, ?_, ?_, ?_, ?_, ?_, ?_, ?_, ?_, ?_, ?_, ?_, ?_, ?_, ?_, ?_, ?_, ?_, ?_, ?_, ?_, ?_, ?_, ?_⟩ <;> decide +kernel

/-- States and operands that meet the hypotheses of `Obligations.LaneCommandsAct`. -/
theorem wit_LaneCommandsAct :
    (let b : Bytes := Packet.bytes Tst.v9;
      let k : Nat := ent b 16 1;
      decide (Tst.ok cmdPortDisable Tst.v299.dev Tst.v9 = true) && (
        match Tst.v299.dev.group? k with
        | some _ =>
          true
        | _ => false)) = true
    ∧ (let b : Bytes := Packet.bytes Tst.v9;
      let k : Nat := ent b 16 1;
      decide (Tst.ok cmdPortEnable Tst.v306.dev Tst.v9 = true) && (
        match Tst.v306.dev.group? k with
        | some _ =>
          true
        | _ => false)) = true
    ∧ (decide (Tst.ok cmdEqTableWrite Tst.v299.dev Tst.v365 = true)) = true
    ∧ (let b : Bytes := Packet.bytes Tst.v9;
      let k : Nat := ent b 16 1;
      decide (Tst.ok cmdLaneTrain Tst.v306.dev Tst.v9 = true) && (
        match Tst.v306.dev.group? k with
        | some _ =>
          true
        | _ => false)) = true
    ∧ (decide (Tst.ok cmdTreeTrain Tst.v320.dev Tst.v9 = true)) = true
    ∧ (decide (Tst.ok cmdEyeScan Tst.v299.dev Tst.v367 = true)) = true
    ∧ (decide (Tst.ok cmdPatternSet Tst.v299.dev Tst.v368 = true)) = true
    ∧ (decide (0 < Tst.vN_g4.width)) = true
    ∧ (let b : Bytes := Packet.bytes Tst.v130;
      let k : Nat := ent b 16 1;
      let l : Nat := ent b 18 2;
      let x : Lane := Tst.v299.dev.lane k l;
      decide (Tst.ok cmdPatternRead Tst.v299.dev Tst.v130 = true) && decide (x.checker = 0)) = true
    ∧ (let b : Bytes := Packet.bytes Tst.v466;
      let k : Nat := ent b 16 1;
      let l : Nat := ent b 18 2;
      let x : Lane := Tst.v467.dev.lane k l;
      decide (Tst.ok cmdPatternRead Tst.v467.dev Tst.v466 = true) && decide (x.checker ≠ 0)) = true
    ∧ (decide (Tst.ok cmdLaneStatus Tst.v299.dev Tst.v130 = true)) = true
    ∧ (decide (Tst.ok cmdPortStatus Tst.v299.dev Tst.v9 = true)) = true := by
  refine ⟨?_, ?_, ?_, ?_, ?_, ?_, ?_, ?_, ?_, ?_, ?_, ?_⟩ <;> decide +kernel

/-- States and operands that meet the hypotheses of `Obligations.TrainingsAndLinksAct`. -/
theorem wit_TrainingsAndLinksAct :
    (decide (Tst.v307.dev.sys.inReset = false) && (
        match Tst.v307.dev.running? 3589 0 with
        | some _ =>
          match Tst.v307.dev.group? 0 with
          | some _ =>
            true
          | _ => false
        | _ => false)) = true
    ∧ (decide (Tst.v299.dev.sys.inReset = false) && decide (Tst.v299.dev.running? 3589 0 = none)) = true
    ∧ (decide (Tst.v312.dev.sys.inReset = false) && (
        match Tst.v312.dev.running? 3590 0 with
        | some _ =>
          true
        | _ => false)) = true
    ∧ (decide (Tst.v299.dev.sys.inReset = false) && decide (Tst.v299.dev.running? 3590 0 = none)) = true
    ∧ (decide (Tst.v371.dev.sys.inReset = false) && (
        match List.find? (fun (x : Exec) => x.op == 3593 && x.started && x.armed.isNone && ent x.par 16 1 == 1 && ent x.par 18 2 == 0)
            Tst.v371.dev.execs with
        | some _ =>
          true
        | _ => false)) = true
    ∧ (decide (Tst.v299.dev.sys.inReset = false) && (
        match Tst.v299.dev.linkGroup? 0 with
        | some _ =>
          decide (Tst.v299.dev.portUp 0 = true)
        | _ => false)) = true
    ∧ (decide (Tst.v320.dev.sys.inReset = false) && (
        match Tst.v320.dev.linkGroup? 0 with
        | some q =>
          decide (Tst.v320.dev.portUp 0 = false) && decide (q.kind = 1)
        | _ => false)) = true
    ∧ (decide (Tst.v202.dev.sys.inReset = false) && (
        match Tst.v202.dev.linkGroup? 4 with
        | some q =>
          decide (Tst.v202.dev.portUp 4 = false) && decide (q.kind ≠ 1) && decide ((Tst.v202.dev.port 4).peer = none)
        | _ => false)) = true
    ∧ (decide (Tst.v202.dev.sys.inReset = false) && (
        match Tst.v202.dev.linkGroup? 4 with
        | some q =>
          decide (Tst.v202.dev.portUp 4 = false) && decide (q.kind = 2 ∨ q.kind = 3) && decide (Tst.v202.dev.idConflict 4 (0 % 8) = true)
        | _ => false)) = true
    ∧ (decide (Tst.v202.dev.sys.inReset = false) && (
        match Tst.v202.dev.linkGroup? 4 with
        | some q =>
          decide (Tst.v202.dev.portUp 4 = false) && decide (q.kind = 2 ∨ q.kind = 3) && decide ((Tst.v202.dev.lane 1 4).blockLock = false)
              && decide (Tst.v202.dev.idConflict 4 (1 % 8) = false)
        | _ => false)) = true
    ∧ (decide (Tst.v316.dev.sys.inReset = false) && (
        match Tst.v316.dev.linkGroup? 0 with
        | some _ =>
          decide (Tst.v316.dev.portUp 0 = false) && (
            match (Tst.v316.dev.port 0).retryAt with
            | some _ =>
              true
            | _ => false)
        | _ => false)) = true
    ∧ (decide (Tst.v299.dev.sys.inReset = false) && (
        match Tst.v299.dev.group? 0 with
        | some q =>
          decide (q.kind = 1)
        | _ => false)) = true
    ∧ (decide (Tst.v299.dev.sys.inReset = false) && (
        let cause : LinkCause := .lossOfLock;
        match Tst.v299.dev.group? 0 with
        | some q =>
          decide (cause ≠ LinkCause.timeWords ∨ q.kind ≠ 1) && decide (Tst.v299.dev.portUp 0 = true)
        | _ => false)) = true
    ∧ (decide (Tst.v363.dev.sys.inReset = false) && (
        match Tst.v363.dev.groupOfLane? 0 with
        | some q =>
          decide (q.train = true) && decide (Tst.v363.dev.groupLit q = true) && decide (Tst.v363.dev.portUp q.lane = false)
        | _ => false)) = true
    ∧ (decide (Tst.v299.dev.sys.inReset = false) && (
        match Tst.v299.dev.group? 0 with
        | some q =>
          decide (q.kind = 1) && decide (q.preempt = true) && decide (q.noVerify = false) && decide (Tst.v299.dev.portUp 0 = true)
        | _ => false)) = true := by
  refine ⟨?_, ?_, ?_, ?_, ?_, ?_, ?_, ?_, ?_, ?_, ?_, ?_, ?_, ?_, ?_⟩ <;> decide +kernel

/-- States and operands that meet the hypotheses of `Obligations.CounterCommandsAct`. -/
theorem wit_CounterCommandsAct :
    (7 < 2097151 ∧ Tst.v347.counter 7 = 2 ^ 64 - 1 ∧ Tst.v347.health.chain.getD 7 false = true ∧ Tst.v347.counter (7 + 1) < 2 ^ 64 - 1)
    ∧ (9 < 2097151 ∧ Tst.v347.counter 9 < 2 ^ 64 - 1)
    ∧ (9 < 2097151 ∧ Tst.v347.counter 9 < 2 ^ 64 - 1 ∧ 7 ≠ 9)
    ∧ (7 < 2097151 ∧ Tst.v348.counter 7 = 2 ^ 64 - 1 ∧ Tst.v348.health.chain.getD 7 false = false)
    ∧ Tst.ok cmdCounterRead Tst.dev Tst.v469 = true
    ∧ Tst.ok cmdCounterClear Tst.dev Tst.v470 = true
    ∧ Tst.ok cmdCounterChainSet Tst.dev Tst.v470 = true := by
  refine ⟨?_, ?_, ?_, ?_, ?_, ?_, ?_⟩ <;> decide +kernel

/-- States and operands that meet the hypotheses of `Obligations.DumpsAreTaken`. -/
theorem wit_DumpsAreTaken :
    (let b := Packet.bytes Tst.v9;
      let k := ent b 16 1;
      Tst.ok cmdDumpStart Tst.v322.dev Tst.v9 = true ∧ Tst.v322.dev.dump? k = some Tst.v323 ∧ Tst.v323.writing = none)
    ∧ (Tst.v322.dev.sys.inReset = false ∧ Tst.v322.dev.dump? 0 = some Tst.v323 ∧ Tst.v323.period = 0)
    ∧ (let b := Packet.bytes Tst.v9;
      let k := ent b 16 1;
      Tst.ok cmdDumpStart Tst.v324.dev Tst.v9 = true ∧ Tst.v324.dev.dump? k = some Tst.v325 ∧ Tst.v325.writing ≠ none)
    ∧ (Tst.v324.dev.sys.inReset = false ∧ Tst.v324.dev.dump? 0 = some Tst.v325 ∧ Tst.v325.writing = some Tst.vO_rn ∧ Tst.vO_rn.exec = none)
    ∧ (Tst.v326.dev.sys.inReset = false ∧ Tst.v326.dev.dump? 0 = some Tst.v327 ∧ Tst.v327.period ≠ 0 ∧ Tst.v327.writing ≠ none)
    ∧ (Tst.v328.dev.sys.inReset = false ∧ Tst.v328.dev.dump? 0 = some Tst.v329 ∧ Tst.v329.period ≠ 0 ∧ Tst.v329.writing = none)
    ∧ (Tst.v330.dev.sys.inReset = false ∧ Tst.v330.dev.dump? 0 = some Tst.v331 ∧ Tst.v331.writing = some Tst.vO_rxp ∧ Tst.vO_rxp.exec = some (0, 3))
    ∧ Tst.ok cmdDumpSet Tst.dev Tst.v332 = true := by
  refine ⟨?_, ?_, ?_, ?_, ?_, ?_, ?_, ?_⟩ <;> decide +kernel

/-- States and operands that meet the hypotheses of `Obligations.HealthCommandsAct`. -/
theorem wit_HealthCommandsAct :
    (let b := Packet.bytes Tst.v334;
      (Tst.v335.dev.sys.inReset = false ∧ Tst.v335.dev.sys.fatal = false) ∧ (Tst.v334.ring ≤ 15 ∧ Packet.fence Tst.v334 = false ∧ Packet.atBeacon Tst.v334 = false ∧ Packet.dry Tst.v334 = false) ∧ Tst.v334.ring = 0 ∧ Tst.v334.domain = 0#8 ∧ Tst.v334.tver = 0#32 ∧ Tst.v335.dev.sys.boot = 3 ∧ List.length b = 64 ∧ entryForm Tst.v334 true false = true ∧ zeros 0 b [(48, 59)] = true ∧ field b 60 4 = BitVec.toNat (crc32c (slice b 0 60)) ∧ Tst.v335.dev.vers.committed = false ∧ Tst.v335.dev.health.ledger.loaded = false)
    ∧ Tst.ok cmdFaultLogRead Tst.v337.dev Tst.v336 = true
    ∧ (let b := Packet.bytes Tst.v336;
      Tst.ok cmdSensorRead Tst.v337.dev Tst.v336 = true ∧ Tst.v337.dev.health.sensors.find? (ent b 16 1) = some 400)
    ∧ Tst.ok cmdLedgerRead Tst.v337.dev Tst.v336 = true
    ∧ Tst.ok cmdAlarmClear Tst.dev Tst.v9 = true := by
  refine ⟨?_, ?_, ?_, ?_, ?_⟩ <;> decide +kernel

/-- States and operands that meet the hypotheses of `Obligations.FaultsAreHandledByClass`. -/
theorem wit_FaultsAreHandledByClass :
    (decide (Tst.v299.dev.sys.inReset = false) && (
        match (List.take 8 Tst.v338).max? with
        | some hot =>
          decide (hot < 1680)
        | _ => false)) = true
    ∧ (decide (Tst.v299.dev.sys.inReset = false) && decide (Tst.v299.dev.sys.fatal = false) && (
        match (List.take 8 Tst.v340).max? with
        | some hot =>
          decide (1680 ≤ hot)
        | _ => false)) = true
    ∧ (decide (Tst.v299.dev.sys.inReset = false)) = true
    ∧ (decide (Tst.v299.dev.sys.inReset = false) && (
        match Tst.v299.dev.contained? Tst.v339 0 with
        | some _ =>
          true
        | _ => false)) = true
    ∧ (decide (Tst.v299.dev.sys.inReset = false) && decide (Tst.v299.dev.contained? Tst.v341 0 = none)) = true
    ∧ (let soon : Bool := Option.any (fun (c : Nat) => decide (Tst.v342.dev.time.c ≤ c + 1000000000)) Tst.v342.dev.sys.recoveredAt;
      decide (Tst.v342.dev.sys.inReset = false) && decide (Tst.v342.dev.sys.fatal = false) && decide (soon = true) && decide (48 ≤
          BitVec.toNat Tst.v341) && decide (BitVec.toNat Tst.v341 ≤ 53)) = true
    ∧ (let soon : Bool := Option.any (fun (c : Nat) => decide (Tst.v299.dev.time.c ≤ c + 1000000000)) Tst.v299.dev.sys.recoveredAt;
      decide (Tst.v299.dev.sys.inReset = false) && decide (Tst.v299.dev.sys.fatal = false) && decide (soon = false) && decide (48 ≤
          BitVec.toNat Tst.v341) && decide (BitVec.toNat Tst.v341 ≤ 53)) = true
    ∧ (decide (Tst.v343.dev.sys.inReset = false) && decide (Tst.v343.dev.reading = true)) = true
    ∧ (decide (Tst.v299.dev.sys.inReset = false) && decide (Tst.v299.dev.reading = false)) = true
    ∧ (decide (Tst.v299.dev.sys.inReset = false) && decide (Tst.v299.dev.sys.fatal = false) && (
        let thermal : Bool := true;
        decide (thermal = true))) = true
    ∧ (let soon : Bool := Option.any (fun (c : Nat) => decide (Tst.v342.dev.time.c ≤ c + 1000000000)) Tst.v342.dev.sys.recoveredAt;
      decide (Tst.v342.dev.sys.inReset = false) && decide (soon = true) && (
        let thermal : Bool := false;
        decide (thermal = false))) = true := by
  refine ⟨?_, ?_, ?_, ?_, ?_, ?_, ?_, ?_, ?_, ?_, ?_⟩ <;> decide +kernel

/-- States and operands that meet the hypotheses of `Obligations.PrecodingIsUndoneByTheReceiver`. -/
theorem wit_PrecodingIsUndoneByTheReceiver :
    (let precoded : Bool := true;
      let sent : List Nat := if precoded = true then precodeOn 0 (List.map gray (bitPairs Tst.vD_delim)) else List.map gray (bitPairs Tst.vD_delim);
      decide (0 ∈ sent)) = true
    ∧ (let precoded : Bool := true;
      let sent : List Nat := if precoded = true then precodeOn 0 (List.map gray (bitPairs Tst.vD_delim)) else List.map gray (bitPairs Tst.vD_delim);
      decide (precoded = true) && decide (0 < sent.length)) = true
    ∧ (decide (2 < Tst.wQ1.rate)) = true
    ∧ (decide (Tst.wQ2.rate ≤ 2) && decide (Tst.wQ2.precode < 16) && decide (Tst.wQ2.precode % 4 ≠ 0)) = true
    ∧ (decide (Tst.wQ2.rate ≤ 2) && decide (Tst.wQ2.precode < 16) && decide (Tst.wQ2.precode / 4 ≠ 0)) = true
    ∧ (decide (Tst.vN_g4.rate ≤ 2) && decide (Tst.vN_g4.precode < 16) && decide (Tst.vN_g4.precode % 4 = 0)) = true
    ∧ (decide (Tst.vN_g4.rate ≤ 2) && decide (Tst.vN_g4.precode < 16) && decide (Tst.vN_g4.precode / 4 = 0)) = true := by
  refine ⟨?_, ?_, ?_, ?_, ?_, ?_, ?_⟩ <;> decide +kernel

/-- A notice that the rate limit refuses, and one that goes to its ring. -/
theorem wit_LearningEventsAct_limit :
    (let d := Tst.wL3.dev;
      d.sys.inReset = false ∧ sortBy (fun n : Notice => n.time * 8 + n.pipe) d.fwd.notices = [Tst.vH_nt]
        ∧ d.fwd.pend.find? (fun q => q.fid == Tst.vH_nt.fid && q.mac == Tst.vH_nt.mac) = none ∧ d.fwd.pend.length < 4096
        ∧ d.fwd.ring = some 0
        ∧ min (d.fwd.level + d.fwd.rate * ((d.goTime (Tst.vH_nt.time + 4000)).now - d.fwd.last)) (d.fwd.burst * 1000000000) < 1000000000)
    ∧ (let d := Tst.v148.dev;
      d.sys.inReset = false ∧ sortBy (fun n : Notice => n.time * 8 + n.pipe) d.fwd.notices = [Tst.vH_nt]
        ∧ d.fwd.pend.find? (fun q => q.fid == Tst.vH_nt.fid && q.mac == Tst.vH_nt.mac) = none ∧ d.fwd.pend.length < 4096
        ∧ d.fwd.ring = some 0
        ∧ 1000000000 ≤ min (d.fwd.level + d.fwd.rate * ((d.goTime (Tst.vH_nt.time + 4000)).now - d.fwd.last)) (d.fwd.burst * 1000000000)
        ∧ ((d.sw.rx.find? 0).map fun q => q.disabled) = some false) := by
  refine ⟨?_, ?_⟩ <;> decide +kernel

/-- A cut-through remainder that waits while nothing is being sent. -/
theorem wit_ChannelsAndPortsSendInOrder_tail :
    Tst.wJ3.dev.sys.inReset = false ∧ (∀ w, (Tst.wJ3.dev.chan 0).sending = some w → w.frame.early = false)
      ∧ ((Tst.wJ3.dev.chan 0).fragment.map fun u => u.frame.early) = some true :=
  ⟨by decide +kernel, (fun w h => by
    have idle : (Tst.wJ3.dev.chan 0).sending = none := by decide +kernel
    rw [idle] at h
    cases h), by decide +kernel⟩

/-- A flow within its committed rate, and one that only the excess round serves. -/
theorem wit_ChannelsAndPortsSendInOrder_rounds :
    (Tst.vJ_dcm.committed 0 1 = some 5 ∧ (Tst.vJ_dcm.chan 0).bucket.ok = true ∧ ∀ k, 1 ≤ k → k < 1 → Tst.vJ_dcm.committed 0 k = none)
    ∧ ((Tst.wJx.chan 0).bucket.ok = true ∧ (∀ k, 1 ≤ k → k ≤ 3 → Tst.wJx.committed 0 k = none)
      ∧ (∀ k, 1 ≤ k → k < 1 → Tst.wJx.excess 0 k = none) ∧ (Tst.wJx.excess 0 1).isSome = true) := by
  refine ⟨⟨by decide +kernel, by decide +kernel, fun k h g => by omega⟩, by decide +kernel, ?_, fun k h g => by omega, by decide +kernel⟩
  intro k h g
  have : k = 1 ∨ k = 2 ∨ k = 3 := by omega
  rcases this with rfl | rfl | rfl <;> decide +kernel


/-- A good ranging burst whose registration ID is not the stored one. -/
theorem wit_RangingAndLossesMoveTheTerminal_unknown :
    (Tst.wR1.dev.sys.inReset = false ∧ Tst.wR1.dev.standby = false
      ∧ (Tst.wR1.dev.term? Tst.vD_rrx.term).map (fun t => (t.chan, t.state)) = some (Tst.vD_rrx.chan, 2)
      ∧ (Tst.wR1.dev.term? Tst.vD_rrx.term).map (fun t => regMatches t.regId Tst.vD_rrx.regId) = some false
      ∧ ((Tst.wR1.dev.chan Tst.vD_rrx.chan).windowOf? 6 Tst.vD_rrx.term).map (fun w => w.regChk) = some true
      ∧ Tst.vD_rrx.delim.isSome = true ∧ Tst.vD_rrx.good = true ∧ Tst.wR1.dev.rerange? Tst.vD_rrx.term = none) := by
  decide +kernel


/-! ### Witnesses of the statements about every command -/

/-- A flow that drains. -/
def Tst.devDrain : Dev := { Tst.dev with drains := [⟨.flow 5, 0, 3, 1000, 0, 0, 0⟩] }

theorem wit_PacketsRunOrAnswerTheirFirstFailure :
    (commandOf (.epochQuery (Tst.pk [])) = some (cmdEpochQuery, Tst.pk []) ∧ Tst.ok cmdEpochQuery Tst.dev (Tst.pk []) = true)
    ∧ (let p := { Tst.pk [] with domain := 1#8 }
      commandOf (.epochQuery p) = some (cmdEpochQuery, p) ∧ Packet.fence p = false
        ∧ cmdEpochQuery.refuse (Tst.dev.fetch p) (cmdEpochQuery.entry Tst.dev p) = some (.denied, []))
    ∧ (let p := Tst.pk [(16, 2, 5)]
      commandOf (.keyBindSet p) = some (cmdKeyBindSet, p) ∧ Packet.fence p = false ∧ Packet.dry p = false
        ∧ cmdKeyBindSet.refuse (Tst.devDrain.fetch p) (cmdKeyBindSet.entry Tst.devDrain p) = some (.abandoned, [])) :=
  ⟨⟨rfl, by decide +kernel⟩, ⟨rfl, rfl, by decide +kernel⟩, rfl, rfl, rfl, by decide +kernel⟩

theorem wit_UnprivilegedSendersChangeNothing :
    (Tst.dev.sys.inReset = false ∧ Tst.dev.sys.fatal = false ∧ { Tst.pk [] with domain := 15#8 }.domain.toNat ≠ 0)
    ∧ (Dev.reset.sys.inReset = false ∧ Dev.reset.sys.fatal = false ∧ Dev.reset.sys.boot ≠ 3
      ∧ cmdTimeSet.op ∉ [0x0101, 0x0102, 0x0103, 0x0104, 0x0105, 0x0111])
    ∧ ((15#8 : BitVec 8).toNat = 15 ∧ cmdBootStatus.op ∉ [0x0101, 0x0102])
    ∧ (Tst.dev.sys.boot = 3 ∧ cmdTimeSet.tenant.isNone = true) := by
  refine ⟨?_, ?_, ?_, ?_⟩ <;> decide +kernel

theorem wit_DryCommandsChangeNothing :
    let p := { Tst.pk [] with flags := 4#8 }
    commandOf (.versionOpen p) = some (cmdVersionOpen, p) ∧ Packet.dry p = true ∧ Packet.fence p = false ∧ cmdVersionOpen.read = false
      ∧ cmdVersionOpen.op ≠ 0x0202 :=
  ⟨rfl, by decide, by decide, rfl, by decide⟩

theorem wit_CommandsWaitForBeaconAndFence :
    (let p := { Tst.pk [] with flags := 2#8, beacon := 511#32 };
      let d := { Tst.dev with time := { beacons := [(511, { state := .set, instant := 10000000 })] } }
      commandOf (.dumpStart p) = some (cmdDumpStart, p) ∧ Packet.atBeacon p = true ∧ Packet.dry p = false ∧ cmdDumpStart.op ≠ 0x0202
        ∧ cmdDumpStart.refuse ({ d with health := { dumps := [(0, { period := 0, bufA := 0, bufB := 4096, ranges := [(0, 1)] })] } }.fetch p)
          (cmdDumpStart.entry d p) = none)
    ∧ (let p := { Tst.pk [] with flags := 1#8 }
      Packet.fence p = true ∧ ∃ x ∈ (Tst.run [Tst.exec 0x0109 7 (Tst.pk [])] Tst.dev).execs, x.dom = p.ring ∧ x.seq < 8 ∧ x.replied = false) :=
  ⟨⟨rfl, by decide, by decide, by decide, by decide +kernel⟩, by decide, by decide⟩

theorem wit_PinsFollowTheirRules :
    State.pinsHold { dev := Tst.dev.settle, pending := [] }
    ∧ ({ Tst.dev with sys := { Tst.dev.sys with dark := true } } : Dev).settle.sys.inReset = false
    ∧ ({ Tst.dev with sys := { Tst.dev.sys with inReset := true } } : Dev).settle.sys.inReset = true :=
  ⟨rfl, rfl, rfl⟩

theorem wit_ResetHoldsTheDevice :
    (∃ s : State, s.dev.sys.inReset = true) ∧ (∀ ns, Instr.frameInstant ≠ .resetAssert ns) ∧ (∀ id sel, Instr.frameInstant ≠ .resetRelease id sel)
    ∧ (∃ s : State, s.dev.sys.fatal = true) ∧ commandOf (.epochQuery (Tst.pk [])) ≠ none :=
  ⟨⟨{ Tst.st with dev := { Tst.dev with sys := { inReset := true } } }, rfl⟩, by simp, by simp,
    ⟨{ Tst.st with dev := { Tst.dev with sys := { fatal := true } } }, rfl⟩, by simp [commandOf]⟩

/-- An image of 64 bytes, in the flash and its CRC. -/
def Tst.image : Bytes := List.replicate 64 7#8

theorem wit_ResetAndRelease :
    (1000 ≤ 1000 ∧ 999 < 1000 ∧ 699 < 700)
    ∧ (({ Dev.reset with sys := { boot := 1 } } : Dev).sys.inReset = false ∧ ({ Dev.reset with sys := { boot := 1 } } : Dev).sys.boot = 1
      ∧ ({ Dev.reset with sys := { boot := 1 } } : Dev).sys.fwStarted = false)
    ∧ (Dev.reset.sys.inReset = false ∧ Dev.reset.sys.boot ≠ 1)
    ∧ ({ Dev.reset with sys := { inReset := true } } : Dev).sys.inReset = true := by
  refine ⟨?_, ?_, ?_, ?_⟩ <;> decide +kernel

theorem wit_BootStatusReports :
    Tst.ok cmdBootStatus Tst.dev (Tst.pk []) = true
    ∧ ((slice Tst.image 0 63).length = 63 ∧ 63 < 64 ∧ crc32c (slice Tst.image 0 64) ≠ 0#32)
    ∧ (Dev.reset.sys.inReset = false ∧ ({ Dev.reset with sys := { starting := some none } } : Dev).sys.starting ≠ none)
    ∧ (3#8 &&& 0xFC#8 = 0#8 ∧ 4#8 &&& 0xFC#8 ≠ 0#8) := by
  refine ⟨?_, ?_, ?_, ?_⟩ <;> decide +kernel

theorem wit_IdentityReadAnswersInAnyState :
    let p := { Tst.pk [] with ring := 15, domain := 15#8 }
    Dev.reset.sys.inReset = false ∧ Dev.reset.sys.fatal = false ∧ p.ring ≤ 15 ∧ Packet.fence p = false ∧ Packet.atBeacon p = false
      ∧ Packet.dry p = false ∧ p.domain.toNat = p.ring ∧ p.tver = 0#32 ∧ entryForm p false false = true ∧ Packet.indirect p = false
      ∧ allZero (Packet.bytes p) = true := by
  intro p; decide +kernel

theorem wit_RateIsSetInRoles2And4 :
    (let p := Tst.pk [(16, 4, 1759218604)];
      signed 32 (ent (Packet.bytes p) 16 4) = 1759218604 ∧ Tst.dev.sys.boot = 3 ∧ entryForm p false false = true ∧ Packet.indirect p = false
        ∧ zeros 0 (Packet.bytes p) [(20, 63)] = true ∧ ({ Tst.dev with time := { role := 2 } } : Dev).time.role = 2
        ∧ Tst.dev.time.role ≠ 2 ∧ Tst.dev.time.role ≠ 4)
    ∧ 1759218604 < signed 32 (ent (Packet.bytes (Tst.pk [(16, 4, 1759218605)])) 16 4)
    ∧ signed 32 (ent (Packet.bytes (Tst.pk [(16, 4, 2 ^ 32 - 1759218605)])) 16 4) < -1759218604 := by
  refine ⟨?_, ?_, ?_⟩ <;> decide +kernel

theorem wit_SealedFramesAreNotReplayed :
    let k : KeySlot := { invUp := some 100, seen := [100] };
    (∀ top, k.invUp = some top → k.seen.contains top = true) ∧ k.fresh 100 = false ∧ k.fresh 35 = false ∧ k.fresh 36 = true ∧ 100 < 101
      ∧ 35 + 64 < 100 := by
  refine ⟨?_, ?_⟩
  · intro top h; cases h; rfl
  · decide

theorem wit_TimeBaseRunsWithoutJumps :
    -1759218604 ≤ ({ rate := 1759218604 } : Time).rate ∧ ({ rate := 1759218604 } : Time).rate ≤ 1759218604
      ∧ -1759218604 ≤ ({ rate := -1759218604 } : Time).rate := by decide

/-! ### Ill-formed terms -/

theorem test_wellFormed_refuses_functions : (Instr.ringEnable 16 0#4).wellFormed = false ∧ (Instr.heartbeatPageWrite 16).wellFormed = false := by decide
theorem test_wellFormed_refuses_entries : (Instr.commandFetch (some [0#8]) none).wellFormed = false := by decide
theorem test_wellFormed_refuses_packets : (Instr.epochQuery { Tst.pk [] with param := [] }).wellFormed = false
    ∧ (Instr.epochQuery { Tst.pk [] with ring := 16 }).wellFormed = false ∧ (Instr.clsSearch { Tst.pb [1#8] with plen := 2#16 }).wellFormed = false := by
  decide +kernel
theorem test_wellFormed_refuses_slots : (Instr.versionRetire 4).wellFormed = false ∧ (Instr.retirementLimitExpiry 4).wellFormed = false := by decide
theorem test_wellFormed_refuses_beacons : (Instr.beaconFire 512).wellFormed = false ∧ (Instr.pulseEnd 8).wellFormed = false := by decide
theorem test_wellFormed_refuses_drains : (Instr.drainEnd (.domain 0)).wellFormed = false ∧ (Instr.drainEnd (.channel 192)).wellFormed = false
    ∧ (Instr.drainEnd (.terminal 24576)).wellFormed = false ∧ (Instr.drainEnd (.flow 65536)).wellFormed = false
    ∧ (Instr.drainEnd (.rxRing 64)).wellFormed = false ∧ (Instr.drainEnd (.txRing 64)).wellFormed = false
    ∧ (Instr.drainEnd (.port 96)).wellFormed = false := by decide
theorem test_wellFormed_refuses_trees : (Instr.treeLosAssert 48).wellFormed = false ∧ (Instr.downstreamSelect 192).wellFormed = false
    ∧ (Instr.lossOfBurst 24576).wellFormed = false ∧ (Instr.allocDeleteComplete 65536).wellFormed = false := by decide
theorem test_wellFormed_refuses_masters : (Instr.moduleBusTimeout 16).wellFormed = false := by decide
theorem test_wellFormed_refuses_discovery :
    (Instr.discoveryBurst { Tst.vD_drx with chan := 192 }).wellFormed = false
    ∧ (Instr.discoveryBurst { Tst.vD_drx with serial := 2 ^ 64 }).wellFormed = false
    ∧ (Instr.discoveryBurst { Tst.vD_drx with randDelay := 48001 }).wellFormed = false := by decide
theorem test_wellFormed_refuses_ranging : (Instr.rangingBurst { Tst.vD_rrx with regId := [] }).wellFormed = false
    ∧ (Instr.rangingBurst { Tst.vD_rrx with delim := some (2 ^ 64) }).wellFormed = false := by decide
theorem test_wellFormed_refuses_bursts : (Instr.burstReceive { Tst.vD_brx [] with corrected := 1 }).wellFormed = false := by decide
theorem test_wellFormed_refuses_lanes : (Instr.linkUp 96 []).wellFormed = false ∧ (Instr.pipelinePass 8 1).wellFormed = false
    ∧ (Instr.brynlinkIdentity 0 8 0#64).wellFormed = false := by decide
theorem test_wellFormed_refuses_rings : (Instr.hostRxWrite 64 0 []).wellFormed = false ∧ (Instr.hostRxWrite 0 0 [⟨2 ^ 64, 1⟩]).wellFormed = false
    ∧ (Instr.txRingPoll 0 0 [⟨2, 0#8, [0#8]⟩]).wellFormed = false := by decide
theorem test_wellFormed_refuses_egresses : (Instr.gateListStart 2 0).wellFormed = false ∧ (Instr.linkDownHoldExpiry 1 96).wellFormed = false := by decide
theorem test_wellFormed_refuses_keys : (Instr.keySwitchApply 50688).wellFormed = false ∧ (Instr.learnHoldExpiry 0 (2 ^ 48)).wellFormed = false := by decide
theorem test_wellFormed_refuses_edges : (Instr.teInEdge 8 true 0).wellFormed = false ∧ (Instr.teInEdge 0 true (2 ^ 32)).wellFormed = false
    ∧ (Instr.ppsInEdge true (2 ^ 32) 0 0 true).wellFormed = false := by decide
theorem test_wellFormed_refuses_time : (Instr.timeWord { Tst.vK_tw none with master := 8 }).wellFormed = false
    ∧ (Instr.timeSourceLoss (.path 96) 0).wellFormed = false ∧ (Instr.esmcPdu 0 16).wellFormed = false := by decide
theorem test_wellFormed_refuses_heritage : (Instr.heritageFrameReceive { Tst.vM_hx true with lane := 32 }).wellFormed = false
    ∧ (Instr.heritageDefectClear 0 15).wellFormed = false := by decide
theorem test_wellFormed_refuses_mirror : (Instr.mirrorRecordReceive { Tst.vM_mr with slot := 4 }).wellFormed = false
    ∧ (Instr.mirrorRecordReceive { Tst.vM_mr with part := 5 }).wellFormed = false
    ∧ (Instr.mirrorRecordReceive { Tst.vM_mr with linksUp := [192] }).wellFormed = false := by decide
theorem test_wellFormed_refuses_sets : (Instr.dumpInstant 16).wellFormed = false ∧ (Instr.laneTrainComplete 0 [] 0#32 0 3).wellFormed = false
    ∧ (Instr.eyeScanComplete 5 0 [] false).wellFormed = false := by decide

/-! ### Worked examples of spec/ -/

/-- 00, 16: channel 12.3 is channel 51; its stomped-frame counter is 3,266, and terminal 3,100's missing-burst counter is 115,136. -/
theorem test_counters : 64 * (4 * 12 + 3) + 2 = 3266 ∧ ctrTerm 3100 0 = 115136 := by decide

/-- 01: channel 40.2 and uplink lane 77 enter pipeline 6. -/
theorem test_pipelines : pipeOf 162 = 6 ∧ pipeOf (0x4000 + 77) = 6 := by decide

/-- 04: in 10G mode with DMAX 20,000, RTD_max is 232,000 ns and T_eq 2,309,161 bits. -/
theorem test_teq : teqBits Tst.objs 0 = 2309161 ∧ rtdMax10 (discCfg Tst.objs 0) = 2320000 := by decide +kernel

/-- 04: an RTD of 155,540 ns gives EqD 761,028 bits. -/
theorem test_eqd : roundDiv ((teqBits Tst.objs 0 * 100000 : Nat) - (155540 * 995328 : Nat) : Int) 100000 = 761028 := by decide +kernel

/-- 10: a bucket of 3,000 bytes after frames of 1,500 and 9,000 bytes with OVERHEAD 8 holds −7,516 bytes; 100 µs at 100,000 kb/s add 1,250. -/
theorem test_bucket :
    let b := (({ used := true, level := 3000 * 1024 } : Bucket).charge 1500 8).charge 9000 8
    b.level = -7516 * 1024 ∧ (b.fill 100000 3000 100000).level = -6266 * 1024 := by decide

/-- 12: RATE 87,960,930 advances T by 1,000,004,999 ns and a fraction over 10^9 counts. -/
theorem test_rate : ({ rate := 87960930 } : Time).raw 1000000000 / 2 ^ 32 = 1000004999 := by decide

/-- 12 R287: CTIME 0x0000_0100 lies 512 ns after 0xFFFF_FF00. -/
theorem test_wrapped_times : sdiff 32 0x100 0xFFFFFF00 = 512 := by decide

/-- 14: DEV_ID 1 with APRIO 200, HEALTH 0xF308 and transmitting claims 0xC8F3_0881. -/
theorem test_claim :
    ({ Tst.dev with sys := { devId := 1#3 }, prot := { prio := 200, health := 0xF308, transmitting := true } } : Dev).claim = 0xC8F30881 := by decide

/-- 18 Table 18-6, 02 R68: after reset every TREE_TXDIS is asserted and no uplink lane is active. -/
theorem test_reset_pins : State.reset.dev.pins.txDis = List.range 48 ∧ State.reset.dev.pins.utxActive = [] := by decide +kernel

/-- An outcome is a next state with a property. -/
def Tst.next (o : Host.Outcome State Fault Refusal) (f : State → Bool) : Bool := match o with
  | .next t => f t
  | _ => false

/-- A command whose DOMAIN is another's answers once and changes no version. -/
theorem test_denied : Tst.next (exec (.epochQuery { Tst.pk [] with domain := 1#8 }) Tst.st)
    (fun t => decide (t.dev.out.length = 1) && decide (t.dev.vers = Tst.dev.vers)) = true := by decide +kernel

/-- The front command runs and leaves the queue. -/
theorem test_step : Tst.next (step { Tst.st with pending := [.ageingScan, .frameInstant] })
    (fun t => decide (t.pending = [.frameInstant]) && decide (t.dev.freeCount = 1)) = true := by decide +kernel

/-- No word spells a command: the table gives its rows no bits. -/
theorem test_no_words : Sys2Proof.decodeTableWord 32 0 = none := rfl

end
end

section
/-!
SUPPORT. The BAR0 registers of a function (02 R31 to R35): what a write of each does, and how the reads lay their fields out.
-/
namespace Sys2Proof.Machine

/-! ### Register writes out of reset -/

section
variable (s : State) (h : s.dev.sys.inReset = false)
include h

theorem exec_ringEnable (fn : Nat) (log2 : BitVec 4) :
    exec (.ringEnable fn log2) s = .next { s with dev := (ringEnable fn log2 s.dev).settle } := live_running _ s h

theorem exec_ringCtrlDisable (fn : Nat) (log2 : BitVec 4) :
    exec (.ringCtrlDisable fn log2) s = .next { s with dev := (ringCtrlDisable fn log2 s.dev).settle } := live_running _ s h

theorem exec_cmdProducerDoorbell (fn : Nat) (v : Word) :
    exec (.cmdProducerDoorbell fn v) s = .next { s with dev := (doorbell fn v s.dev).settle } := live_running _ s h

theorem exec_registerWrite (fn offset size : Nat) (v : Word) :
    exec (.registerWrite fn offset size v) s = .next { s with dev := (registerWrite fn offset size v s.dev).settle } := live_running _ s h

end

/-! ### The checks of RING_CTRL -/

theorem Dev.ringQuiet_iff (d : Dev) (fn : Nat) : d.ringQuiet fn = true ↔ (d.dom fn).enable = false ∧ d.inExec fn = 0 := by
  simp only [Dev.ringQuiet, Dev.idle, Bool.and_eq_true, Bool.not_eq_true', beq_iff_eq]

/-- LOG2_ENTRIES has four bits, so that only its lower limit can fail. -/
theorem Dom.enableError_eq (m : Dom) (log2 : BitVec 4) :
    m.enableError log2 = if log2.toNat < 6 then 1#4
      else if m.cmdBaseLo.toNat % 4096 ≠ 0 ∨ m.replyBaseLo.toNat % 4096 ≠ 0 then 2#4 else 0#4 := by
  have hlog : within log2.toNat 6 15 = false ↔ log2.toNat < 6 := by
    simp only [within, Bool.and_eq_false_iff, decide_eq_false_iff_not]
    omega
  simp only [Dom.enableError, Bool.not_eq_true', hlog]

/-- A ring error's count with the ceiling of its eight bits written out (02 R33). -/
theorem Dom.ringError_eq (m : Dom) (code : BitVec 4) : m.ringError code = { m with err := code, errCount := min 255 (m.errCount + 1) } :=
  congrArg (fun n => { m with err := code, errCount := n }) (Nat.min_comm _ _)

/-- Only what a change makes of the domain's present state counts. -/
theorem Dev.setDom_congr (d : Dev) (n : Nat) (f g : Dom → Dom) (h : f (d.dom n) = g (d.dom n)) : d.setDom n f = d.setDom n g := by
  simp only [Dev.setDom, h]

/-! ### What the writes do -/

section
variable (d : Dev) (fn : Nat)

/-- Without effect in a disabled domain, on an enabled ring and while a command is in execution (02 R32, R52). -/
theorem ringEnable_ignored (log2 : BitVec 4) (h : (d.dom fn).disabled = true ∨ (d.dom fn).enable = true ∨ d.inExec fn ≠ 0) :
    ringEnable fn log2 d = d := by
  have hbusy : (d.dom fn).disabled = true ∨ (!d.ringQuiet fn) = true := by
    refine h.imp_right fun hring => ?_
    rw [Bool.not_eq_true', Bool.eq_false_iff, ne_eq, Dev.ringQuiet_iff]
    rintro ⟨he, hx⟩
    rcases hring with hon | hexec
    · exact Bool.eq_false_iff.1 he hon
    · exact hexec hx
  exact if_pos (.inr hbusy)

/-- An enable that is not ignored starts an empty ring, or records the error that its checks found (02 R32, R33). -/
theorem ringEnable_checked (log2 : BitVec 4) (hfn : fn ≤ 15) (hd : (d.dom fn).disabled = false) (he : (d.dom fn).enable = false)
    (hx : d.inExec fn = 0) :
    ringEnable fn log2 d =
      if (d.dom fn).enableError log2 = 0#4 then d.setDom fn fun m => { m with
        log2, enable := true, active := true, producer := 0#16, consumer := 0#16, replyIdx := 0#16, err := 0#4, errCount := 0 }
      else d.setDom fn fun m => { m with log2, err := (d.dom fn).enableError log2, errCount := min 255 (m.errCount + 1) } := by
  have hserved : ¬ (15 < fn ∨ (d.dom fn).disabled = true ∨ (!d.ringQuiet fn) = true) := by
    have hq : d.ringQuiet fn = true := (d.ringQuiet_iff fn).2 ⟨he, hx⟩
    simp only [hd, hq, Bool.not_true, Bool.false_eq_true, or_false]
    omega
  simp only [ringEnable, if_neg hserved, Dom.ringError_eq]
  split <;> rfl

theorem ringCtrlDisable_eq (log2 : BitVec 4) (hfn : fn ≤ 15) :
    ringCtrlDisable fn log2 d = d.setDom fn fun m => { m with
      enable := false, active := false, log2 := if (d.dom fn).enable = false ∧ d.inExec fn = 0 then log2 else m.log2 } := by
  simp only [ringCtrlDisable, if_neg (Nat.not_lt.2 hfn), Dev.ringQuiet_iff]

theorem doorbell_ignored (v : Word) (h : (d.dom fn).disabled = true) : doorbell fn v d = d := if_pos (.inr h)

/-- A doorbell outside a disabled domain: an index that passes an enabled ring is an error, any other is stored (02 R35). -/
theorem doorbell_eq (v : Word) (hfn : fn ≤ 15) (hd : (d.dom fn).disabled = false) :
    doorbell fn v d =
      if (d.dom fn).enable = true ∧ 2 ^ (d.dom fn).log2.toNat < (v.setWidth 16 - (d.dom fn).consumer).toNat then
        d.setDom fn fun m => { m with err := 4#4, errCount := min 255 (m.errCount + 1) }
      else d.setDom fn fun m => { m with producer := v.setWidth 16 } := by
  have hserved : ¬ (15 < fn ∨ (d.dom fn).disabled = true) := by
    simp only [hd, Bool.false_eq_true, or_false]
    omega
  simp only [doorbell, if_neg hserved]
  split
  · next hpasses => exact Dev.setDom_congr _ _ _ _ ((if_pos hpasses).trans (Dom.ringError_eq _ _))
  · next hfits => exact Dev.setDom_congr _ _ _ _ (if_neg hfits)

/-- A write of a whole word to one of the 16 functions is not turned away by its size or its function. -/
theorem word_served (hfn : fn ≤ 15) : ¬ (4 ≠ 4 ∨ 15 < fn) := by omega

theorem registerWrite_ringCtrl (v : Word) (hfn : fn ≤ 15) :
    registerWrite fn 0x1010 4 v d = if v.getLsbD 31 then ringEnable fn (v.setWidth 4) d else ringCtrlDisable fn (v.setWidth 4) d :=
  (if_neg (word_served fn hfn)).trans (if_pos rfl)

theorem registerWrite_cmdProducer (v : Word) (hfn : fn ≤ 15) : registerWrite fn 0x1014 4 v d = doorbell fn v d :=
  (if_neg (word_served fn hfn)).trans ((if_neg (by decide)).trans (if_pos rfl))

/-- The base registers may change while ENABLE reads 0 and IDLE reads 1. -/
theorem registerWrite_base (v : Word) (hfn : fn ≤ 15) (he : (d.dom fn).enable = false) (hx : d.inExec fn = 0) :
    registerWrite fn 0x1000 4 v d = d.setDom fn (fun m => { m with cmdBaseHi := v })
    ∧ registerWrite fn 0x1004 4 v d = d.setDom fn (fun m => { m with cmdBaseLo := v })
    ∧ registerWrite fn 0x1008 4 v d = d.setDom fn (fun m => { m with replyBaseHi := v })
    ∧ registerWrite fn 0x100C 4 v d = d.setDom fn (fun m => { m with replyBaseLo := v }) := by
  have hq : ¬ (!d.ringQuiet fn) = true := by
    rw [(d.ringQuiet_iff fn).2 ⟨he, hx⟩]
    decide
  refine ⟨?_, ?_, ?_, ?_⟩
  all_goals exact (if_neg (word_served fn hfn)).trans ((if_neg (by decide)).trans ((if_neg (by decide)).trans (if_neg hq)))

/-- Any other size, offset or time: no register is written. -/
theorem registerWrite_ignored (offset size : Nat) (v : Word)
    (h : size ≠ 4 ∨ (offset ≠ 0x1010 ∧ offset ≠ 0x1014
      ∧ (¬((d.dom fn).enable = false ∧ d.inExec fn = 0) ∨ offset ∉ [0x1000, 0x1004, 0x1008, 0x100C]))) :
    registerWrite fn offset size v d = d := by
  unfold registerWrite
  rcases h with hsize | ⟨hctrl, hprod, hbusy | hoff⟩
  · rw [if_pos (.inl hsize)]
  · have hq : (!d.ringQuiet fn) = true := by
      rw [Bool.not_eq_true', Bool.eq_false_iff, ne_eq, Dev.ringQuiet_iff]
      exact hbusy
    simp only [if_neg hctrl, if_neg hprod, if_pos hq, ite_self]
  · simp only [if_neg hctrl, if_neg hprod]
    split
    · rfl
    split
    · rfl
    split
    case h_5 => rfl
    all_goals exact absurd (by decide) hoff

end

/-! ### The bits of a register -/

theorem b2n_le_one (b : Bool) : b2n b ≤ 1 := by cases b <;> decide

/-- A bit of a register that holds a flag. -/
theorem getLsbD_w32_flag (v i : Nat) (b : Bool) (hi : i < 32) (h : v / 2 ^ i % 2 = b2n b) : (w32 v).getLsbD i = b := by
  rw [w32, BitVec.getLsbD_ofNat, decide_eq_true hi, Bool.true_and, Nat.testBit_eq_decide_div_mod_eq, h]
  cases b <;> rfl

/-- A reserved bit, between a field of `n` bits at the bottom and the fields from bit `m` on, reads 0. -/
theorem getLsbD_w32_reserved (high low n m k : Nat) (hlow : low < 2 ^ n) (hn : n ≤ k) (hm : k < m) :
    (w32 (high * 2 ^ m + low)).getLsbD k = false := by
  have hlow' : low < 2 ^ k := Nat.lt_of_lt_of_le hlow (Nat.pow_le_pow_right (by decide) hn)
  have hfits : low < 2 ^ m := Nat.lt_trans hlow' (Nat.pow_lt_pow_right (by decide) hm)
  rw [w32, BitVec.getLsbD_ofNat, Nat.mul_comm, Nat.testBit_two_pow_mul_add _ hfits, if_pos hm, Nat.testBit_lt_two_pow hlow', Bool.and_false]

/-! ### What the reads return -/

section
variable (d : Dev) (fn : Nat)

/-- RING_CTRL (02 Table 2-2): ENABLE in bit 31, LOG2_ENTRIES in bits 3:0; bits 30:4 are reserved. -/
theorem Dev.registerRead_ringCtrl (k : Nat) :
    (d.registerRead fn 0x1010).getLsbD 31 = (d.dom fn).enable
    ∧ (d.registerRead fn 0x1010).setWidth 4 = (d.dom fn).log2
    ∧ (4 ≤ k → k < 31 → (d.registerRead fn 0x1010).getLsbD k = false) := by
  have hlog := (d.dom fn).log2.isLt
  have henable := b2n_le_one (d.dom fn).enable
  refine ⟨getLsbD_w32_flag _ 31 _ (by decide) ?_, BitVec.eq_of_toNat_eq ?_, getLsbD_w32_reserved (b2n (d.dom fn).enable) _ 4 31 k hlog⟩
  · simp only [Dom.ringCtrl]
    omega
  · simp only [Dev.registerRead, w32, Dom.ringCtrl, BitVec.toNat_setWidth, BitVec.toNat_ofNat]
    omega

/-- RING_STATUS (02 Table 2-3): ACTIVE in bit 31, IDLE in bit 30, ERR_COUNT in bits 11:4, ERR in bits 3:0. -/
theorem Dev.registerRead_ringStatus (hcount : (d.dom fn).errCount ≤ 255) :
    (d.registerRead fn 0x101C).getLsbD 31 = (d.dom fn).active
    ∧ (d.registerRead fn 0x101C).getLsbD 30 = (d.inExec fn == 0)
    ∧ (d.registerRead fn 0x101C).toNat / 16 % 256 = (d.dom fn).errCount
    ∧ (d.registerRead fn 0x101C).setWidth 4 = (d.dom fn).err := by
  have herr := (d.dom fn).err.isLt
  have hactive := b2n_le_one (d.dom fn).active
  have hidle := b2n_le_one (d.inExec fn == 0)
  refine ⟨getLsbD_w32_flag _ 31 _ (by decide) ?_, getLsbD_w32_flag _ 30 _ (by decide) ?_, ?_, BitVec.eq_of_toNat_eq ?_⟩
  all_goals
    simp only [Dev.registerRead, w32, Dev.ringStatus, Dev.idle, BitVec.toNat_setWidth, BitVec.toNat_ofNat]
    omega

/-- Bits 29:12 of RING_STATUS are reserved. -/
theorem Dev.registerRead_ringStatus_reserved (k : Nat) (hlo : 12 ≤ k) (hhi : k < 30) :
    (d.registerRead fn 0x101C).getLsbD k = false := by
  have herr := (d.dom fn).err.isLt
  have hfields : d.ringStatus fn = (2 * b2n (d.dom fn).active + b2n (d.inExec fn == 0)) * 2 ^ 30
      + ((d.dom fn).errCount % 256 * 16 + (d.dom fn).err.toNat) := by
    simp only [Dev.ringStatus, Dev.idle]
    omega
  show (w32 (d.ringStatus fn)).getLsbD k = false
  rw [hfields]
  exact getLsbD_w32_reserved _ _ 12 30 k (by omega) hlo hhi

theorem Dev.registerRead_unlisted (offset : Nat) (h : offset ∉ [0x0000, 0x0004, 0x0008, 0x000C, 0x0010, 0x0014, 0x1000, 0x1004, 0x1008,
    0x100C, 0x1010, 0x1014, 0x1018, 0x101C]) : d.registerRead fn offset = 0#32 := by
  unfold Dev.registerRead
  split
  case h_15 => rfl
  all_goals exact absurd (by decide) h

/-- An RW register reads what was stored last (00 R14). -/
theorem Dev.registerRead_stored (v : Word) (p : BitVec 16) :
    (d.setDom fn fun m => { m with cmdBaseHi := v }).registerRead fn 0x1000 = v
    ∧ (d.setDom fn fun m => { m with cmdBaseLo := v }).registerRead fn 0x1004 = v
    ∧ (d.setDom fn fun m => { m with replyBaseHi := v }).registerRead fn 0x1008 = v
    ∧ (d.setDom fn fun m => { m with replyBaseLo := v }).registerRead fn 0x100C = v
    ∧ (d.setDom fn fun m => { m with producer := p }).registerRead fn 0x1014 = p.setWidth 32 := by
  simp only [Dev.registerRead, Dev.dom_setDom, and_self]

end

/-! ### Register writes and reads together (O4) -/

/-- Settles O4: out of reset each write is its effect on the ring, and each read is the layout of its register. -/
theorem registerWritesActOnTheirRing : Obligations.RegisterWritesActOnTheirRing := by
  unfold Obligations.RegisterWritesActOnTheirRing
  refine ⟨fun fn log2 s => ?ctrl, fun fn value s => ?producer, fun fn offset size v s => ?write, fun d fn offset v k => ?read⟩
  case ctrl =>
    intro d m badLog badBase hr hfn
    rw [exec_ringEnable s hr, exec_ringCtrlDisable s hr]
    refine ⟨?starts, ?fails, ?ignored, ?disable⟩
    case starts =>
      rintro ⟨hd, he, hx, hlog, hbase⟩
      have hcode : m.enableError log2 = 0#4 := by rw [Dom.enableError_eq, if_neg hlog, if_neg hbase]
      rw [ringEnable_checked _ _ _ hfn hd he hx, if_pos hcode]
    case fails =>
      rintro ⟨hd, he, hx, hbad⟩
      have hcode : m.enableError log2 = if badLog then 1#4 else 2#4 := by
        rw [Dom.enableError_eq]
        split
        · rfl
        · next hlog => exact if_pos (hbad.resolve_left hlog)
      have hne : (if badLog then 1#4 else 2#4) ≠ 0#4 := by split <;> decide
      rw [ringEnable_checked _ _ _ hfn hd he hx, hcode, if_neg hne]
    case ignored =>
      intro hi
      rw [ringEnable_ignored _ _ _ hi]
    case disable =>
      rw [ringCtrlDisable_eq _ _ _ hfn]
  case producer =>
    intro d m v hr hfn
    rw [exec_cmdProducerDoorbell s hr]
    refine ⟨?ignored, ?passes, ?stored⟩
    case ignored =>
      intro hd
      rw [doorbell_ignored _ _ _ hd]
    case passes =>
      rintro ⟨hd, hpasses⟩
      rw [doorbell_eq _ _ _ hfn hd, if_pos hpasses]
    case stored =>
      rintro ⟨hd, hfits⟩
      rw [doorbell_eq _ _ _ hfn hd, if_neg]
      rintro ⟨he, hpasses⟩
      rcases hfits with hoff | hroom
      · exact absurd he (Bool.eq_false_iff.1 hoff)
      · exact Nat.not_lt.2 hroom hpasses
  case write =>
    intro d quiet hr hfn
    simp only [exec_registerWrite s hr, exec_ringEnable s hr, exec_ringCtrlDisable s hr, exec_cmdProducerDoorbell s hr]
    refine ⟨?base, ?ringCtrl, ?cmdProducer, ?ignored⟩
    case base =>
      rintro ⟨he, hx⟩
      obtain ⟨h0, h4, h8, hc⟩ := registerWrite_base d fn v hfn he hx
      exact ⟨by rw [h0], by rw [h4], by rw [h8], by rw [hc]⟩
    case ringCtrl =>
      rw [registerWrite_ringCtrl _ _ _ hfn]
      split <;> rfl
    case cmdProducer =>
      rw [registerWrite_cmdProducer _ _ _ hfn]
    case ignored =>
      intro hi
      rw [registerWrite_ignored _ _ _ _ _ hi]
  case read =>
    exact ⟨Dev.registerRead_stored d fn v _, Dev.registerRead_ringCtrl d fn k, Dev.registerRead_ringStatus d fn,
      Dev.registerRead_ringStatus_reserved d fn k, rfl, Dev.registerRead_unlisted d fn offset⟩

end Sys2Proof.Machine
end

section
/-!
SUPPORT. The stable sort by a key: what it holds, and that its head has the least key.
-/
namespace Sys2Proof.Machine

section
variable {α : Type} (key : α → Nat)

theorem mem_insertBy (x y : α) (l : List α) : y ∈ insertBy key x l ↔ y = x ∨ y ∈ l := by
  induction l with
  | nil => simp [insertBy]
  | cons z t ih =>
    rw [insertBy]
    split
    · exact List.mem_cons
    · rw [List.mem_cons, ih, List.mem_cons, or_left_comm]

/-- Inserting keeps a list sorted. -/
theorem insertBy_pairwise (x : α) (l : List α) (h : l.Pairwise fun a b => key a ≤ key b) :
    (insertBy key x l).Pairwise fun a b => key a ≤ key b := by
  induction l with
  | nil => exact List.pairwise_singleton _ _
  | cons z t ih =>
    obtain ⟨hz, ht⟩ := List.pairwise_cons.1 h
    rw [insertBy]
    split
    · next hlt =>
      refine List.pairwise_cons.2 ⟨fun y hy => ?_, h⟩
      rcases List.mem_cons.1 hy with rfl | hy
      · exact Nat.le_of_lt hlt
      · exact Nat.le_trans (Nat.le_of_lt hlt) (hz y hy)
    · next hge =>
      refine List.pairwise_cons.2 ⟨fun y hy => ?_, ih ht⟩
      rcases (mem_insertBy key x y t).1 hy with rfl | hy
      · exact Nat.not_lt.1 hge
      · exact hz y hy

theorem mem_foldl_insertBy (y : α) (l acc : List α) : y ∈ l.foldl (fun acc x => insertBy key x acc) acc ↔ y ∈ l ∨ y ∈ acc := by
  induction l generalizing acc with
  | nil => simp
  | cons x t ih => rw [List.foldl_cons, ih, mem_insertBy, List.mem_cons, or_assoc, or_left_comm]

theorem foldl_insertBy_pairwise (l acc : List α) (h : acc.Pairwise fun a b => key a ≤ key b) :
    (l.foldl (fun acc x => insertBy key x acc) acc).Pairwise fun a b => key a ≤ key b := by
  induction l generalizing acc with
  | nil => exact h
  | cons x t ih => exact ih _ (insertBy_pairwise key x acc h)

theorem mem_sortBy (y : α) (l : List α) : y ∈ sortBy key l ↔ y ∈ l :=
  (mem_foldl_insertBy key y l []).trans (or_iff_left List.not_mem_nil)

theorem sortBy_eq_nil_iff (l : List α) : sortBy key l = [] ↔ l = [] := by
  simp only [List.eq_nil_iff_forall_not_mem, mem_sortBy]

/-- The first element of a sorted list is one of the list's, and no other has a lower key. -/
theorem head_sortBy (l : List α) (a : α) (h : (sortBy key l).head? = some a) : a ∈ l ∧ ∀ b ∈ l, key a ≤ key b := by
  obtain ⟨t, ht⟩ := List.head?_eq_some_iff.1 h
  have hsorted : (a :: t).Pairwise fun x y => key x ≤ key y := ht ▸ foldl_insertBy_pairwise key l [] .nil
  have hmem : ∀ b, b ∈ a :: t ↔ b ∈ l := fun b => ht ▸ mem_sortBy key b l
  refine ⟨(hmem a).1 List.mem_cons_self, fun b hb => ?_⟩
  rcases List.mem_cons.1 ((hmem b).2 hb) with rfl | hb
  · exact Nat.le_refl _
  · exact (List.pairwise_cons.1 hsorted).1 b hb

end

/-! ### The beacon that is due first -/

/-- A beacon is due at a limit: set, and its instant not after the limit (12 R303). -/
def beaconDue (limit : Nat) (x : Nat × Beacon) : Bool :=
  (x.2.state == .set || x.2.state == .armed) && decide (tdiff x.2.instant limit ≤ 0)

/-- The order of due beacons in one number: instant, then index (12 R304). -/
def beaconKey (limit : Nat) (x : Nat × Beacon) : Nat := (tdiff x.2.instant limit + 2 ^ 63).toNat * 512 + x.1

theorem Dev.dueBeacon_eq (d : Dev) (limit : Nat) :
    d.dueBeacon? limit = (sortBy (beaconKey limit) (d.time.beacons.filter (beaconDue limit))).head?.map Prod.fst := rfl

theorem beaconDue_iff (limit : Nat) (x : Nat × Beacon) :
    beaconDue limit x = true ↔ (x.2.state = .set ∨ x.2.state = .armed) ∧ tdiff x.2.instant limit ≤ 0 := by
  simp only [beaconDue, Bool.and_eq_true, Bool.or_eq_true, beq_iff_eq, decide_eq_true_eq]

/-- A difference of times lies in the signed 64-bit range (12 R287). -/
theorem le_tdiff (a b : Nat) : -(2 ^ 63) ≤ tdiff a b := by
  simp only [tdiff, sdiff, signed]
  split <;> omega

/-- With indices below 512, the order of the numbers is the order by instant and then by index. -/
theorem beaconKey_le (limit : Nat) (x y : Nat × Beacon) (hx : x.1 < 512) (hy : y.1 < 512) (h : beaconKey limit x ≤ beaconKey limit y) :
    tdiff x.2.instant limit < tdiff y.2.instant limit ∨ (tdiff x.2.instant limit = tdiff y.2.instant limit ∧ x.1 ≤ y.1) := by
  have hlx := le_tdiff x.2.instant limit
  have hly := le_tdiff y.2.instant limit
  simp only [beaconKey] at h
  omega

theorem Dev.dueBeacon_eq_none_iff (d : Dev) (limit : Nat) : d.dueBeacon? limit = none ↔ ∀ x ∈ d.time.beacons, ¬beaconDue limit x = true := by
  rw [Dev.dueBeacon_eq, Option.map_eq_none_iff, List.head?_eq_none_iff, sortBy_eq_nil_iff, List.filter_eq_nil_iff]

/-- The beacon that is due first has the least number of all that are due. -/
theorem Dev.dueBeacon_least (d : Dev) (limit b : Nat) (h : d.dueBeacon? limit = some b) :
    ∃ x ∈ d.time.beacons, x.1 = b ∧ beaconDue limit x = true
      ∧ ∀ y ∈ d.time.beacons, beaconDue limit y = true → beaconKey limit x ≤ beaconKey limit y := by
  rw [Dev.dueBeacon_eq] at h
  obtain ⟨x, hhead, hb⟩ := Option.map_eq_some_iff.1 h
  obtain ⟨hx, hleast⟩ := head_sortBy _ _ _ hhead
  obtain ⟨hmem, hdue⟩ := List.mem_filter.1 hx
  exact ⟨x, hmem, hb, hdue, fun y hy hydue => hleast y (List.mem_filter.2 ⟨hy, hydue⟩)⟩

/-! ### The frame instant (O8) -/

theorem exec_frameInstant (s : State) (h : s.dev.sys.inReset = false) :
    exec .frameInstant s = .next { s with dev := (frameInstant s.dev).settle } := live_running _ s h

/-- Settles O8: the event is its steps in the order in which the statement writes them, and the beacon fired first is the head of a
list sorted by instant and index. -/
theorem frameInstantTakesTheOrderOfR28 : Obligations.FrameInstantTakesTheOrderOfR28 := by
  unfold Obligations.FrameInstantTakesTheOrderOfR28
  refine ⟨fun s => exec_frameInstant s, ?due⟩
  intro d limit b due hidx
  refine ⟨?none, fun hb => ?first⟩
  case none => simp only [Dev.dueBeacon_eq_none_iff, beaconDue_iff, due]
  case first =>
    obtain ⟨x, hx, rfl, hdue, hleast⟩ := d.dueBeacon_least limit b hb
    refine ⟨x, hx, rfl, (beaconDue_iff _ _).1 hdue, fun y hy hydue => ?_⟩
    exact beaconKey_le limit x y (hidx x hx) (hidx y hy) (hleast y hy ((beaconDue_iff _ _).2 hydue))

end Sys2Proof.Machine
end

section
/-!
SUPPORT. Operations that leave the time base as it is: what frames, links and channels do to it, and the commands that end early.
-/
namespace Sys2Proof.Machine

/-- A reading that each step of a fold keeps is kept by the whole fold. -/
theorem foldl_keeps {α β γ : Type} (g : β → γ) (f : β → α → β) (h : ∀ b a, g (f b a) = g b) (l : List α) (b : β) :
    g (l.foldl f b) = g b := by
  induction l generalizing b with
  | nil => rfl
  | cons a l ih => rw [List.foldl_cons, ih, h]

variable (d : Dev)

/-! ### Segments and counters -/

@[simp] theorem Dev.countBy_time (a n : Nat) : (d.countBy a n).time = d.time := by rw [Dev.countBy_frame]
@[simp] theorem Dev.count_time (a : Nat) : (d.count a).time = d.time := d.countBy_time a 1

@[simp] theorem Dev.flowCount_time (f off n : Nat) : (d.flowCount f off n).time = d.time := by
  unfold Dev.flowCount
  split
  · split
    · exact d.countBy_time _ _
    · rfl
  · rfl

@[simp] theorem Dev.rejectFree_time (owner : Byte) (index kind : Nat) : (d.rejectFree owner index kind).time = d.time :=
  Dev.count_time _ _

@[simp] theorem Dev.freeSeg_time (owner : Byte) (a : Nat) : (d.freeSeg owner a).time = d.time := by
  unfold Dev.freeSeg
  split
  · rfl
  · split
    · dsimp only
      split <;> rfl
    · exact d.rejectFree_time _ _ _

@[simp] theorem Dev.freeFrame_time (f : Frame) : (d.freeFrame f).time = d.time := foldl_keeps Dev.time _ (fun e i => e.freeSeg_time _ i) _ d
@[simp] theorem Dev.freeFrames_time (fs : List Frame) : (d.freeFrames fs).time = d.time := foldl_keeps Dev.time _ Dev.freeFrame_time fs d
@[simp] theorem Dev.discardFlows_time (p : Nat → Bool) : (d.discardFlows p).1.time = d.time := d.freeFrames_time _

@[simp] theorem Dev.flowLoss_time (x : Frame) (f off : Nat) : (d.flowLoss x f off).time = d.time :=
  ((d.freeFrame x).flowCount_time f off 1).trans (d.freeFrame_time x)

@[simp] theorem Dev.loseFrames_time (off : Nat) (fs : List Frame) : (d.loseFrames off fs).time = d.time :=
  foldl_keeps Dev.time _ (fun e x => e.flowLoss_time x x.flow off) fs d

/-! ### Links of channels and lanes of ports -/

@[simp] theorem Dev.ploam_time (g kind onu : Nat) (fields : List Nat) : (d.ploam g kind onu fields).time = d.time := by
  unfold Dev.ploam
  split
  · rfl
  · dsimp only
    split <;> rfl

@[simp] theorem Dev.lockLanes_time (q : Group) (on : Bool) : (d.lockLanes q on).time = d.time :=
  foldl_keeps Dev.time _ (fun e i => e.setLane_time 1 (q.lane + i) _) (List.range q.width) d

@[simp] theorem Dev.dropLantern_time (g : Nat) : (d.dropLantern g).time = d.time := d.loseFrames_time 9 _

@[simp] theorem Dev.flushChan_time (g : Nat) : (d.flushChan g).time = d.time := by
  unfold Dev.flushChan
  simp only [Dev.setChan_time]
  generalize hlost : List.foldl _ d (d.flowsOn g) = e
  have hflows : e.time = d.time := by
    rw [← hlost]
    refine foldl_keeps Dev.time _ (fun e h => ?_) _ d
    split
    · split
      · exact e.loseFrames_time 7 _
      · rfl
    · rfl
  split
  · exact (Dev.flowLoss_time _ _ _ _).trans hflows
  · exact hflows

@[simp] theorem Dev.chanDown_time (g : Nat) : (d.chanDown g).time = d.time := by
  unfold Dev.chanDown
  dsimp only
  split
  · exact d.dropLantern_time g
  · split
    · exact (Dev.flushChan_time _ g).trans (d.dropLantern_time g)
    · exact d.dropLantern_time g

@[simp] theorem Dev.relinkChan_time (g : Nat) : (d.relinkChan g).time = d.time := by
  unfold Dev.relinkChan
  dsimp only
  split
  · split
    · exact d.dropLantern_time g
    · split <;> rfl
  · split
    · exact d.chanDown_time g
    · split <;> rfl

@[simp] theorem Dev.relink_time : d.relink.time = d.time := foldl_keeps Dev.time _ Dev.relinkChan_time (List.range 192) d

@[simp] theorem Dev.endDisabled_time (g : Nat) : (d.endDisabled g).time = d.time := by
  unfold Dev.endDisabled
  split <;> rfl

/-! ### Commands that end early: beacons and steps that wait change, the reading of the time base does not -/

/-- The reading of the time base depends on the time base alone. -/
theorem Dev.now_congr (e : Dev) (h : e.time = d.time) : e.now = d.now := by
  unfold Dev.now Dev.raw
  rw [h]

theorem Dev.rearm_now (b : Nat) : (d.rearm b).now = d.now := by
  unfold Dev.rearm
  dsimp only
  split <;> rfl

theorem Dev.dropWork_now (e : Exec) : (d.dropWork e).now = d.now := by
  unfold Dev.dropWork
  dsimp only
  split
  case h_1 =>
    split
    · rfl
    · split <;> rfl
  all_goals rfl

theorem Dev.endEarly_now (e : Exec) (st : Status) : (d.endEarly e st).now = d.now := by
  unfold Dev.endEarly
  dsimp only
  split
  · exact (Dev.rearm_now _ _).trans (d.dropWork_now e)
  · exact d.dropWork_now e

theorem Dev.endAll_now (p : Exec → Bool) (st : Status) : (d.endAll p st).now = d.now :=
  foldl_keeps Dev.now _ (fun e x => e.endEarly_now x st) (d.execs.filter p) d

theorem Dev.deactivate_now (t : Nat) (msg : Bool) (self : Option (Nat × Nat)) : (d.deactivate t msg self).1.now = d.now := by
  unfold Dev.deactivate
  split
  · rfl
  · refine (Dev.endAll_now _ _ _).trans (Dev.now_congr _ _ ((Dev.discardFlows_time _ _).trans ?_))
    split
    · exact d.ploam_time _ _ _ _
    · rfl

theorem Dev.deactivateChan_now (g : Nat) (msg : Bool) (self : Option (Nat × Nat)) : (d.deactivateChan g msg self).now = d.now :=
  foldl_keeps Dev.now _ (fun e (t : Nat × Term) => e.deactivate_now t.1 msg self) _ d

/-- What an object becomes when its drain has ended takes no time. -/
theorem Dev.drainDone_now (x : Drain) : (d.drainDone x).now = d.now := by
  unfold Dev.drainDone
  split
  case h_1 g _ =>
    refine (Dev.now_congr _ _ ?_).trans (d.deactivateChan_now g true (some (x.dom, x.seq)))
    exact (Dev.relink_time _).trans (Dev.endDisabled_time _ g)
  case h_2 t _ =>
    split
    · exact Dev.now_congr _ _ (Dev.ploam_time _ _ _ _ _)
    · rfl
  case h_3 l _ =>
    refine Dev.now_congr _ _ ?_
    simp only [Dev.setPort_time]
    split
    · exact d.lockLanes_time _ _
    · rfl
  case h_4 => rfl

end Sys2Proof.Machine
end

section
/-!
SUPPORT. Beacons that fire, heartbeat pages and the ends of drains (01 R28; 12 R303 to R305; 02 R46 to R48, R71).
-/
namespace Sys2Proof.Machine

/-! ### The events out of reset -/

section
variable (s : State) (h : s.dev.sys.inReset = false)
include h

theorem exec_beaconFire (b : Nat) : exec (.beaconFire b) s = .next { s with dev := (beaconFire b s.dev).settle } := live_running _ s h

theorem exec_heartbeatPageWrite (dom : Nat) :
    exec (.heartbeatPageWrite dom) s = .next { s with dev := (heartbeatPageWrite dom s.dev).settle } := live_running _ s h

theorem exec_drainEnd (o : DrainObj) : exec (.drainEnd o) s = .next { s with dev := (drainEnd o s.dev).settle } := live_running _ s h

end

section
variable (d : Dev)

/-! ### Beacons -/

/-- The beacon has an instant at which it will fire (12 R303). -/
def Beacon.live (x : Beacon) : Prop := x.state = .set ∨ x.state = .armed

/-- What a firing does, in its order (12 R303, R305; 02 R46). -/
def Dev.fires (b : Nat) : Dev :=
  (((((d.goTime (d.beacon b).instant).pinAction b).noteFiring b).runArmed b (d.beacon b).instant).restorePrio b).rearm b

theorem Dev.fireBeacon_live (b : Nat) (h : (d.beacon b).live) : d.fireBeacon b = d.fires b := if_pos h

/-- The beacon itself is due first: it fires, and nothing else does. -/
theorem Dev.fireUntil_self (b limit k : Nat) (h : (d.beacon b).live ∧ (d.beacon b).instant = limit) (hdue : d.dueBeacon? limit = some b) :
    d.fireUntil b limit (k + 1) = d.fires b := by
  unfold Dev.fireUntil
  simp only [hdue, if_true]
  exact (if_pos h).trans (d.fireBeacon_live b h.1)

/-- Another beacon is due before it: that one fires, and the search goes on. -/
theorem Dev.fireUntil_other (a b limit k : Nat) (h : (d.beacon b).live ∧ (d.beacon b).instant = limit) (hdue : d.dueBeacon? limit = some a)
    (hne : a ≠ b) : d.fireUntil b limit (k + 1) = (d.fireBeacon a).fireUntil b limit k := by
  rw [Dev.fireUntil]
  simp only [hdue, if_neg hne]
  exact if_pos h

/-- The beacon was cleared or moved: nothing fires any more. -/
theorem Dev.fireUntil_spent (b limit k : Nat) (h : ¬((d.beacon b).live ∧ (d.beacon b).instant = limit)) :
    d.fireUntil b limit (k + 1) = d := by
  rw [Dev.fireUntil]
  exact if_neg h

theorem beaconFire_spent (b : Nat) (h : ¬(d.beacon b).live) : beaconFire b d = d := if_pos (not_or.1 h)

theorem beaconFire_live (b : Nat) (h : (d.beacon b).live) :
    beaconFire b d = Dev.fireUntil
      (if (d.beacon b).instant = (d.time.frame + 1) * frameNs then
        ((d.fireDue ((d.beacon b).instant - 1) 65536).goTime (d.beacon b).instant).frameHead (d.time.frame + 1) else d)
      b (d.beacon b).instant 65536 :=
  if_neg fun hn => h.elim hn.1 hn.2

/-- Between two frame instants a firing is what `fireUntil` does at once. -/
theorem beaconFire_between (b : Nat) (h : (d.beacon b).live) (hn : (d.beacon b).instant ≠ (d.time.frame + 1) * frameNs) :
    beaconFire b d = d.fireUntil b (d.beacon b).instant (65535 + 1) := by
  rw [beaconFire_live d b h, if_neg hn]

/-! ### Heartbeat pages -/

theorem Dev.setDom_setDom (n : Nat) (f g : Dom → Dom) : (d.setDom n f).setDom n g = d.setDom n fun m => g (f m) := by
  rw [Dev.setDom, Dev.dom_setDom, Dev.setDom, Tbl.put_put]
  rfl

theorem heartbeatPageWrite_none (dom : Nat) (h : (d.dom dom).hbAddr = 0 ∨ d.sys.fatal = true) : heartbeatPageWrite dom d = d :=
  if_pos (.inr h)

/-- A page is written when it is due, and the next one is due a period later (02 R47, R48). -/
theorem heartbeatPageWrite_due (dom : Nat) (hdom : dom ≤ 15) (haddr : (d.dom dom).hbAddr ≠ 0) (hfatal : d.sys.fatal = false) :
    heartbeatPageWrite dom d = { (d.goCounter (d.dom dom).hbDue) with
      out := d.out ++ [.hostWrite (d.dom dom).hbAddr ((d.goCounter (d.dom dom).hbDue).page dom)]
      doms := d.doms.put dom { d.dom dom with
        hbSeq := (d.dom dom).hbSeq + 1, hbRecovered := false, hbDue := (d.dom dom).hbDue + 1000 * (d.dom dom).hbPeriod }
      prot := { d.prot with hung := false } } := by
  have hwrites : ¬(15 < dom ∨ (d.dom dom).hbAddr = 0 ∨ d.sys.fatal = true) := by
    rintro (hlarge | hnone | hf)
    · exact Nat.not_lt.2 hdom hlarge
    · exact haddr hnone
    · exact Bool.eq_false_iff.1 hfatal hf
  refine (if_neg hwrites).trans ?_
  rw [Dev.writePage, Dev.setDom_setDom]
  rfl

/-! ### Drains -/

/-- The commands in execution for a drain's object, its disable apart (02 R71). -/
def Drain.mine (x : Drain) (o : DrainObj) (e : Exec) : Bool := e.isFor o && !(e.dom == x.dom && e.seq == x.seq)

/-- Nothing is left to wait for: no frame, and no command. -/
def Dev.drainQuiet (o : DrainObj) (x : Drain) : Prop := d.drainWork o = 0 ∧ d.execs.filter (x.mine o) = []

theorem Dev.endAll_none (p : Exec → Bool) (st : Status) (h : d.execs.filter p = []) : d.endAll p st = d := by
  rw [Dev.endAll, h]
  rfl

/-- The close of a drain: the object becomes what its disable says, and the disable answers with the drain's counts (02 R71). -/
def Dev.closeDrain (o : DrainObj) (x : Drain) : Dev :=
  let last := Dev.drainDone { d with drains := d.drains.filter fun y => y.obj != o } x
  last.finishId x.dom x.seq .done (x.results last.now)

/-- A domain's drain has no closing effect of its own: the disable answers, and nothing else changes. -/
theorem Dev.closeDrain_domain (o : DrainObj) (x : Drain) (dom : Nat) (e : Exec) (hobj : x.obj = .domain dom)
    (he : d.exec? x.dom x.seq = some e) :
    d.closeDrain o x = Dev.finish { d with drains := d.drains.filter fun y => y.obj != o } e .done (x.results d.now) := by
  have hdone : ∀ d : Dev, d.drainDone x = d := fun d => by rw [Dev.drainDone, hobj]
  rw [Dev.closeDrain, hdone, Dev.finishId, show Dev.exec? { d with drains := d.drains.filter fun y => y.obj != o } x.dom x.seq = some e from he]
  rfl

/-- A drain ends where the device stands once its work has finished, and at the drain's limit otherwise. -/
theorem drainEnd_eq (o : DrainObj) (x y : Drain) (at_ left : Dev) (k : Nat) (hx : (d.drains.find? fun y => y.obj == o) = some x)
    (hquiet : d.drainQuiet o x → at_ = d) (hlimit : ¬d.drainQuiet o x → at_ = d.goCounter x.due)
    (hleft : (at_.endAll (x.mine o) .abandoned).drainDiscard o = (left, k)) (hy : (left.drains.find? fun y => y.obj == o) = some y) :
    drainEnd o d = left.closeDrain o
      { y with discarded := y.discarded + k, abandoned := y.abandoned + (at_.execs.filter (x.mine o)).length } := by
  have hobj : x.obj = o := eq_of_beq (List.find?_some (p := fun y : Drain => y.obj == o) hx)
  have hmine : ∀ e : Dev, e.drainExecs x = e.execs.filter (x.mine o) := fun e => by rw [Dev.drainExecs, hobj]; rfl
  have hat : (if d.drainWork o = 0 ∧ (d.drainExecs x).isEmpty then d else d.goCounter x.due) = at_ := by
    simp only [hmine, List.isEmpty_iff]
    split
    · next hq => exact (hquiet hq).symm
    · next hq => exact (hlimit hq).symm
  unfold drainEnd
  simp only [hx, hat]
  rw [show (fun e : Exec => e.isFor o && !(e.dom == x.dom && e.seq == x.seq)) = x.mine o from rfl, hleft, hmine]
  simp only [hy, Dev.closeDrain, Dev.drainDone_now]

end

/-! ### Beacons, pages and drains together (O9) -/

/-- Settles O9: out of reset each event is its operation, which does in each case what the statement writes out. -/
theorem beaconsHeartbeatsAndDrainsAct : Obligations.BeaconsHeartbeatsAndDrainsAct := by
  unfold Obligations.BeaconsHeartbeatsAndDrainsAct
  refine ⟨?beacons, ?pages, ?drains⟩
  case beacons =>
    intro s b d x hr n fires
    rw [exec_beaconFire s hr]
    refine ⟨fun hlive hn => ⟨fun hdue => ?first, fun a hdue hne => ?other⟩, d.fireBeacon_live b, fun hlive hn => ?atFrame,
      fun hset harmed => ?spent, fun k limit => ⟨fun hlive => ⟨d.fireUntil_self b limit k hlive, fun a => ?next⟩, ?gone⟩⟩
    case first => rw [beaconFire_between d b hlive hn, d.fireUntil_self b _ _ ⟨hlive, rfl⟩ hdue]; rfl
    case other => rw [beaconFire_between d b hlive hn, d.fireUntil_other a b _ _ ⟨hlive, rfl⟩ hdue hne]
    case atFrame => rw [beaconFire_live d b hlive, if_pos (show (d.beacon b).instant = (d.time.frame + 1) * frameNs from hn)]
    case spent => rw [beaconFire_spent d b (not_or.2 ⟨hset, harmed⟩)]
    case next => exact d.fireUntil_other a b limit k hlive
    case gone => exact d.fireUntil_spent b limit k
  case pages =>
    intro s dom d m at_ hr
    rw [exec_heartbeatPageWrite s hr]
    refine ⟨fun hdom haddr hfatal => ?_, fun hnone => ?_⟩
    · rw [heartbeatPageWrite_due d dom hdom haddr hfatal]
    · rw [heartbeatPageWrite_none d dom hnone]
  case drains =>
    intro s o x d mine quiet hr hx
    rw [exec_drainEnd s hr]
    refine ⟨fun y at_ left k hquiet hlimit hleft hy => ?ends, fun dom e ho hquiet he => ?domain⟩
    case ends =>
      rw [drainEnd_eq d o x y at_ left k hx hquiet hlimit hleft hy]
      rfl
    case domain =>
      have hobj : x.obj = .domain dom := ho ▸ eq_of_beq (List.find?_some (p := fun y : Drain => y.obj == o) hx)
      have hleft : (d.endAll (x.mine o) .abandoned).drainDiscard o = (d, 0) := by
        rw [d.endAll_none (x.mine o) .abandoned hquiet.2, ho]
        rfl
      have hclose : drainEnd o d = d.closeDrain o x := by
        rw [drainEnd_eq d o x x d d 0 hx (fun _ => rfl) (fun hn => absurd hquiet hn) hleft hx,
          show d.execs.filter (x.mine o) = [] from hquiet.2]
        rfl
      rw [hclose, d.closeDrain_domain o x dom e hobj he]
      rfl

end Sys2Proof.Machine
end

section
/-!
SUPPORT. The receive MACs of uplink ports and Brynlinks (15 R368, R378, R380, R381): the verdict on a frame, and what each verdict does.
-/
namespace Sys2Proof.Machine

/-! ### The events out of reset -/

section
variable (s : State) (h : s.dev.sys.inReset = false)
include h

theorem exec_uplinkFrameReceive (rx : UplinkRx) :
    exec (.uplinkFrameReceive rx) s = .next { s with dev := (uplinkFrameReceive rx s.dev).settle } := live_running _ s h

theorem exec_brynlinkFrameReceive (l : Nat) (early : Bool) (data : Bytes) :
    exec (.brynlinkFrameReceive l early data) s = .next { s with dev := (brynlinkFrameReceive l early data s.dev).settle } :=
  live_running _ s h

end

/-! ### The verdict on a frame -/

section
variable (q : Group) (rx : UplinkRx)

/-- A frame of the preemptable path at a port that does not preempt (15 R380). -/
def Group.wrongPath : Prop := rx.path = .preemptable ∧ q.preempt = false

theorem Group.check_codeError (h : q.wrongPath rx) : q.check rx = .codeError := if_pos (by simpa [Group.wrongPath] using h)

variable (hpath : ¬q.wrongPath rx)
include hpath

theorem Group.check_eq : q.check rx = if rx.pcsError then .fcsError else if rx.data.length < 64 then .runt
    else if !fcsGood rx.data then .fcsError else if q.maxFrame < rx.data.length then .giant else .accept :=
  if_neg (by simpa [Group.wrongPath] using hpath)

theorem Group.check_runt (hpcs : rx.pcsError = false) (hn : rx.data.length < 64) : q.check rx = .runt := by
  rw [Group.check_eq q rx hpath, hpcs, if_neg Bool.false_ne_true, if_pos hn]

theorem Group.check_fcsError (h : rx.pcsError = true ∨ (64 ≤ rx.data.length ∧ fcsGood rx.data = false)) : q.check rx = .fcsError := by
  rw [Group.check_eq q rx hpath]
  rcases h with hpcs | ⟨hn, hfcs⟩
  · rw [if_pos hpcs]
  · rw [if_neg (Nat.not_lt.2 hn), hfcs, if_pos Bool.not_false, ite_self]

theorem Group.check_good (hpcs : rx.pcsError = false) (hn : 64 ≤ rx.data.length) (hfcs : fcsGood rx.data = true) :
    q.check rx = if q.maxFrame < rx.data.length then .giant else .accept := by
  rw [Group.check_eq q rx hpath, hpcs, hfcs, if_neg Bool.false_ne_true, if_neg (Nat.not_lt.2 hn)]
  rfl

end

/-! ### What a receive MAC does -/

/-- A frame that was not handed over early, or is too short to have been, can still be discarded (03 R85). -/
theorem not_handedOver {early : Bool} {n : Nat} (h : early = false ∨ n < 64) : ¬(early = true ∧ 64 ≤ n) := by
  rintro ⟨he, hn⟩
  rcases h with hf | hlt
  · exact Bool.eq_false_iff.1 hf he
  · exact Nat.not_lt.2 hn hlt

section
variable (d : Dev) (q : Group) (rx : UplinkRx)

/-- The frame as the port hands it on: stamped with the correction of its lanes, express by its path or its priority (12 R296, 15 R380,
R381). -/
def Dev.uplinkFrame (d : Dev) (q : Group) (rx : UplinkRx) : Frame where
  data := rx.data
  src := 0x4000 + q.lane
  itime := d.stamp (laneCorrection false q.rate q.fec)
  express := (rx.path == .express && q.preempt) || bit q.exprx (outerPcp rx.data (bits q.flags 6 4))
  early := rx.early

/-- What each verdict makes of a frame. -/
def Dev.uplinkVerdict (d : Dev) (q : Group) (rx : UplinkRx) : RxVerdict → Dev
  | .codeError => d.count (0x3000 + 32 * q.lane + 3)
  | .runt => (d.count (0x3000 + 32 * q.lane + 1)).deliverError q rx.data 16 (d.uplinkFrame q rx).itime
  | .fcsError =>
    if rx.early ∧ 64 ≤ rx.data.length then d.ingress { d.uplinkFrame q rx with bad := true, rxErr := 1 } else d.count (0x3000 + 32 * q.lane)
  | .giant =>
    if rx.early then
      (d.count (0x3000 + 32 * q.lane + 2)).ingress { d.uplinkFrame q rx with data := rx.data.take q.maxFrame, bad := true, rxErr := 2 }
    else (d.count (0x3000 + 32 * q.lane + 2)).deliverError q (rx.data.take q.maxFrame) 8 (d.uplinkFrame q rx).itime
  | .accept =>
    ((d.count (0x3000 + 32 * q.lane + 9)).countBy (0x3000 + 32 * q.lane + 10) rx.data.length).ingress (d.uplinkFrame q rx)

theorem uplinkFrameReceive_none (h : d.receives? rx.lane 1 = none) : uplinkFrameReceive rx d = d := by
  rw [uplinkFrameReceive, h]

theorem uplinkFrameReceive_verdict (h : d.receives? rx.lane 1 = some q) : uplinkFrameReceive rx d = d.uplinkVerdict q rx (q.check rx) := by
  rw [uplinkFrameReceive, h]
  dsimp only
  cases q.check rx <;> rfl

theorem brynlinkFrameReceive_none (l : Nat) (early : Bool) (data : Bytes) (h : d.receives? l 2 = none ∨ data.length < 8) :
    brynlinkFrameReceive l early data d = d := by
  unfold brynlinkFrameReceive
  split
  · rfl
  · next hq => exact if_pos (h.resolve_left (by rw [hq]; exact Option.some_ne_none _))

/-- The frame behind the carriage header of 8 bytes, which gives its timestamp and its express bit (15 R368). -/
def Dev.brynlinkFrame (d : Dev) (q : Group) (early : Bool) (data : Bytes) : Frame where
  data := data.drop 8
  src := 0x8000 + q.lane
  itime := fullTime d.now (field data 4 4)
  express := bit (field data 0 1) 7
  early := early

theorem brynlinkFrameReceive_frame (l : Nat) (early : Bool) (data : Bytes) (h : d.receives? l 2 = some q) (hn : 8 ≤ data.length) :
    brynlinkFrameReceive l early data d =
      if fcsGood (data.drop 8) then
        ((d.count (0x3000 + 32 * l + 9)).countBy (0x3000 + 32 * l + 10) (data.drop 8).length).ingress (d.brynlinkFrame q early data)
      else if early ∧ 64 ≤ (data.drop 8).length then d.ingress { d.brynlinkFrame q early data with bad := true, rxErr := 1 }
      else d.count (0x3000 + 32 * l) := by
  rw [brynlinkFrameReceive, h]
  exact if_neg (Nat.not_lt.2 hn)

end

/-- The timestamp whose low 32 bits a carriage header gives is the latest one not after now (log entry 67). -/
theorem fullTime_latest (now low : Nat) (hlow : low < 2 ^ 32) (hle : low ≤ now) :
    fullTime now low % 2 ^ 32 = low ∧ fullTime now low ≤ now ∧ now < fullTime now low + 2 ^ 32 := by
  unfold fullTime
  omega

/-! ### Both receive MACs together (O23) -/

/-- Settles O23: each clause is one verdict of the port's checks, or one of the three ends of a Brynlink's frame. -/
theorem receiveMacsJudgeFrames : Obligations.ReceiveMacsJudgeFrames := by
  unfold Obligations.ReceiveMacsJudgeFrames
  refine ⟨?uplink, ?brynlink, fullTime_latest⟩
  case uplink =>
    intro s rx q d n first itime express x wrong gives hr
    have hgives : ∀ y : Dev, uplinkFrameReceive rx d = y → gives y := fun y hy => by
      show exec _ _ = _
      rw [exec_uplinkFrameReceive s hr, hy]
    refine ⟨fun hnone => hgives _ (uplinkFrameReceive_none d rx hnone), fun hq => ?_⟩
    have hverdict : ∀ v : RxVerdict, q.check rx = v → ∀ y : Dev, d.uplinkVerdict q rx v = y → gives y := fun v hv y hy =>
      hgives y ((uplinkFrameReceive_verdict d q rx hq).trans (hv ▸ hy))
    refine ⟨fun hw => ?code, fun hw hpcs hn => ?runt, fun hw hbad => ⟨fun he => ?fcsEarly, fun he => ?fcs⟩,
      fun hw hpcs hn hfcs hmax => ⟨fun he => ?giantEarly, fun he => ?giant⟩, fun hw hpcs hn hfcs hmax => ?accept⟩
    case code => exact hverdict _ (q.check_codeError rx hw) _ rfl
    case runt => exact hverdict _ (q.check_runt rx hw hpcs hn) _ rfl
    case fcsEarly => exact hverdict _ (q.check_fcsError rx hw hbad) _ (if_pos he)
    case fcs => exact hverdict _ (q.check_fcsError rx hw hbad) _ (if_neg (not_handedOver he))
    case giantEarly => exact hverdict _ ((q.check_good rx hw hpcs hn hfcs).trans (if_pos hmax)) _ (if_pos he)
    case giant => exact hverdict _ ((q.check_good rx hw hpcs hn hfcs).trans (if_pos hmax)) _ (if_neg (Bool.eq_false_iff.1 he))
    case accept => exact hverdict _ ((q.check_good rx hw hpcs hn hfcs).trans (if_neg (Nat.not_lt.2 hmax))) _ rfl
  case brynlink =>
    intro s l early data q d frame first x gives hr
    have hgives : ∀ y : Dev, brynlinkFrameReceive l early data d = y → gives y := fun y hy => by
      show exec _ _ = _
      rw [exec_brynlinkFrameReceive s hr, hy]
    refine ⟨fun hnone => hgives _ (brynlinkFrameReceive_none d l early data hnone), fun hq hn => ?_⟩
    have hframe := brynlinkFrameReceive_frame d q l early data hq hn
    refine ⟨fun hfcs => ?good, fun hfcs he => ?bad, fun hfcs he => ?dropped⟩
    case good => exact hgives _ (hframe.trans (if_pos hfcs))
    case bad => exact hgives _ (hframe.trans ((if_neg (Bool.eq_false_iff.1 hfcs)).trans (if_pos he)))
    case dropped => exact hgives _ (hframe.trans ((if_neg (Bool.eq_false_iff.1 hfcs)).trans (if_neg (not_handedOver he))))

end Sys2Proof.Machine
end

section
/-!
SUPPORT. Segments freed and returned (09 R228 to R230, R236), and the passes of the pipelines (01 R17; 07 R175, R195; 09 R217; 10 R260).
-/
namespace Sys2Proof.Machine

/-! ### The events out of reset -/

section
variable (s : State) (h : s.dev.sys.inReset = false)
include h

theorem exec_segmentFree (idx : Nat) (o : Byte) : exec (.segmentFree idx o) s = .next { s with dev := (s.dev.freeIndex o idx).settle } :=
  live_running (fun d => d.freeIndex o idx) s h

theorem exec_deepBufferReturn : exec .deepBufferReturn s = .next { s with dev := (deepBufferReturn s.dev).settle } := live_running _ s h

theorem exec_pipelinePass (pipe clocks : Nat) :
    exec (.pipelinePass pipe clocks) s = .next { s with dev := (takePass pipe 0 clocks s.dev).settle } := live_running _ s h

theorem exec_secondPass (pipe clocks : Nat) :
    exec (.secondPass pipe clocks) s = .next { s with dev := (takePass pipe 1 clocks s.dev).settle } := live_running _ s h

end

section
variable (d : Dev)

/-! ### Frees -/

/-- A rejected free touches the log of the last 64 records, the counter and the alarm alone (09 R229, R230). -/
theorem Dev.rejectFree_eq (o : Byte) (idx kind : Nat) :
    d.rejectFree o idx kind = (Dev.count { d with sw := { d.sw with
      freeLog := (d.sw.freeLog ++ [(⟨idx, o, kind, d.now⟩ : FreeFault)]).drop (d.sw.freeLog.length + 1 - 64)
      freeFaults := d.sw.freeFaults + 1 } } (0x3E00 + 1)).alarm alFree := by
  unfold Dev.rejectFree
  simp only [List.length_append, List.length_singleton]
  rfl

theorem Dev.freeIndex_free (o : Byte) (idx : Nat) (h : d.sw.segs.filter (fun e => e.2.index == idx) = []) :
    d.freeIndex o idx = d.rejectFree o idx (if (d.sw.freed.getD idx []).contains o then 1 else 2) := by
  rw [Dev.freeIndex, h]
  rfl

section
variable (idx a : Nat) (o : Byte) (x : Seg)
variable (hlast : (d.sw.segs.filter fun e => e.2.index == idx).getLast? = some (a, x))
variable (hfind : (d.sw.segs.find? fun e => e.1 == a) = some (a, x))
include hlast hfind

/-- The latest segment in use that bears the index is the one freed. -/
theorem Dev.freeIndex_used : d.freeIndex o idx =
    if x.owners.contains o then
      if (x.owners.erase o).isEmpty then
        { d with sw := { d.sw with segs := d.sw.segs.filter fun e => e.1 != a, freed := d.sw.freed.put idx (x.past ++ [o]) } }
      else { d with sw := { d.sw with segs := d.sw.segs.map fun e =>
        if e.1 = a then (a, { x with owners := x.owners.erase o, past := x.past ++ [o] }) else e } }
    else d.rejectFree o idx (if x.past.contains o then 1 else 2) := by
  have hindex : x.index = idx := eq_of_beq (List.mem_filter.1 (List.mem_of_getLast? hlast)).2
  rw [Dev.freeIndex, hlast]
  dsimp only
  rw [Dev.freeSeg, hfind, ← hindex]

end

/-! ### Return reads -/

theorem deepBufferReturn_none (h : d.returnsDue = []) : deepBufferReturn d = d := by
  rw [deepBufferReturn, h]
  rfl

/-- The earliest return read belongs to a flow's queue. -/
theorem deepBufferReturn_flow (due i c : Nat) (rest : List (Nat × Nat × Nat × Nat)) (u : Flow)
    (hfirst : sortBy (fun r : Nat × Nat × Nat × Nat => r.1) d.returnsDue = (due, 0, i, c) :: rest) (hu : d.flow? i = some u) :
    deepBufferReturn d = Dev.setFlow ((d.goCounter due).returnHead u.queue (qprof? d.objs u.qprof)).1 i
      fun v => { v with queue := ((d.goCounter due).returnHead u.queue (qprof? d.objs u.qprof)).2 } := by
  have hflow : (d.goCounter due).flow? i = some u := hu
  rw [deepBufferReturn, hfirst]
  simp only [hflow]
  rfl

/-- The earliest return read belongs to a class queue of a port. -/
theorem deepBufferReturn_port (due i c : Nat) (rest : List (Nat × Nat × Nat × Nat))
    (hfirst : sortBy (fun r : Nat × Nat × Nat × Nat => r.1) d.returnsDue = (due, 1, i, c) :: rest) :
    deepBufferReturn d = Dev.setPortQueue ((d.goCounter due).returnHead ((d.port i).queue c) ((d.goCounter due).portProf i c)).1 i c
      fun _ => ((d.goCounter due).returnHead ((d.port i).queue c) ((d.goCounter due).portProf i c)).2 := by
  rw [deepBufferReturn, hfirst]
  rfl

section
variable (q : Queue) (p : Option QProf) (y : Frame) (due : Nat) (later : List (Frame × Nat)) (hq : q.returns = (y, due) :: later)
include hq

/-- With its pool empty the head waits 2 µs more, and is counted (09 R236). -/
theorem Dev.returnHead_waits (pool : Nat) (e : Dev)
    (h : d.place y.data.length false y.slot (y.itime % 2 ^ 32) [0x10#8] = .error (pool, e)) :
    d.returnHead q p = (d.count (0x3D00 + 16 * pool + 1), { q with returns := (y, due + 2000) :: later }) := by
  rw [Dev.returnHead, hq]
  dsimp only
  rw [h]
  rfl

/-- A head that finds room goes behind the queue's frames (09 R236). -/
theorem Dev.returnHead_placed (e : Dev) (segs : List Nat)
    (h : d.place y.data.length false y.slot (y.itime % 2 ^ 32) [0x10#8] = .ok (e, segs)) :
    d.returnHead q p =
      (e, Queue.turn { q with frames := q.frames ++ [{ y with segs, owner := 0x10 }], returns := later } p e.time.c) := by
  rw [Dev.returnHead, hq]
  dsimp only
  rw [h]

end

/-! ### Passes -/

theorem Pipe.front_express (q : Pipe) (x : Frame) (rest : List Frame) (h : q.express = x :: rest) : q.front = some x := by
  rw [Pipe.front, h]

theorem Pipe.front_normal (q : Pipe) (x : Frame) (rest : List Frame) (he : q.express = []) (h : q.normal = x :: rest) :
    q.front = some x := by
  rw [Pipe.front, he, h]
  rfl

section
variable (pipe : Nat) (x : Frame) (rest : List Frame)

/-- The front frame of the express queue is taken. -/
theorem Dev.takeFront_express (h : (d.pipe pipe).express = x :: rest) :
    d.takeFront pipe = (d.setPipe pipe fun q => { q with express := rest }).pass pipe x := by
  have hpop : d.setPipe pipe Pipe.pop = d.setPipe pipe fun q => { q with express := rest } := by
    simp only [Dev.setPipe, Pipe.pop, h]
  rw [Dev.takeFront, Pipe.front_express _ x rest h, ← hpop]

/-- With no express frame the front frame of the normal queue is taken. -/
theorem Dev.takeFront_normal (he : (d.pipe pipe).express = []) (h : (d.pipe pipe).normal = x :: rest) :
    d.takeFront pipe = (d.setPipe pipe fun q => { q with normal := rest }).pass pipe x := by
  have hpop : d.setPipe pipe Pipe.pop = d.setPipe pipe fun q => { q with normal := rest } := by
    simp only [Dev.setPipe, Pipe.pop, he, h, List.drop_succ_cons, List.drop_zero]
  rw [Dev.takeFront, Pipe.front_normal _ x rest he h, ← hpop]

end

/-- Where no other pipeline holds an earlier frame for the meter, none runs before (10 R260). -/
theorem Dev.meterTurn_alone (pipe turn m n : Nat)
    (h : ∀ k < 8, k ≠ pipe → ∀ y ∈ (d.pipe k).waiting, y.turn k < turn → d.meterOfPass y ≠ some m) : Dev.meterTurn pipe turn m n d = d := by
  cases n with
  | zero => rfl
  | succ n =>
    rw [Dev.meterTurn]
    refine if_neg fun hearlier => ?_
    obtain ⟨k, hk, hwaits⟩ := List.any_eq_true.1 hearlier
    obtain ⟨y, hy, hturn⟩ := List.any_eq_true.1 hwaits
    simp only [List.mem_filter, List.mem_range, decide_eq_true_eq] at hk
    simp only [Bool.and_eq_true, decide_eq_true_eq, beq_iff_eq] at hturn
    exact h k hk.1 hk.2 y hy hturn.1 hturn.2

section
variable (pipe second clocks : Nat) (hpipe : pipe ≤ 7)
include hpipe

theorem takePass_empty (h : (d.pipe pipe).front = none) : takePass pipe second clocks d = crossbar clocks d := by
  rw [takePass, if_neg (Nat.not_lt.2 hpipe), h]

/-- A front frame that is due for the other pass stays where it is. -/
theorem takePass_other (x : Frame) (h : (d.pipe pipe).front = some x) (hpass : x.pass ≠ second) :
    takePass pipe second clocks d = crossbar clocks d := by
  rw [takePass, if_neg (Nat.not_lt.2 hpipe), h]
  exact congrArg (crossbar clocks) (if_neg hpass)

theorem takePass_unmetered (x : Frame) (h : (d.pipe pipe).front = some x) (hpass : x.pass = second) (hm : d.meterOfPass x = none) :
    takePass pipe second clocks d = crossbar clocks (d.takeFront pipe) := by
  rw [takePass, if_neg (Nat.not_lt.2 hpipe), h]
  dsimp only
  rw [if_pos hpass, hm]

/-- Before a frame that names a meter, the other pipelines run up to its turn (10 R260). -/
theorem takePass_metered (x : Frame) (m : Nat) (h : (d.pipe pipe).front = some x) (hpass : x.pass = second)
    (hm : d.meterOfPass x = some m) :
    takePass pipe second clocks d = crossbar clocks
      ((Dev.meterTurn pipe (x.turn pipe) m (sumBy (List.range 8) fun q => (d.pipe q).waiting.length) d).takeFront pipe) := by
  rw [takePass, if_neg (Nat.not_lt.2 hpipe), h]
  dsimp only
  rw [if_pos hpass, hm]

end

end

/-! ### Frees, returns and passes together (O24) -/

/-- Settles O24: the free of the segment that the index names, the head of the earliest queue of return reads, and the front frame of a
pipeline in its turn. -/
theorem framesCrossTheDevice : Obligations.FramesCrossTheDevice := by
  unfold Obligations.FramesCrossTheDevice
  refine ⟨?frees, ?returns, ?passes⟩
  case frees =>
    intro s idx a o x d others past log gives rejected held hr
    have hgives : ∀ y : Dev, d.freeIndex o idx = y → gives y := fun y hy => by
      show exec _ _ = _
      rw [exec_segmentFree s hr, hy]
    have hrejected : ∀ second : Bool, d.rejectFree o idx (if second then 1 else 2) = rejected second := fun _ => d.rejectFree_eq o idx _
    refine ⟨fun hfree => hgives _ ((d.freeIndex_free o idx hfree).trans (hrejected _)), fun hlast hfind => ?_⟩
    have hused := d.freeIndex_used idx a o x hlast hfind
    refine ⟨fun hnamed hnone => ?last, fun hnamed hsome => ?named, fun hnot => ?unnamed⟩
    case last => exact hgives _ (hused.trans ((if_pos hnamed).trans (if_pos (List.isEmpty_iff.2 hnone))))
    case named => exact hgives _ (hused.trans ((if_pos hnamed).trans (if_neg fun he => hsome (List.isEmpty_iff.1 he))))
    case unnamed => exact hgives _ (hused.trans ((if_neg (Bool.eq_false_iff.1 hnot)).trans (hrejected _)))
  case returns =>
    intro s due k i c rest u q y later d t gives placed waits hr
    have hgives : ∀ z : Dev, deepBufferReturn d = z → gives z := fun z hz => by
      show exec _ _ = _
      rw [exec_deepBufferReturn s hr, hz]
    refine ⟨fun hnone => hgives d (deepBufferReturn_none d hnone), fun hfirst hq => ⟨fun hk hu hqueue => ?flow, fun hk hqueue => ?port⟩⟩
    case flow =>
      subst hk hqueue
      have hreturn := deepBufferReturn_flow d due i c rest u hfirst hu
      refine ⟨fun pool e hplace => hgives _ ?_, fun e segs hplace => hgives _ ?_⟩
      · rw [hreturn, Dev.returnHead_waits _ _ _ y due later hq pool e hplace]
      · rw [hreturn, Dev.returnHead_placed _ _ _ y due later hq e segs hplace]
    case port =>
      subst hk hqueue
      have hreturn := deepBufferReturn_port d due i c rest hfirst
      refine ⟨fun pool e hplace => hgives _ ?_, fun e segs hplace => hgives _ ?_⟩
      · rw [hreturn, Dev.returnHead_waits _ _ _ y due later hq pool e hplace]
      · rw [hreturn, Dev.returnHead_placed _ _ _ y due later hq e segs hplace]
  case passes =>
    intro s pipe clocks x rest d q ran passes before hr hpipe
    have hfirst : ∀ z : Dev, takePass pipe 0 clocks d = crossbar clocks z → exec (.pipelinePass pipe clocks) s = ran z := fun z hz => by
      rw [exec_pipelinePass s hr, hz]
    have hsecond : ∀ z : Dev, takePass pipe 1 clocks d = crossbar clocks z → exec (.secondPass pipe clocks) s = ran z := fun z hz => by
      rw [exec_secondPass s hr, hz]
    have hpasses : ∀ z : Dev, (∀ n, x.pass = n → takePass pipe n clocks d = crossbar clocks z) → passes z := fun z hz =>
      ⟨fun h0 => hfirst z (hz 0 h0), fun h1 => hsecond z (hz 1 h1)⟩
    refine ⟨fun hm => ⟨fun hexp => ?express, fun hexp hnorm => ?normal⟩, fun m hfront hm => ⟨?metered, fun halone n => ?alone⟩,
      fun f hfront => ⟨fun hpass => ?notFirst, fun hpass => ?notSecond⟩, fun hnone => ⟨?emptyFirst, ?emptySecond⟩⟩
    case express =>
      rw [← d.takeFront_express pipe x rest hexp]
      exact hpasses _ fun n hn => takePass_unmetered d pipe n clocks hpipe x (q.front_express x rest hexp) hn hm
    case normal =>
      rw [← d.takeFront_normal pipe x rest hexp hnorm]
      exact hpasses _ fun n hn => takePass_unmetered d pipe n clocks hpipe x (q.front_normal x rest hexp hnorm) hn hm
    case metered => exact hpasses _ fun n hn => takePass_metered d pipe n clocks hpipe x m hfront hn hm
    case alone => exact d.meterTurn_alone pipe _ m n halone
    case notFirst => exact hfirst d (takePass_other d pipe 0 clocks hpipe f hfront hpass)
    case notSecond => exact hsecond d (takePass_other d pipe 1 clocks hpipe f hfront hpass)
    case emptyFirst => exact hfirst d (takePass_empty d pipe 0 clocks hpipe hnone)
    case emptySecond => exact hsecond d (takePass_empty d pipe 1 clocks hpipe hnone)

end Sys2Proof.Machine
end

section
/-!
SUPPORT. What each step of the block is, as a whole: a row's effect behind the pins, a command packet's checks, and the statuses with
which those checks reject.
-/
namespace Sys2Proof.Machine

/-! ### Every row is an effect on the device -/

/-- Every row of the table has an effect on the device in every state; the pins follow it (02 R68, log entry 29). -/
theorem exec_settles (i : Instr) (s : State) : ∃ d : Dev, exec i s = .next { s with dev := d.settle } := by
  cases i <;> exact ⟨_, rfl⟩

/-- Settles O50: an effect behind the pins is a next state with the queue as it was. -/
theorem everyCommandCompletes : Obligations.EveryCommandCompletes := by
  unfold Obligations.EveryCommandCompletes
  intro i s
  obtain ⟨d, hd⟩ := exec_settles i s
  exact ⟨_, hd, rfl, rfl⟩

/-- Settles O48: the front command leaves the queue before it runs. -/
theorem stepRunsTheFrontCommand : Obligations.StepRunsTheFrontCommand := by
  unfold Obligations.StepRunsTheFrontCommand
  intro c rest s
  rfl

/-! ### The pins -/

/-- A clock edge moves C alone, which no pin follows (12 R285). -/
theorem Dev.tick_pinsNow (d : Dev) : d.tick.pinsNow = d.pinsNow := by
  unfold Dev.tick
  split <;> rfl

theorem Dev.tick_pins (d : Dev) : d.tick.pins = d.pins := by
  unfold Dev.tick
  split <;> rfl

/-- Every step keeps every pin at its rule's level. -/
theorem step_pinsHold (s t : State) (hs : s.pinsHold) (h : step s = .next t) : t.pinsHold := by
  unfold step at h
  split at h
  case h_1 =>
    cases h
    show s.dev.tick.pins = s.dev.tick.pinsNow
    rw [Dev.tick_pins, Dev.tick_pinsNow, hs]
  case h_2 c rest hp =>
    obtain ⟨d, hd⟩ := exec_settles c { s with pending := rest }
    cases hd.symm.trans h
    rfl

/-- The pins in reset (18 Table 18-6). -/
theorem Dev.pinsNow_inReset (d : Dev) (h : d.sys.inReset = true) :
    d.pinsNow.txDisDriven = false ∧ d.pinsNow.teOut = [] ∧ d.pinsNow.ppsOut = false ∧ d.pinsNow.htx = .idle := by
  simp [Dev.pinsNow, h]

/-- The pins while the outputs are dark (02 R68). -/
theorem Dev.pinsNow_dark (d : Dev) (hr : d.sys.inReset = false) (h : d.sys.dark = true) :
    d.pinsNow.txDis = List.range 48 ∧ d.pinsNow.utxActive = [] ∧ d.pinsNow.htx = .ais
    ∧ d.pinsNow.htxActive = [] ∧ d.pinsNow.teOut = [] := by
  simp [Dev.pinsNow, hr, h, Dev.treeDark, Dev.groupLit, Dev.htxDark]

/-- Settles O55: a step's invariant, and the pins that their rules give in the dark and in reset. -/
theorem pinsFollowTheirRules : Obligations.PinsFollowTheirRules := by
  unfold Obligations.PinsFollowTheirRules
  intro s t hs h
  have hp : t.dev.pins = t.dev.pinsNow := step_pinsHold s t hs h
  rw [hp]
  exact ⟨hp, t.dev.pinsNow_dark, t.dev.pinsNow_inReset⟩

/-- Settles O56: reset's device lists no entry, and every field is the one that its table states. -/
theorem resetLeaves : Obligations.ResetLeaves := by
  unfold Obligations.ResetLeaves
  have hpins : Pins.reset = Dev.reset.pinsNow := by decide +kernel
  exact ⟨hpins, rfl, rfl, rfl, rfl, rfl, fun _ => ⟨rfl, rfl, rfl, rfl, rfl⟩, rfl, rfl, rfl, rfl, rfl, rfl, rfl, fun _ => ⟨rfl, rfl⟩,
    rfl, rfl, rfl, rfl, rfl⟩

/-! ### A command packet's row -/

section
variable (i : Instr) (c : CmdDef) (p : Packet) (s : State) (hi : commandOf i = some (c, p))
include hi

/-- A packet whose checks pass runs at once. -/
theorem exec_accepted (h : c.accepts s.dev p) : exec i s = .next { s with dev := (c.run (c.entry s.dev p) (s.dev.fetch p)).settle } := by
  rw [exec_command i c p s hi, command_accepted c p s h]

variable (hs : s.dev.serves) (hp : p.ring ≤ 15)
include hs hp

/-- A packet that a fence does not hold runs its checks, and what follows them. -/
theorem exec_unfenced (hf : Packet.fence p = false) :
    exec i s = .next { s with dev := (runCmd c (c.entry s.dev p) (s.dev.fetch p)).settle } := by
  rw [exec_command i c p s hi, command_unfenced c p s hs hp hf]

/-- A packet that fails a check answers with its status and result words. -/
theorem exec_refused (hf : Packet.fence p = false) (st : Status) (res : List Nat)
    (hr : c.refuse (s.dev.fetch p) (c.entry s.dev p) = some (st, res)) (hn : st ≠ .abandoned ∨ Packet.dry p = true) :
    exec i s = .next { s with dev := (s.dev.answer p c.op st res).settle } := by
  rw [exec_command i c p s hi, command_refused c p s st res hs hp hf hr hn]

/-- A packet without the right to its command answers with that status alone. -/
theorem exec_unprivileged (hf : Packet.fence p = false) (st : Status) (h : c.privilege (s.dev.fetch p) (c.entry s.dev p) = some st)
    (hn : st ≠ .abandoned) : exec i s = .next { s with dev := (s.dev.answer p c.op st []).settle } := by
  have hr : c.refuse (s.dev.fetch p) (c.entry s.dev p) = some (st, []) := by simp [CmdDef.refuse, h]
  exact exec_refused i c p s hi hs hp hf st [] hr (.inl hn)

end

/-- Settles O51: the three ways in which a packet's checks end. -/
theorem packetsRunOrAnswerTheirFirstFailure : Obligations.PacketsRunOrAnswerTheirFirstFailure := by
  unfold Obligations.PacketsRunOrAnswerTheirFirstFailure
  intro i c p s st res d hi
  refine ⟨exec_accepted i c p s hi, fun hs hp hf hr hn => exec_refused i c p s hi hs hp hf st res hr (.inl hn), fun hs hp hf hd hr => ?_⟩
  have hcounts : runCmd c (c.entry d p) (d.fetch p)
      = ((d.fetch p).noteAbandoned (c.drainsOf (d.fetch p) (c.entry d p))).finish (c.entry d p) .abandoned res := by
    have hnotes : (!Packet.dry (c.entry d p).pkt) = true := by simp [CmdDef.entry, hd]
    simp only [runCmd, hr, hnotes, and_self, if_true]
  rw [exec_unfenced i c p s hi hs hp hf, hcounts]

/-! ### Privilege (02 R45 steps 1 to 4, R50; 17 R401) -/

section
variable (c : CmdDef) (d : Dev) (p : Packet)

theorem CmdDef.privilege_foreign (h : p.domain.toNat ≠ p.ring) : c.privilege (d.fetch p) (c.entry d p) = some .denied := by
  simp [CmdDef.privilege, CmdDef.entry, h]

variable (h : p.domain.toNat = p.ring)
include h

theorem CmdDef.privilege_bootHost (h0 : p.ring = 0) (hb : d.sys.boot ≠ 3) (hc : c.boot = false) :
    c.privilege (d.fetch p) (c.entry d p) = some .conflict := by
  simp [CmdDef.privilege, CmdDef.entry, Dev.fetch, h, h0, hb, hc]

theorem CmdDef.privilege_bootTenant (h0 : p.ring ≠ 0) (hb : d.sys.boot ≠ 3) (hc : c.op ≠ 0x0101 ∧ c.op ≠ 0x0102) :
    c.privilege (d.fetch p) (c.entry d p) = some .conflict := by
  simp [CmdDef.privilege, CmdDef.entry, Dev.fetch, h, h0, hb, hc]

theorem CmdDef.privilege_tenant (h0 : p.ring ≠ 0) (hb : d.sys.boot = 3) (hc : c.tenant = none) :
    c.privilege (d.fetch p) (c.entry d p) = some .denied := by
  simp [CmdDef.privilege, CmdDef.entry, Dev.fetch, h, h0, hb, hc]

end

/-- Settles O52: in each case a check of the sender's right fails before any other. -/
theorem unprivilegedSendersChangeNothing : Obligations.UnprivilegedSendersChangeNothing := by
  unfold Obligations.UnprivilegedSendersChangeNothing
  intro i c p s d hi hs hp hf
  have answers := exec_unprivileged i c p s hi hs hp hf
  refine ⟨fun h => ?foreign, fun h h0 hb hc => ?bootHost, fun h h0 hb hc => ?bootTenant, fun h h0 hb hc => ?tenant⟩
  case foreign => exact answers .denied (c.privilege_foreign d p h) (by decide)
  case bootHost =>
    have hboot : c.boot = false := Bool.eq_false_iff.2 fun hb => hc (boot_commands i c p hi hb)
    exact answers .conflict (c.privilege_bootHost d p h h0 hb hboot) (by decide)
  case bootTenant =>
    have hop : c.op ≠ 0x0101 ∧ c.op ≠ 0x0102 := by simpa using hc
    exact answers .conflict (c.privilege_bootTenant d p h h0 hb hop) (by decide)
  case tenant => exact answers .denied (c.privilege_tenant d p h h0 hb hc) (by decide)

/-! ### Beacon and fence (02 R42, R46) -/

/-- A fence is blocked while an earlier command of the ring has not answered. -/
theorem Dev.fenceBlocked_iff (d : Dev) (e : Exec) :
    d.fenceBlocked e = true ↔ ∃ x ∈ d.execs, x.dom = e.dom ∧ x.seq < e.seq ∧ x.replied = false := by
  simp [Dev.fenceBlocked, and_assoc]

/-- A packet whose fence is blocked stays in execution, not started. -/
theorem exec_fenced (i : Instr) (c : CmdDef) (p : Packet) (s : State) (hi : commandOf i = some (c, p)) (hs : s.dev.serves)
    (hp : p.ring ≤ 15) (hf : Packet.fence p = true) (hb : (s.dev.fetch p).fenceBlocked (c.entry s.dev p) = true) :
    exec i s = .next { s with dev := ((s.dev.fetch p).park { c.entry s.dev p with started := false }).settle } := by
  obtain ⟨hr, hfatal⟩ := hs
  have hring : ¬ 15 < p.ring := by omega
  have hstart : startCmd c p s.dev = (s.dev.fetch p).park { c.entry s.dev p with started := false } := if_pos ⟨hf, hb⟩
  rw [exec_command i c p s hi, command, live_running _ s hr]
  simp only [hfatal, hring, hstart, Bool.false_eq_true, or_self, if_false]

/-- Settles O54: an AT_BEACON packet is armed behind its checks, and a packet whose fence is blocked is parked before them. -/
theorem commandsWaitForBeaconAndFence : Obligations.CommandsWaitForBeaconAndFence := by
  unfold Obligations.CommandsWaitForBeaconAndFence
  intro i c p s d e b hi hs hp
  refine ⟨fun hf hd hb hop hr => ?beacon, fun hf hx => exec_fenced i c p s hi hs hp hf (((d.fetch p).fenceBlocked_iff e).2 hx)⟩
  have harm : runCmd c e (d.fetch p) = (d.fetch p).arm e := by
    have hpkt : e.pkt = p := rfl
    simp [runCmd, hr, own_flow i c p hi hop, hpkt, hd, hb]
  rw [exec_unfenced i c p s hi hs hp hf, harm]
  rfl

end Sys2Proof.Machine
end

section
/-!
SUPPORT. With which statuses the checks of 02 R45 reject: no command's own rules, and so no check, answer `ARMED` or `STAGED`.
-/
namespace Sys2Proof.Machine

/-! ### The statuses of step 6 (02 R45) -/

/-- A check that rejects, if it does, with BUSY, LATE, NO_ROOM, CONFLICT or another failure: neither `ARMED` nor `STAGED`. -/
def Rejects (r : Option (Status × List Nat)) : Prop := ∀ x ∈ r, x.1 ≠ .armed ∧ x.1 ≠ .staged

@[simp] theorem rejects_none : Rejects none := fun _ h => nomatch h

@[simp] theorem rejects_some (st : Status) (res : List Nat) : Rejects (some (st, res)) ↔ st ≠ .armed ∧ st ≠ .staged :=
  ⟨fun h => h _ rfl, fun h _ hx => Option.some.inj hx ▸ h⟩

/-- A nest of conditions rejects where its branches do. -/
@[simp] theorem rejects_ite (q : Prop) [Decidable q] (a b : Option (Status × List Nat)) :
    Rejects (if q then a else b) ↔ (q → Rejects a) ∧ (¬q → Rejects b) := by
  split <;> simp [*]

section
variable (d : Dev) (e : Exec)

@[simp] theorem rejects_needTerm {f : Term → Option (Status × List Nat)} (h : ∀ t, Rejects (f t)) : Rejects (needTerm d e f) := by
  unfold needTerm
  split <;> simp [h]

@[simp] theorem rejects_needAlloc {f : Alloc → Option (Status × List Nat)} (h : ∀ a, Rejects (f a)) : Rejects (needAlloc d e f) := by
  unfold needAlloc
  split <;> simp [h]

@[simp] theorem rejects_needPort : Rejects (needPort d e) := by simp [needPort]

@[simp] theorem rejects_termSetForbid : Rejects (termSetForbid d e) := by
  unfold termSetForbid
  dsimp only
  split <;> simp

@[simp] theorem rejects_allocSetForbid : Rejects (allocSetForbid d e) := by
  unfold allocSetForbid
  dsimp only
  split <;> simp

@[simp] theorem rejects_flowSetForbid (h : Nat) (old : Option Flow) (x : Flow) : Rejects (flowSetForbid d h old x) := by
  unfold flowSetForbid
  split <;> simp

@[simp] theorem rejects_ringForbid (t : Tbl FrameRing) (b : Bytes) : Rejects (ringForbid t b) := by
  unfold ringForbid
  split <;> simp

/-! ### The commands whose check looks an object up -/

@[simp] theorem cmdOmciSend_rejects : Rejects (cmdOmciSend.forbid d e) := by
  simp only [cmdOmciSend]
  split <;> simp

@[simp] theorem cmdClsEntryRead_rejects : Rejects (cmdClsEntryRead.forbid d e) := by
  simp only [cmdClsEntryRead]
  split <;> simp

@[simp] theorem cmdKeySwitch_rejects : Rejects (cmdKeySwitch.forbid d e) := by
  simp only [cmdKeySwitch]
  split <;> simp

@[simp] theorem cmdKeyBindSet_rejects : Rejects (cmdKeyBindSet.forbid d e) := by
  simp only [cmdKeyBindSet]
  split <;> simp

@[simp] theorem cmdFlowSet_rejects : Rejects (cmdFlowSet.forbid d e) := by
  simp only [cmdFlowSet]
  split
  · split <;> simp
  · simp

@[simp] theorem cmdFlowDisable_rejects : Rejects (cmdFlowDisable.forbid d e) := by
  simp only [cmdFlowDisable]
  split <;> simp

@[simp] theorem cmdFlowEnable_rejects : Rejects (cmdFlowEnable.forbid d e) := by
  simp only [cmdFlowEnable]
  split
  · simp
  · split
    · simp
    · split <;> simp

@[simp] theorem cmdQueueSampleRead_rejects : Rejects (cmdQueueSampleRead.forbid d e) := by
  simp only [cmdQueueSampleRead]
  split <;> simp

@[simp] theorem cmdRingDisable_rejects : Rejects (cmdRingDisable.forbid d e) := by
  simp only [cmdRingDisable]
  split <;> simp

@[simp] theorem cmdLanternBoundRead_rejects : Rejects (cmdLanternBoundRead.forbid d e) := by
  simp only [cmdLanternBoundRead]
  split <;> simp

/-! ### Every command -/

theorem cmdsSystem_rejects : ∀ c ∈ cmdsSystem, Rejects (c.forbid d e) := by
  simp [cmdsSystem, cmdIdentityRead, cmdHeartbeatSet, cmdFirmwareLoad, cmdFirmwareStart, cmdBootStatus, cmdMeshStatus, cmdEpochPin,
    cmdEpochQuery, cmdDomainGrant, cmdDomainRevoke, cmdDomainDisable, cmdDomainEnable]

theorem cmdsVersion_rejects : ∀ c ∈ cmdsVersion, Rejects (c.forbid d e) := by
  simp [cmdsVersion, cmdVersionOpen, cmdVersionCommit, cmdVersionAbort, cmdVersionQuery, cmdVersionRetireLimit]

theorem cmdsChannel_rejects : ∀ c ∈ cmdsChannel, Rejects (c.forbid d e) := by
  simp [cmdsChannel, versionedCmd, cmdChannelModeSet, cmdChannelEnable, cmdChannelDisable, cmdBurstProfileSet, cmdBearingRead,
    cmdBearingClear, cmdChannelStatus, cmdMgmtRingSet, cmdModuleAccess]

theorem cmdsTerminal_rejects : ∀ c ∈ cmdsTerminal, Rejects (c.forbid d e) := by
  simp [cmdsTerminal, versionedCmd, cmdTerminalSet, cmdTerminalDelete, cmdTerminalDisable, cmdTerminalEnable, cmdTerminalDeactivate,
    cmdTerminalStatus, cmdDiscoverySet, cmdDiscoveryRead, cmdRerange, cmdTerminalRegidSet]

theorem cmdsPlanner_rejects : ∀ c ∈ cmdsPlanner, Rejects (c.forbid d e) := by
  simp [cmdsPlanner, versionedCmd, cmdPlannerSet, cmdLanternAllocSet, cmdAllocSet, cmdAllocDelete, cmdPlannerForecast, cmdAllocStatus,
    cmdPlanRead, cmdLanternFlowSet]

theorem cmdsClassifier_rejects : ∀ c ∈ cmdsClassifier, Rejects (c.forbid d e) := by
  simp [cmdsClassifier, versionedCmd, cmdClsTableSet, cmdClsProgramSet, cmdClsBindSet, cmdClsRuleSet, cmdClsEntrySet, cmdClsSearch,
    cmdExceptionSet, cmdClsUsage]

theorem cmdsForwarding_rejects : ∀ c ∈ cmdsForwarding, Rejects (c.forbid d e) := by
  simp [cmdsForwarding, cmdFwdEntryWrite, cmdFwdEntryDelete, cmdFwdEntryRead, cmdFwdSearch, cmdFwdFlush, cmdFwdSourceSet, cmdLearnSet]

theorem cmdsSwitch_rejects : ∀ c ∈ cmdsSwitch, Rejects (c.forbid d e) := by
  simp [cmdsSwitch, versionedCmd, cmdPoolCarveSet, cmdPoolStatus, cmdQueueProfileSet, cmdCutSet, cmdReplListSet, cmdRxRingSet,
    cmdTxRingSet, cmdSegmentLogRead]

theorem cmdsTraffic_rejects : ∀ c ∈ cmdsTraffic, Rejects (c.forbid d e) := by
  simp [cmdsTraffic, versionedCmd, cmdShapeProfileSet, cmdTerminalShapeSet, cmdTmChannelSet, cmdTmPortSet, cmdMeterSet, cmdGateListSet,
    cmdGateStatus, cmdSampleSet]

theorem cmdsCipher_rejects : ∀ c ∈ cmdsCipher, Rejects (c.forbid d e) := by
  simp [cmdsCipher, cmdKeyWrite, cmdKeyErase, cmdKeyExchange, cmdSessionKeySet, cmdKeyStatus, cmdKeyRead]

theorem cmdsTime_rejects : ∀ c ∈ cmdsTime, Rejects (c.forbid d e) := by
  simp [cmdsTime, cmdTimeSourceSet, cmdTimeSet, cmdTimeRateSet, cmdTimeRebase, cmdTimeStatus, cmdBeaconSet, cmdBeaconClear,
    cmdBeaconStatus, cmdPtpPortSet, cmdSyncePortSet, cmdTodQuery, cmdTeInputSet, cmdTeCaptureRead, cmdTsRingSet]

theorem cmdsGateway_rejects : ∀ c ∈ cmdsGateway, Rejects (c.forbid d e) := by
  simp [cmdsGateway, versionedCmd, cmdHeritageLaneSet, cmdTsiConnSet, cmdTsiPageSwap, cmdCircuitSet, cmdHeritageStatus, cmdTdmPmRead]

theorem cmdsProt_rejects : ∀ c ∈ cmdsProt, Rejects (c.forbid d e) := by
  simp [cmdsProt, cmdProtSet, cmdClaimSet, cmdProtIsolate, cmdShadowSet, cmdShadowRead, cmdProtStatus]

theorem cmdsLane_rejects : ∀ c ∈ cmdsLane, Rejects (c.forbid d e) := by
  simp [cmdsLane, versionedCmd, cmdPortSet, cmdPortDisable, cmdPortEnable, cmdEqTableWrite, cmdLaneTrain, cmdTreeTrain, cmdPatternSet,
    cmdPatternRead, cmdEyeScan, cmdLaneStatus, cmdPortStatus]

theorem cmdsHealth_rejects : ∀ c ∈ cmdsHealth, Rejects (c.forbid d e) := by
  simp [cmdsHealth, cmdCounterRead, cmdCounterChainSet, cmdCounterClear, cmdDumpSet, cmdDumpStart, cmdAlarmClear, cmdFaultLogRead,
    cmdSensorRead, cmdLedgerRead, cmdLedgerLoad]

theorem allCmds_rejects : ∀ c ∈ allCmds, Rejects (c.forbid d e) := by
  simp only [allCmds, List.forall_mem_append, and_assoc]
  exact ⟨cmdsSystem_rejects d e, cmdsVersion_rejects d e, cmdsChannel_rejects d e, cmdsTerminal_rejects d e, cmdsPlanner_rejects d e,
    cmdsClassifier_rejects d e, cmdsForwarding_rejects d e, cmdsSwitch_rejects d e, cmdsTraffic_rejects d e, cmdsCipher_rejects d e,
    cmdsTime_rejects d e, cmdsGateway_rejects d e, cmdsProt_rejects d e, cmdsLane_rejects d e, cmdsHealth_rejects d e⟩

end

/-- A packet's command is the one that its opcode names. -/
theorem cmdByOp_commandOf (i : Instr) (c : CmdDef) (p : Packet) (h : commandOf i = some (c, p)) : cmdByOp c.op = some c := by
  cases i <;> first | (cases h; done) | (cases h; rfl)

theorem commandOf_mem_allCmds (i : Instr) (c : CmdDef) (p : Packet) (h : commandOf i = some (c, p)) : c ∈ allCmds :=
  List.mem_of_find?_eq_some (cmdByOp_commandOf i c p h)

/-! ### The checks as a whole -/

section
variable (c : CmdDef) (d : Dev) (e : Exec)

/-- Steps 1 to 4 reject with `DENIED` or `CONFLICT`. -/
theorem CmdDef.privilege_status (st : Status) (h : c.privilege d e = some st) : st = .denied ∨ st = .conflict := by
  unfold CmdDef.privilege at h
  grind

variable (hc : Rejects (c.forbid d e))
include hc

theorem CmdDef.stateForbids_rejects : Rejects (c.stateForbids d e) := by
  unfold CmdDef.stateForbids
  split
  case h_1 r hr => exact hr ▸ hc
  case h_2 => simp

theorem CmdDef.forbidden_rejects : Rejects (c.forbidden d e) := by
  have hs := c.stateForbids_rejects d e hc
  unfold CmdDef.forbidden
  dsimp only
  split
  · simp
  split
  · simp
  split
  case h_1 r hr => exact hr ▸ hs
  case h_2 => simp

/-- No check of 02 R45 answers `ARMED` or `STAGED`. -/
theorem CmdDef.refuse_rejects : Rejects (c.refuse d e) := by
  unfold CmdDef.refuse
  split
  case h_1 st hst => rcases c.privilege_status d e st hst with rfl | rfl <;> simp
  case h_2 =>
    split
    · simp
    · exact c.forbidden_rejects d e hc

end

/-- A DRY command that passes its checks, and is no read, is `DONE` (02 R42). -/
theorem runCmd_dry (c : CmdDef) (e : Exec) (d : Dev) (hr : c.refuse d e = none) (ho : c.ownFlow = false)
    (hd : Packet.dry e.pkt = true) (hc : c.read = false) : runCmd c e d = d.finish e .done [] := by
  simp [runCmd, hr, ho, hd, hc, Dev.ok]

/-- Settles O53: a DRY packet answers its first failing check, which is neither `ARMED` nor `STAGED`, and otherwise `DONE`. -/
theorem dryCommandsChangeNothing : Obligations.DryCommandsChangeNothing := by
  unfold Obligations.DryCommandsChangeNothing
  intro i c p s d hi hs hp hf hd hc hop
  have hforbid := allCmds_rejects (d.fetch p) (c.entry d p) c (commandOf_mem_allCmds i c p hi)
  cases hr : c.refuse (d.fetch p) (c.entry d p) with
  | some r =>
    obtain ⟨st, res⟩ := r
    obtain ⟨harmed, hstaged⟩ := c.refuse_rejects (d.fetch p) (c.entry d p) hforbid (st, res) hr
    exact ⟨st, res, exec_refused i c p s hi hs hp hf st res hr (.inr hd), harmed, hstaged⟩
  | none =>
    refine ⟨.done, [], ?_, by decide, by decide⟩
    rw [exec_unfenced i c p s hi hs hp hf, runCmd_dry c _ _ hr (own_flow i c p hi hop) hd hc, finish_fetch d p _ .done [] rfl rfl rfl rfl]
    rfl

end Sys2Proof.Machine
end

section
/-!
SUPPORT. Accepted packets that answer: the device that the effect makes, with the reply that it writes (02 R38), for each shape of
effect that the commands share.
-/
namespace Sys2Proof.Machine

/-! ### Changing a domain beside the fetch -/

/-- A change that leaves the ring order alone leaves every domain's next place as it was. -/
theorem Dev.setDom_nextSeq (d : Dev) (n k : Nat) (f : Dom → Dom) (hf : ∀ m, (f m).nextSeq = m.nextSeq) :
    ((d.setDom n f).dom k).nextSeq = (d.dom k).nextSeq := by
  by_cases h : k = n
  · subst h
    rw [Dev.dom_setDom, hf]
  · rw [Dev.dom_setDom_ne d n k f h]

/-! ### Shapes of an answer -/

section
variable (i : Instr) (c : CmdDef) (p : Packet) (s : State) (hi : commandOf i = some (c, p)) (h : c.accepts s.dev p)
include hi h

/-- The device `D` that the effect makes, answered. -/
theorem exec_answers (D : Dev) (st : Status) (res : List Nat) (hD : (D.dom p.ring).nextSeq = (s.dev.dom p.ring).nextSeq)
    (hr : c.run (c.entry s.dev p) (s.dev.fetch p) = (D.fetch p).finish (c.entry s.dev p) st res) :
    exec i s = .next { s with dev := (D.answer p c.op st res).settle } := by
  rw [exec_command i c p s hi, command_answers c p s D st res h hD hr]

/-- An effect that only answers. -/
theorem exec_reads (st : Status) (res : List Nat)
    (hr : c.run (c.entry s.dev p) (s.dev.fetch p) = (s.dev.fetch p).finish (c.entry s.dev p) st res) :
    exec i s = .next { s with dev := (s.dev.answer p c.op st res).settle } :=
  exec_answers i c p s hi h s.dev st res rfl hr

/-- An effect that sets a domain's registers and answers. -/
theorem exec_setsDom (n : Nat) (f : Dom → Dom) (st : Status) (res : List Nat)
    (hf : ∀ m : Dom, f { m with nextSeq := m.nextSeq + 1 } = { f m with nextSeq := (f m).nextSeq + 1 })
    (hn : ∀ m, (f m).nextSeq = m.nextSeq)
    (hr : c.run (c.entry s.dev p) (s.dev.fetch p) = ((s.dev.fetch p).setDom n f).finish (c.entry s.dev p) st res) :
    exec i s = .next { s with dev := ((s.dev.setDom n f).answer p c.op st res).settle } := by
  refine exec_answers i c p s hi h _ st res (s.dev.setDom_nextSeq n p.ring f hn) ?_
  rw [hr, fetch_setDom s.dev p n f hf]

/-- An effect that changes the open version's content and answers `STAGED` (02 R54). -/
theorem exec_stages (f : List VObj → List VObj)
    (hr : c.run (c.entry s.dev p) (s.dev.fetch p) = (s.dev.fetch p).stage (c.entry s.dev p) f) :
    exec i s = .next { s with dev := (s.dev.staged p c.op f).settle } :=
  exec_answers i c p s hi h { s.dev with vers := { s.dev.vers with openObjs := f s.dev.vers.openObjs } } .staged [] rfl hr

end

end Sys2Proof.Machine
end

section
/-!
SUPPORT. The system's status commands and settings (02 R47 to R52, R71 to R73; 17 R412).
-/
namespace Sys2Proof.Machine

/-! ### The map of two hops -/

theorem sumBy_eq_sum {α : Type} (l : List α) (f : α → Nat) : sumBy l f = (l.map f).sum := by
  rw [sumBy, List.sum_eq_foldl, List.foldl_map]

theorem sumBy_filter_le {α : Type} (l : List α) (q : α → Bool) (f : α → Nat) : sumBy (l.filter q) f ≤ sumBy l f := by
  rw [sumBy_eq_sum, sumBy_eq_sum]
  induction l with
  | nil => exact Nat.le_refl _
  | cons x t ih =>
    rw [List.filter_cons]
    split
    · simp only [List.map_cons, List.sum_cons]
      omega
    · simp only [List.map_cons, List.sum_cons]
      omega

/-- The two-hop map has the bits of the 8 DEV_IDs. -/
theorem Dev.twoHops_lt (d : Dev) (near : List Nat) : d.twoHops near < 256 := by
  unfold Dev.twoHops
  split
  · decide
  · exact Nat.lt_of_le_of_lt (sumBy_filter_le _ _ _) (by decide)

/-- Settles O1: each command's run is one final reply. -/
theorem systemReadsAnswer : Obligations.SystemReadsAnswer := by
  unfold Obligations.SystemReadsAnswer
  intro p s d
  refine ⟨fun h => ?epoch, fun h => ?version, fun h => ?mesh⟩
  case epoch => exact exec_reads _ cmdEpochQuery p s rfl h .done _ rfl
  case version => exact exec_reads _ cmdVersionQuery p s rfl h .done _ rfl
  case mesh =>
    exact ⟨_, d.twoHops_lt _, exec_answers _ cmdMeshStatus p s rfl h { d with freeCount := d.freeCount + 1 } .done _ rfl rfl⟩

/-! ### The heartbeat page -/

/-- What a final reply leaves on its ring. -/
theorem Dev.finish_dom (d : Dev) (e : Exec) (st : Status) (res : List Nat) :
    (d.finish e st res).dom e.dom = { d.dom e.dom with replyIdx := (d.dom e.dom).replyIdx + 1 } := Dev.dom_setDom _ _ _

/-- What a page leaves of its domain. -/
theorem Dev.writePage_dom (d : Dev) (n : Nat) :
    (d.writePage n).dom n = { d.dom n with hbSeq := (d.dom n).hbSeq + 1, hbRecovered := false } := Dev.dom_setDom _ _ _

@[simp] theorem length_beBytes (n v : Nat) : (beBytes n v).length = n := by
  induction n with
  | zero => rfl
  | succ n ih => simp [beBytes, ih]

theorem Dev.page_length (d : Dev) (n : Nat) : (d.page n).length = 256 := by
  simp only [Dev.page, List.length_append, length_beBytes, List.length_replicate]

/-- A domain's registers with a heartbeat page at an address, its next page due one period on (02 R47). -/
def Dom.withPage (m : Dom) (addr period now : Nat) : Dom :=
  { m with hbAddr := addr, hbPeriod := period, hbDue := now + 1000 * period }

/-- The device that a `HEARTBEAT_SET` with an address leaves, before its reply: the page is written at once. -/
def Dev.startPages (d : Dev) (e : Exec) (addr period : Nat) : Dev :=
  ((d.park e).setDom e.dom fun m => m.withPage addr period d.time.c).writePage e.dom

theorem cmdHeartbeatSet_run (d : Dev) (e : Exec) (h : ent e.par 16 8 ≠ 0) :
    cmdHeartbeatSet.run e d = (d.startPages e (ent e.par 16 8) (if ent e.par 24 4 = 0 then 100 else ent e.par 24 4)).finish e .done [] :=
  if_neg h

theorem Dev.dom_park (d : Dev) (e : Exec) (n : Nat) : (d.park e).dom n = d.dom n := by rw [Dev.park_frame]; rfl
theorem Dev.out_park (d : Dev) (e : Exec) : (d.park e).out = d.out := by rw [Dev.park_frame]
theorem Dev.time_park (d : Dev) (e : Exec) : (d.park e).time = d.time := by rw [Dev.park_frame]

theorem Dev.startPages_dom (d : Dev) (e : Exec) (addr period : Nat) : (d.startPages e addr period).dom e.dom =
    { (d.dom e.dom).withPage addr period d.time.c with hbSeq := (d.dom e.dom).hbSeq + 1, hbRecovered := false } := by
  rw [Dev.startPages, Dev.writePage_dom, Dev.dom_setDom, Dev.dom_park]
  rfl

theorem Dev.startPages_out (d : Dev) (e : Exec) (addr period : Nat) :
    ∃ page, page.length = 256 ∧ (d.startPages e addr period).out = d.out ++ [.hostWrite addr page] := by
  refine ⟨_, Dev.page_length ((d.park e).setDom e.dom fun m => m.withPage addr period d.time.c) e.dom, ?_⟩
  simp [Dev.startPages, Dev.writePage, Dev.out_park, Dev.dom_setDom, Dom.withPage]

/-- The domain behind a fetch. -/
theorem Dev.fetch_dom (d : Dev) (p : Packet) : (d.fetch p).dom p.ring = { d.dom p.ring with nextSeq := (d.dom p.ring).nextSeq + 1 } :=
  Dev.dom_setDom _ _ _

section
variable (d : Dev) (p : Packet) (e : Exec) (hd : e.dom = p.ring) (addr period : Nat)
include hd

/-- The registers of a domain that has started its pages and answered. -/
theorem Dev.startPages_finish_dom : (((d.fetch p).startPages e addr period).finish e .done []).dom p.ring =
    { (d.dom p.ring).withPage addr period d.time.c with
      hbSeq := (d.dom p.ring).hbSeq + 1, hbRecovered := false, nextSeq := (d.dom p.ring).nextSeq + 1,
      replyIdx := (d.dom p.ring).replyIdx + 1 } := by
  rw [← hd, Dev.finish_dom, Dev.startPages_dom, hd, Dev.fetch_dom]
  rfl

/-- What leaves the device then: the first page, and the reply. -/
theorem Dev.startPages_finish_out (hp : e.pkt = p) (ht : e.stamp = none) :
    ∃ page, page.length = 256 ∧ (((d.fetch p).startPages e addr period).finish e .done []).out =
      d.out ++ [.hostWrite addr page, d.replyOut p e.op .done []] := by
  obtain ⟨page, hlen, hout⟩ := (d.fetch p).startPages_out e addr period
  refine ⟨page, hlen, ?_⟩
  have hdom := (d.fetch p).startPages_dom e addr period
  rw [hd, Dev.fetch_dom] at hdom
  have hunparked : (((d.fetch p).startPages e addr period).unpark e).dom p.ring = ((d.fetch p).startPages e addr period).dom p.ring := rfl
  have hnow : ((d.fetch p).startPages e addr period).now = d.now := by
    apply Dev.now_congr
    simp [Dev.startPages, Dev.writePage, Dev.time_park]
  have hreply : (((d.fetch p).startPages e addr period).finish e .done []).out =
      ((d.fetch p).startPages e addr period).out ++ [d.replyOut p e.op .done []] := by
    simp only [Dev.finish, Dev.reply, hd, hp, ht, hunparked, hdom, hnow, Option.getD_none, Dev.replyOut]
    rfl
  rw [hreply, hout]
  simp

end

/-! ### The owners of handles -/

theorem Dev.setOwners_nextSeq (d : Dev) (b : Bytes) (t : Tbl Nat) (n : Nat) : ((d.setOwners b t).dom n).nextSeq = (d.dom n).nextSeq := by
  unfold Dev.setOwners
  split <;> rfl

theorem Dev.fetch_setOwners (d : Dev) (p : Packet) (b : Bytes) (t : Tbl Nat) : (d.fetch p).setOwners b t = (d.setOwners b t).fetch p := by
  unfold Dev.setOwners
  split <;> rfl

/-- Settles O2: each command sets what the statement writes and answers; a disable stays in execution with its drain. -/
theorem systemSettingsChange : Obligations.SystemSettingsChange := by
  unfold Obligations.SystemSettingsChange
  constructor
  · intro p s d b
    refine ⟨fun h => ?pin, fun h h0 => ?stop, fun h h0 => ?page, fun h => ?grant, fun h => ?revoke⟩
    case pin =>
      exact exec_answers _ cmdEpochPin p s rfl h { d with sys := { d.sys with epochPin := BitVec.ofNat 16 (ent b 16 2) } } .done [] rfl rfl
    case stop =>
      exact exec_setsDom _ cmdHeartbeatSet p s rfl h p.ring (fun m => { m with hbAddr := 0 }) .done [] (fun _ => rfl) (fun _ => rfl)
        (if_pos h0)
    case page =>
      have hrun := exec_accepted (.heartbeatSet p) cmdHeartbeatSet p s rfl h
      rw [cmdHeartbeatSet_run _ _ h0] at hrun
      have hdom := d.startPages_finish_dom p (cmdHeartbeatSet.entry d p) rfl (ent b 16 8) (if ent b 24 4 = 0 then 100 else ent b 24 4)
      exact ⟨_, hrun, congrArg Dom.hbAddr hdom, congrArg Dom.hbPeriod hdom, congrArg Dom.hbDue hdom, congrArg Dom.hbSeq hdom,
        d.startPages_finish_out p (cmdHeartbeatSet.entry d p) rfl _ _ rfl rfl⟩
    case grant =>
      exact exec_answers _ cmdDomainGrant p s rfl h _ .done _ (d.setOwners_nextSeq b _ p.ring)
        (congrArg (Dev.finish · _ .done _) (d.fetch_setOwners p b _))
    case revoke =>
      exact exec_answers _ cmdDomainRevoke p s rfl h _ .done _ (d.setOwners_nextSeq b _ p.ring)
        (congrArg (Dev.finish · _ .done _) (d.fetch_setOwners p b _))
  · intro p s d b
    refine ⟨fun h => exec_accepted _ cmdDomainDisable p s rfl h, fun h => ?_⟩
    exact exec_setsDom _ cmdDomainEnable p s rfl h (ent b 16 1) (fun m => { m with disabled := false }) .done [] (fun _ => rfl)
      (fun _ => rfl) rfl

end Sys2Proof.Machine
end

section
/-!
SUPPORT. Versioned commands (02 R54, R60), and the commands that open, abort, limit and commit a version (02 R56 to R58, R66).
-/
namespace Sys2Proof.Machine

/-- A command that stages or removes one object: its run is the staging that `stageOne` describes. -/
theorem exec_stagesOne (i : Instr) (c : CmdDef) (p : Packet) (s : State) (key : Bytes) (remove : Bool) (hi : commandOf i = some (c, p))
    (hr : c.run (c.entry s.dev p) (s.dev.fetch p) =
      (s.dev.fetch p).stage (c.entry s.dev p) (stageOne c.op key (Packet.bytes p) remove)) (h : c.accepts s.dev p) :
    exec i s = .next { s with dev := (s.dev.staged p c.op (stageOne c.op key (Packet.bytes p) remove)).settle } :=
  exec_stages i c p s hi h _ hr

/-- Settles O10: each command's run is the staging of one object under its key. -/
theorem versionedCommandsStageOneObject : Obligations.VersionedCommandsStageOneObject := by
  unfold Obligations.VersionedCommandsStageOneObject
  intro p s d b stages
  and_intros
  all_goals exact exec_stagesOne _ _ p s _ _ rfl rfl

/-- A commit that does not exist ends without a trace. -/
theorem Dev.endCommit_none (d : Dev) (st : Status) (h : d.vers.commit = none) : d.endCommit st = d := by
  unfold Dev.endCommit
  rw [h]
  show d.setVers _ = d
  rw [Dev.setVers, ← h]

/-- The record of a commit that is neither DRY nor AT_BEACON. -/
theorem cmdVersionCommit_run (d : Dev) (e : Exec) (hd : Packet.dry e.pkt = false) (hb : Packet.atBeacon e.pkt = false) :
    cmdVersionCommit.run e d = (d.park e).setVers fun v =>
      { v with commit := some ⟨e.dom, e.seq, ent e.par 16 4, slice e.par 8 32, ent e.par 56 8, false, none, .checking, []⟩ } := by
  simp [cmdVersionCommit, hd, hb]

/-- Settles O6: opening, aborting and the limit answer; a commit stays in execution with its record. -/
theorem versionCommandsChangeTheOpenVersion : Obligations.VersionCommandsChangeTheOpenVersion := by
  unfold Obligations.VersionCommandsChangeTheOpenVersion
  intro p s d b
  refine ⟨fun h => ?opens, fun h hnone => ?aborts, fun h => ?limits, fun h => ?commits⟩
  case opens =>
    exact exec_answers _ cmdVersionOpen p s rfl h
      { d with vers := { d.vers with openNum := ent b 16 4, highest := ent b 16 4, openObjs := d.objs } } .done [] rfl rfl
  case aborts =>
    have hrun : cmdVersionAbort.run (cmdVersionAbort.entry d p) (d.fetch p) =
        ((d.fetch p).setVers fun v => { v with openNum := 0, openObjs := [] }).finish (cmdVersionAbort.entry d p) .done [] := by
      show Dev.ok (((d.fetch p).endCommit .abandoned).setVers _) _ = _
      rw [(d.fetch p).endCommit_none .abandoned hnone]
      rfl
    exact exec_answers _ cmdVersionAbort p s rfl h { d with vers := { d.vers with openNum := 0, openObjs := [] } } .done [] rfl hrun
  case limits =>
    exact exec_answers _ cmdVersionRetireLimit p s rfl h
      { d with vers := { d.vers with retireMs := if ent b 16 4 = 0 then 500 else ent b 16 4 } } .done [d.vers.retireMs] rfl rfl
  case commits =>
    obtain ⟨_, ⟨_, _, hbeacon, hdry⟩, _⟩ := id h
    have hrun := cmdVersionCommit_run (d.fetch p) (cmdVersionCommit.entry d p) hdry hbeacon
    rw [exec_accepted (.versionCommit p) cmdVersionCommit p s rfl h, hrun]
    rfl

end Sys2Proof.Machine
end

section
/-!
SUPPORT. The fetch of the next entry (02 R36, R37, R41).
-/
namespace Sys2Proof.Machine

/-- With no held command that may start, the fetch starts none. -/
theorem Dev.startHeld_none (d : Dev) (n : Nat) (h : d.heldReady? = none) : d.startHeld n = d := by
  cases n with
  | zero => rfl
  | succ n => simp [Dev.startHeld, h]

/-- The device behind a fetch in domain `n`'s turn, before the entry acts. -/
def Dev.turnTaken (d : Dev) (n : Nat) : Dev := { d with rotor := (n + 1) % 16, prot := { d.prot with hung := false } }

section
variable (d : Dev) (hf : d.sys.fatal = false) (entry buf : Option Bytes)
include hf

theorem commandFetch_noTurn (h : (d.startHeld d.execs.length).turn? = none) :
    commandFetch entry buf d = d.startHeld d.execs.length := by
  simp [commandFetch, hf, h]

variable (n : Nat) (h : (d.startHeld d.execs.length).turn? = some n)
include h

theorem commandFetch_entry (b : Bytes) : commandFetch (some b) buf d =
    (((d.startHeld d.execs.length).turnTaken n).setDom n fun m => { m with consumer := m.consumer + 1 }).startOp (field b 0 2)
      (packetOf n b buf) := by
  simp [commandFetch, hf, h, Dev.turnTaken]

theorem commandFetch_failed : commandFetch none buf d =
    ((d.startHeld d.execs.length).turnTaken n).setDom n
      fun m => { m with err := 3#4, errCount := min 255 (m.errCount + 1), active := false } := by
  simp [commandFetch, hf, h, Dev.turnTaken, Dom.ringError_eq]

end

/-- Settles O5: the held commands start, and then the domain whose turn it is takes its entry, if there is one. -/
theorem fetchTakesTheNextEntry : Obligations.FetchTakesTheNextEntry := by
  unfold Obligations.FetchTakesTheNextEntry
  intro s n entry buf d next hs
  obtain ⟨hr, hf⟩ := hs
  have fetches : ∀ (e : Option Bytes) (t : Dev), commandFetch e buf s.dev = t →
      exec (.commandFetch e buf) s = .next { s with dev := t.settle } := fun e t ht => by
    rw [← ht]
    exact live_running _ s hr
  exact ⟨s.dev.startHeld_none _, fun h => fetches _ _ (commandFetch_entry s.dev hf buf n h entry),
    fun h => fetches _ _ (commandFetch_failed s.dev hf buf n h), fun h e => fetches e _ (commandFetch_noTurn s.dev hf e buf h)⟩

end Sys2Proof.Machine
end

section
/-!
SUPPORT. Which frames a discard leaves: none that meets its test.
-/
namespace Sys2Proof.Machine

section
variable (p : Frame → Bool)

theorem not_of_mem_filter {α : Type} (q : α → Bool) (l : List α) (x : α) (h : x ∈ l.filter fun y => !q y) : q x = false := by
  simpa using (List.mem_filter.1 h).2

theorem Queue.not_of_mem_without (q : Queue) (x : Frame) (h : x ∈ (q.without p).all) : p x = false := by
  simp only [Queue.without, Queue.all, List.mem_append, List.mem_map, List.mem_filter, Bool.not_eq_true'] at h
  rcases h with (⟨_, hx⟩ | ⟨r, ⟨_, hr⟩, rfl⟩) | ⟨_, hx⟩
  · exact hx
  · exact hr
  · exact hx

/-- What a filtered register still holds does not meet the test. -/
theorem not_of_mem_keep {α : Type} (o : Option α) (frame : α → Frame) (x : Frame)
    (h : x ∈ (o.filter fun s => !p (frame s)).toList.map frame) : p x = false := by
  obtain ⟨s, hs, rfl⟩ := List.mem_map.1 h
  simpa using (Option.filter_eq_some_iff.1 (Option.mem_toList.1 hs)).2

theorem Tbl.mem_mapAll {α : Type} (t : Tbl α) (f : Nat → α → α) (e : Nat × α) (h : e ∈ t.mapAll f) : ∃ k v, e = (k, f k v) := by
  obtain ⟨x, _, rfl⟩ := List.mem_map.1 h
  exact ⟨_, _, rfl⟩

/-- No frame that is discarded stays anywhere in the device. -/
theorem Dev.not_of_mem_dropFrames (d : Dev) (x : Frame) (h : x ∈ (d.dropFrames p).allFrames) : p x = false := by
  simp only [Dev.dropFrames, Dev.allFrames, List.mem_append, List.mem_flatMap] at h
  rcases h with ((((((⟨e, he, hx⟩ | hx) | ⟨e, he, hx⟩) | ⟨e, he, hx⟩) | ⟨e, he, hx⟩) | ⟨e, he, hx⟩) | hx) | hx
  case inl.inl.inl.inl.inl.inl.inl =>
    obtain ⟨k, q, rfl⟩ := Tbl.mem_mapAll _ _ e he
    exact hx.elim (not_of_mem_filter p _ x) (not_of_mem_filter p _ x)
  case inl.inl.inl.inl.inl.inl.inr =>
    obtain ⟨v, hv, rfl⟩ := List.mem_map.1 hx
    exact not_of_mem_filter (fun v => p v.frame) _ v hv
  case inl.inl.inl.inl.inl.inr =>
    obtain ⟨k, f, rfl⟩ := Tbl.mem_mapAll _ _ e he
    refine hx.elim (Queue.not_of_mem_without p f.queue x) fun hx => ?_
    obtain ⟨r, hr, rfl⟩ := List.mem_map.1 hx
    exact not_of_mem_filter (fun r => p r.2) _ r hr
  case inl.inl.inl.inl.inr =>
    obtain ⟨k, c, rfl⟩ := Tbl.mem_mapAll _ _ e he
    exact hx.elim (fun hx => hx.elim (not_of_mem_filter p _ x) (not_of_mem_keep p _ Sending.frame x)) (not_of_mem_keep p _ Sending.frame x)
  case inl.inl.inl.inr =>
    obtain ⟨k, q, rfl⟩ := Tbl.mem_mapAll _ _ e he
    rw [List.map_append, List.mem_append] at hx
    refine hx.elim (fun hx => ?_) (fun hx => hx.elim (not_of_mem_keep p _ PortSend.frame x) (not_of_mem_keep p _ PortSend.frame x))
    obtain ⟨_, hq, hx⟩ := hx
    obtain ⟨q, _, rfl⟩ := List.mem_map.1 hq
    exact q.not_of_mem_without p x hx
  case inl.inl.inr =>
    obtain ⟨k, r, rfl⟩ := Tbl.mem_mapAll _ _ e he
    exact not_of_mem_filter p _ x hx
  case inl.inr =>
    obtain ⟨r, hr, rfl⟩ := List.mem_map.1 hx
    exact not_of_mem_filter (fun r => p r.2) _ r hr
  case inr =>
    obtain ⟨r, hr, rfl⟩ := List.mem_map.1 hx
    exact not_of_mem_filter (fun r => p r.2.2) _ r hr

end

end Sys2Proof.Machine
end

section
/-!
SUPPORT. The end of a commit's checks, its completion, and the retirement of versions (02 R61 to R65, R68).
-/
namespace Sys2Proof.Machine

section
variable (s : State) (h : s.dev.sys.inReset = false)
include h

theorem exec_commitChecksEnd : exec .commitChecksEnd s = .next { s with dev := (commitChecksEnd s.dev).settle } := live_running _ s h

theorem exec_commitDone : exec .commitDone s = .next { s with dev := (commitDone s.dev).settle } := live_running _ s h

theorem exec_versionRetire (slot : Nat) : exec (.versionRetire slot) s = .next { s with dev := (versionRetire slot s.dev).settle } :=
  live_running _ s h

theorem exec_retirementLimitExpiry (slot : Nat) :
    exec (.retirementLimitExpiry slot) s = .next { s with dev := (retirementLimitExpiry slot s.dev).settle } := live_running _ s h

end

/-! ### The end of the checks (R61 to R63) -/

section
variable (d : Dev) (c : Commit) (e : Exec) (hc : d.vers.commit = some c) (hp : c.phase = .checking) (he : d.exec? c.dom c.seq = some e)
include hc hp he

theorem commitChecksEnd_failed (f : Failure) (fs : List Failure) (hf : d.commitFailures c = f :: fs) : commitChecksEnd d =
    (if c.report = 0 then d else d.hostWrite c.report (reportBytes (f :: fs))).refuseCommit e .refused
      [f.cls, f.word, f.detail, fs.length + 1] := by
  simp only [commitChecksEnd, hc, hp, he, hf, List.length_cons]

variable (hf : d.commitFailures c = [])
include hf

theorem commitChecksEnd_busy (hm : d.memoryBusy = true) : commitChecksEnd d = d.refuseCommit e .busy [] := by
  simp only [commitChecksEnd, hc, hp, he, hf, hm, if_true]

variable (hm : d.memoryBusy = false)
include hm

theorem commitChecksEnd_immediate (hb : c.beacon = none) : commitChecksEnd d =
    if c.dry then d.refuseCommit e .done [] else d.setVers fun v => { v with
      commit := some { c with phase := .waiting (d.frameAfter 250000), places := d.placesOf d.vers.openObjs } } := by
  simp only [commitChecksEnd, hc, hp, he, hf, hm, hb, Bool.false_eq_true, if_false]

theorem commitChecksEnd_beacon (b : Nat) (hb : c.beacon = some b) :
    commitChecksEnd d = d.armCommit e { c with places := d.placesOf d.vers.openObjs } b := by
  simp only [commitChecksEnd, hc, hp, he, hf, hm, hb, Bool.false_eq_true, if_false]

end

/-! ### A commit on a beacon (R63, R46) -/

section
variable (d : Dev) (e : Exec) (c : Commit) (b : Nat)

theorem Dev.armCommit_unset (h : (d.beacon b).state = .unset) : d.armCommit e c b = d.refuseCommit e .badParam [] := if_pos h

variable (h : (d.beacon b).state ≠ .unset)
include h

theorem Dev.armCommit_late (hg : (d.beacon b).state = .fired ∨ (d.beacon b).state = .missed ∨ tdiff (d.beacon b).instant d.now < 250000) :
    d.armCommit e c b = d.refuseCommit e .late [] := (if_neg h).trans (if_pos hg)

variable (hg : ¬((d.beacon b).state = .fired ∨ (d.beacon b).state = .missed ∨ tdiff (d.beacon b).instant d.now < 250000))
include hg

theorem Dev.armCommit_full (hn : 16 ≤ (d.armedOn b).length) : d.armCommit e c b = d.refuseCommit e .noRoom [] :=
  (if_neg h).trans ((if_neg hg).trans (if_pos hn))

variable (hn : ¬16 ≤ (d.armedOn b).length)
include hn

theorem Dev.armCommit_dry (hd : c.dry = true) : d.armCommit e c b = d.refuseCommit e .done [] :=
  (if_neg h).trans ((if_neg hg).trans ((if_neg hn).trans (if_pos hd)))

theorem Dev.armCommit_armed (hd : c.dry = false) :
    d.armCommit e c b = (d.setVers fun v => { v with commit := some { c with phase := .armed b } }).arm e :=
  (if_neg h).trans ((if_neg hg).trans ((if_neg hn).trans (if_neg (Bool.eq_false_iff.1 hd))))

end

/-! ### The switch done, and retirement (R64, R65, R68) -/

/-- The outputs light behind a switch, unless a fatal fault keeps them dark. -/
def Dev.light (d : Dev) (rest : List Commit) : Dev :=
  Dev.relink { d with vers := { d.vers with switched := rest }, sys := { d.sys with dark := d.sys.fatal } }

theorem commitDone_switched (d : Dev) (c : Commit) (rest : List Commit) (slot instant : Nat) (e : Exec) (hs : d.vers.switched = c :: rest)
    (hp : c.phase = .switched slot instant) (he : (d.light rest).exec? c.dom c.seq = some e) :
    commitDone d = (d.light rest).finish e .done [c.version, slot, instant % 2 ^ 32, (d.light rest).live] := by
  unfold commitDone
  simp only [hs, hp]
  show (d.light rest).finishId c.dom c.seq .done [c.version, slot, instant % 2 ^ 32, (d.light rest).live] = _
  simp only [Dev.finishId, he]

section
variable (d : Dev) (slot : Nat)

theorem versionRetire_free (h : ∀ x ∈ d.allFrames, x.slot ≠ slot) : versionRetire slot d = d.retire slot :=
  if_neg (by simpa using h)

theorem versionRetire_carried (h : ∃ x ∈ d.allFrames, x.slot = slot) : versionRetire slot d = d := if_pos (by simpa using h)

theorem Dev.not_mem_retire (v : Version) (h : v ∈ (d.retire slot).vers.retiring) : v.slot ≠ slot := by
  simpa using (List.mem_filter.1 h).2

@[simp] theorem Dev.settle_allFrames : d.settle.allFrames = d.allFrames := rfl

@[simp] theorem Dev.retire_allFrames : (d.retire slot).allFrames = d.allFrames := rfl

@[simp] theorem Dev.dropFrames_time (p : Frame → Bool) : (d.dropFrames p).time = d.time := d.freeFrames_time _

@[simp] theorem Dev.countSome_time (a n : Nat) : (d.countSome a n).time = d.time := by
  unfold Dev.countSome
  split
  · rfl
  · exact d.countBy_time a n

@[simp] theorem Dev.countSome_allFrames (a n : Nat) : (d.countSome a n).allFrames = d.allFrames := by
  unfold Dev.countSome
  split
  · rfl
  · rw [Dev.countBy_frame]
    rfl

/-- The device at a version's limit: its instant has come, and the packets that carry the slot are gone and counted. -/
def Dev.atLimit (d : Dev) (r : Version) (slot : Nat) : Dev :=
  ((d.goCounter r.due).dropFrames fun x => x.slot == slot).countSome 0x3E00 (d.allFrames.filter fun x => x.slot == slot).length

theorem retirementLimitExpiry_due (r : Version) (h : (d.vers.retiring.find? fun v => v.slot == slot) = some r) :
    retirementLimitExpiry slot d = (d.atLimit r slot).retire slot := by
  simp only [retirementLimitExpiry, h]
  rfl

theorem Dev.atLimit_slot (r : Version) (x : Frame) (h : x ∈ (d.atLimit r slot).allFrames) : x.slot ≠ slot := by
  rw [Dev.atLimit, Dev.countSome_allFrames] at h
  simpa using Dev.not_of_mem_dropFrames _ _ x h

theorem Dev.atLimit_time (r : Version) : (d.atLimit r slot).time.c = max d.time.c r.due := by simp [Dev.atLimit]

end

/-- Settles O7: the ends of the checks, the commit that lights the outputs, and the two ways in which a version leaves its slot. -/
theorem commitsFinishAndVersionsRetire : Obligations.CommitsFinishAndVersionsRetire := by
  unfold Obligations.CommitsFinishAndVersionsRetire
  refine ⟨?checks, ?done, ?retire⟩
  case checks =>
    intro s c e d hr hc hp he
    have ends : ∀ t : Dev, commitChecksEnd d = t → exec .commitChecksEnd s = .next { s with dev := t.settle } := fun t ht => by
      rw [exec_commitChecksEnd s hr, ← ht]
    refine ⟨fun f fs hf hrep => ends _ ?_, fun f fs hf hrep => ends _ ?_, fun hf hm => ends _ ?_, fun hf hm hb hd => ends _ ?_,
      fun hf hm hb hd => ends _ ?_, fun b hf hm hb => ?beacon⟩
    · rw [commitChecksEnd_failed d c e hc hp he f fs hf, if_neg hrep]
      rfl
    · rw [commitChecksEnd_failed d c e hc hp he f fs hf, if_pos hrep]
      rfl
    · rw [commitChecksEnd_busy d c e hc hp he hf hm]
      rfl
    · rw [commitChecksEnd_immediate d c e hc hp he hf hm hb, if_pos hd]
      rfl
    · rw [commitChecksEnd_immediate d c e hc hp he hf hm hb, if_neg (Bool.eq_false_iff.1 hd)]
      rfl
    case beacon =>
      have hbeacon := commitChecksEnd_beacon d c e hc hp he hf hm b hb
      exact ⟨fun h => ends _ (hbeacon.trans (d.armCommit_unset e _ b h)), fun h hg => ends _ (hbeacon.trans (d.armCommit_late e _ b h hg)),
        fun h hg hn => ends _ (hbeacon.trans (d.armCommit_full e _ b h hg hn)),
        fun h hg hn hd => ends _ (hbeacon.trans (d.armCommit_dry e _ b h hg hn hd)),
        fun h hg hn hd => ends _ (hbeacon.trans (d.armCommit_armed e _ b h hg hn hd))⟩
  case done =>
    intro s c rest slot instant e d lit hr hs hp he
    rw [exec_commitDone s hr, commitDone_switched s.dev c rest slot instant e hs hp he]
    rfl
  case retire =>
    intro s slot r d hr
    refine ⟨fun hfree => ?free, fun hheld => ?carried, fun hfind => ?limit⟩
    case free =>
      rw [exec_versionRetire s hr, versionRetire_free d slot hfree]
      rfl
    case carried => rw [exec_versionRetire s hr, versionRetire_carried d slot hheld]
    case limit =>
      refine ⟨_, exec_retirementLimitExpiry s hr slot, ?_⟩
      rw [retirementLimitExpiry_due d slot r hfind]
      refine ⟨Dev.not_mem_retire _ slot, d.atLimit_time slot r, fun x hx => ?_, rfl⟩
      rw [Dev.settle_allFrames, Dev.retire_allFrames] at hx
      exact d.atLimit_slot slot r x hx

end Sys2Proof.Machine
end

section
/-!
SUPPORT. The classifier's commands (07 R181, R182, R187, R188, R192, R194): what the run of each is in each case.
-/
namespace Sys2Proof.Machine

section
variable (d : Dev) (e : Exec)

/-! ### CLS_RULE_SET -/

theorem cmdClsRuleSet_removes (h : bit (field e.par 1 1) 0 = true) : cmdClsRuleSet.run e d = d.stage e fun objs =>
    (List.range (field e.par 8 4)).foldl (fun o i => delObj o 0x0604 (slice e.par 0 1 ++ beBytes 4 (field e.par 4 4 + i))) objs := by
  simp only [cmdClsRuleSet, h, if_true]

theorem cmdClsRuleSet_writes (h : bit (field e.par 1 1) 0 = false) : cmdClsRuleSet.run e d = d.stage e fun objs =>
    (List.range (field e.par 8 4)).foldl (fun o i => putObj o ⟨0x0604, slice e.par 0 1 ++ beBytes 4 (field e.par 4 4 + i),
      slice e.par 0 1 ++ [0#8, 0#8, 0#8] ++ beBytes 4 (field e.par 4 4 + i) ++ slice e.par (16 + 64 * i) 64⟩) objs := by
  simp only [cmdClsRuleSet, h, Bool.false_eq_true, if_false]

/-! ### CLS_ENTRY_SET -/

theorem cmdClsEntrySet_stages (h : clsEntryKind d e.pkt e.par = .versioned) : cmdClsEntrySet.run e d =
    d.stage e (stageOne 0x0605 (slice e.par 0 1 ++ slice e.par 2 2) (patch e.par 1 [0#8]) (bit (field e.par 1 1) 0)) :=
  if_pos h

/-- The subscriber entry that a write makes (07 R192). -/
def Exec.subEntry (e : Exec) : SubEntry :=
  let w := (e.par.length - 12) / 2
  ⟨field e.par 4 8, slice e.par 12 w, slice e.par (12 + w) w, e.dom⟩

variable (h : clsEntryKind d e.pkt e.par ≠ .versioned)
include h

theorem cmdClsEntrySet_removes (hb : bit (field e.par 1 1) 0 = true) : cmdClsEntrySet.run e d =
    { d with cls := { d.cls with sub := d.cls.sub.del (field e.par 0 1 * 65536 + field e.par 2 2) } }.finish e .done [] := by
  simp only [cmdClsEntrySet, if_neg h, hb, if_true, Dev.ok]

theorem cmdClsEntrySet_writes (hb : bit (field e.par 1 1) 0 = false) : cmdClsEntrySet.run e d =
    { d with cls := { d.cls with sub := d.cls.sub.put (field e.par 0 1 * 65536 + field e.par 2 2) e.subEntry } }.finish e .done [] := by
  simp only [cmdClsEntrySet, Exec.subEntry, if_neg h, hb, Bool.false_eq_true, if_false, Dev.ok]

end

section
variable (d : Dev) (e : Exec)

/-! ### CLS_ENTRY_READ, CLS_SEARCH -/

theorem cmdClsEntryRead_entry (t : ClsTable) (x : AssocEntry) (owner : Nat) (ht : clsTable? d.objs (ent e.par 16 1) = some t)
    (hx : d.entryAt? t (ent e.par 18 2) = some (x, owner)) : cmdClsEntryRead.run e d =
      (d.hostWrite (ent e.par 24 8)
        (slice e.par 0 1 ++ beBytes 1 (owner * 16) ++ beBytes 2 x.addr ++ beBytes 8 x.action ++ x.value ++ x.mask)).finish e .done [] := by
  simp only [cmdClsEntryRead, ht, Option.bind_some, hx, Dev.ok]

/-- The entries of a table that a search matches, from its first address on. -/
def Dev.searchHits (d : Dev) (b : Bytes) (t : ClsTable) : List AssocEntry :=
  (d.assocMatches d.objs (beNat (slice b 16 128)) t).filter fun x => decide (field b 4 4 ≤ x.addr)

variable (t : ClsTable) (ht : clsTable? d.objs (field e.par 0 1) = some t)
include ht

theorem cmdClsSearch_nothing (h : d.searchHits e.par t = []) : cmdClsSearch.run e d = d.finish e .done [0xFFFFFFFF] := by
  unfold Dev.searchHits at h
  simp only [cmdClsSearch, ht, h]

theorem cmdClsSearch_found (x : AssocEntry) (rest : List AssocEntry) (h : d.searchHits e.par t = x :: rest) :
    cmdClsSearch.run e d = d.finish e .done [x.addr, if rest = [] then 0 else 1, x.action / 2 ^ 32, x.action % 2 ^ 32] := by
  unfold Dev.searchHits at h
  have hmore : b2n (!rest.isEmpty) = if rest = [] then 0 else 1 := by cases rest <;> rfl
  simp only [cmdClsSearch, ht, h, hmore]

end

/-- Settles O19: versioned commands stage, a subscriber entry is written or removed at once, and each read is one final reply. -/
theorem classifierCommandsAct : Obligations.ClassifierCommandsAct := by
  unfold Obligations.ClassifierCommandsAct
  refine ⟨fun p s => ?staged, fun p s => ?entries, fun p s => ?reads⟩
  case staged =>
    intro d b
    exact ⟨exec_stagesOne (.clsTableSet p) cmdClsTableSet p s (slice b 0 1) (ent b 17 1 == 0) rfl rfl,
      exec_stagesOne (.clsProgramSet p) cmdClsProgramSet p s (slice b 0 1) (bit (ent b 17 1) 0) rfl rfl,
      exec_stagesOne (.clsBindSet p) cmdClsBindSet p s (slice b 0 2) (bit (ent b 20 1) 0) rfl rfl,
      fun h hb => exec_stages _ cmdClsRuleSet p s rfl h _ (cmdClsRuleSet_removes (d.fetch p) (cmdClsRuleSet.entry d p) hb),
      fun h hb => exec_stages _ cmdClsRuleSet p s rfl h _ (cmdClsRuleSet_writes (d.fetch p) (cmdClsRuleSet.entry d p) hb),
      fun h hk => exec_stages _ cmdClsEntrySet p s rfl h _ (cmdClsEntrySet_stages (d.fetch p) (cmdClsEntrySet.entry d p) hk)⟩
  case entries =>
    intro d b i w h hk
    exact ⟨fun hb => exec_answers _ cmdClsEntrySet p s rfl h { d with cls := { d.cls with sub := d.cls.sub.del i } } .done [] rfl
        (cmdClsEntrySet_removes (d.fetch p) (cmdClsEntrySet.entry d p) hk hb),
      fun hb => exec_answers _ cmdClsEntrySet p s rfl h
        { d with cls := { d.cls with sub := d.cls.sub.put i ⟨field b 4 8, slice b 12 w, slice b (12 + w) w, p.ring⟩ } } .done [] rfl
        (cmdClsEntrySet_writes (d.fetch p) (cmdClsEntrySet.entry d p) hk hb)⟩
  case reads =>
    intro d b isOpen
    refine ⟨fun t x owner h ht hx => ?entry, fun t h ht => ⟨fun hnone => ?nothing, fun x rest hfound => ?found⟩, fun h => ?usage⟩
    case entry =>
      exact exec_answers _ cmdClsEntryRead p s rfl h (d.hostWrite _ _) .done [] rfl
        (cmdClsEntryRead_entry (d.fetch p) (cmdClsEntryRead.entry d p) t x owner ht hx)
    case nothing =>
      exact exec_reads _ cmdClsSearch p s rfl h .done _ (cmdClsSearch_nothing (d.fetch p) (cmdClsSearch.entry d p) t ht hnone)
    case found =>
      exact exec_reads _ cmdClsSearch p s rfl h .done _ (cmdClsSearch_found (d.fetch p) (cmdClsSearch.entry d p) t ht x rest hfound)
    case usage => exact exec_reads _ cmdClsUsage p s rfl h .done _ rfl

end Sys2Proof.Machine
end

section
/-!
SUPPORT. The gateway's commands (13 R322, R324, R336, R337): the page swap at its beacon, and the bins that a read writes.
-/
namespace Sys2Proof.Machine

/-- A page swap whose own rules hold at its beacon moves the active page and answers with the beacon's instant (02 R46). -/
theorem fireCmd_tsiPageSwap (d : Dev) (e x : Exec) (instant : Nat) (hx : x = { e with armed := none, stamp := some instant })
    (h : cmdTsiPageSwap.forbid (d.park x) x = none) : fireCmd cmdTsiPageSwap e instant d =
      Dev.finish { d.park x with tdm := { d.tdm with page := ent e.par 16 1 } } x .done [instant % 2 ^ 32, ent e.par 16 1] := by
  have hstate : cmdTsiPageSwap.stateForbids (d.park x) x = none := by
    have hguarded : ¬(cmdTsiPageSwap.guarded = true ∧ (d.park x).breaks (cmdTsiPageSwap.run x (d.park x)) = true) := fun hg => nomatch hg.1
    simp only [CmdDef.stateForbids, h, if_neg hguarded]
  have htdm : (d.park x).tdm = d.tdm := by rw [Dev.park_frame]
  subst hx
  simp only [fireCmd, CmdDef.versionForbids, hstate]
  rw [← htdm]
  rfl

/-- The bin of an entity as a read writes it (13 R336). -/
def Dev.binBytes (d : Dev) (i : Nat) (k : Nat × Nat) : Bytes :=
  ((((d.tdm.pms.find? fun q => q.1 == k).map Prod.snd).getD (freshPm d.now)).bin i).bytes (i == 0 || i == 17)

theorem cmdTdmPmRead_entity (d : Dev) (e : Exec) (k : Nat × Nat) (h : d.entityOf (ent e.par 16 4) = some k) : cmdTdmPmRead.run e d =
    (d.hostWrite (ent e.par 24 8) (if adKind (ent e.par 16 4) = 1 ∧ adAu (ent e.par 16 4) = 0 then
      d.binBytes (ent e.par 20 1) (k.1, 1) ++ d.binBytes (ent e.par 20 1) k else d.binBytes (ent e.par 20 1) k)).finish e .done [] := by
  simp only [cmdTdmPmRead, h, Dev.ok, Dev.binBytes]

/-- Settles O35: the connections are staged, the swap is armed and fires, and the reads answer. -/
theorem gatewayCommandsAct : Obligations.GatewayCommandsAct := by
  unfold Obligations.GatewayCommandsAct
  intro p s d b page conns conn h under i bin
  refine ⟨fun ha => ?connections, fun hs hp hf hd hb hr => ?armed, fun e instant hforbid => ?fires, fun ha => ?status,
    fun k ha hk => ?bins⟩
  case connections => exact exec_stages _ cmdTsiConnSet p s rfl ha _ rfl
  case armed => exact (commandsWaitForBeaconAndFence (.tsiPageSwap p) cmdTsiPageSwap p s rfl hs hp).1 hf hd hb (by decide) hr
  case fires => exact fireCmd_tsiPageSwap d e _ instant rfl hforbid
  case status => exact exec_reads _ cmdHeritageStatus p s rfl ha .done _ rfl
  case bins =>
    exact exec_answers _ cmdTdmPmRead p s rfl ha (d.hostWrite (ent b 24 8) _) .done [] rfl
      (cmdTdmPmRead_entity (d.fetch p) (cmdTdmPmRead.entry d p) k hk)

end Sys2Proof.Machine
end

section
/-!
SUPPORT. The lane commands (15 R370 to R377, R383, R384): groups by their record, the lanes that start from the board's table, and the
patterns that a lane sends.
-/
namespace Sys2Proof.Machine

/-! ### Lanes -/

section
variable (d : Dev)

theorem Dev.lane_setLane (k l : Nat) (f : Lane → Lane) : (d.setLane k l f).lane k l = f (d.lane k l) := Tbl.getD_put _ _ _ _

theorem Dev.lane_setLane_ne (k l m : Nat) (f : Lane → Lane) (h : m ≠ l) : (d.setLane k l f).lane k m = d.lane k m :=
  Tbl.getD_put_ne _ _ _ _ _ (by omega)

/-- The levels of a pattern follow the lane's precoding alone. -/
theorem Dev.patternLevels_setLane (k l pat : Nat) (inject : Bool) (f : Lane → Lane) (hf : (f (d.lane k l)).precode = (d.lane k l).precode) :
    (d.setLane k l f).patternLevels k l pat inject = d.patternLevels k l pat inject := by
  unfold Dev.patternLevels
  rw [Dev.lane_setLane, hf]
  rfl

/-! ### The lanes of a group that start (R371) -/

/-- The lane of a group that starts from its table entry. -/
def Dev.seedLane (q : Group) (i : Nat) : Dev :=
  d.setLane 1 (q.lane + i) fun x =>
    { x with taps := d.eqTable.getD (16384 + q.rate * 1024 + q.lane + i) {}, precode := q.precode, blockLock := false, fecAlign := false }

/-- A lane with the taps of its table entry and without lock. -/
def Group.seeded (q : Group) (t : Tbl EqEntry) (i : Nat) (x : Lane) : Prop :=
  x.taps = t.getD (16384 + q.rate * 1024 + q.lane + i) {} ∧ x.blockLock = false

/-- A lane is seeded once its turn has come, and stays so. -/
theorem Dev.foldl_seedLane (q : Group) (i : Nat) (l : List Nat) (h : i ∈ l ∨ q.seeded d.eqTable i (d.lane 1 (q.lane + i))) :
    q.seeded d.eqTable i ((l.foldl (fun e j => e.seedLane q j) d).lane 1 (q.lane + i)) := by
  induction l generalizing d with
  | nil => exact h.resolve_left List.not_mem_nil
  | cons j l ih =>
    refine ih (d.seedLane q j) ?_
    by_cases hij : i = j
    · subst hij
      refine .inr ?_
      rw [Dev.seedLane, Dev.lane_setLane]
      exact ⟨rfl, rfl⟩
    · have hne : q.lane + i ≠ q.lane + j := by omega
      rw [Dev.seedLane, Dev.lane_setLane_ne d 1 (q.lane + j) (q.lane + i) _ hne]
      exact h.imp_left fun hi => (List.mem_cons.1 hi).resolve_left hij

theorem Dev.seedLanes_seeded (q : Group) (i : Nat) (h : i < q.width) : q.seeded d.eqTable i ((d.seedLanes q).lane 1 (q.lane + i)) :=
  d.foldl_seedLane q i (List.range q.width) (.inl (List.mem_range.2 h))

end

/-! ### The commands of a group -/

section
variable (d : Dev) (e : Exec) (q : Group) (h : d.group? (ent e.par 16 1) = some q)
include h

theorem cmdPortDisable_group : cmdPortDisable.run e d = (d.setPort (ent e.par 16 1) fun x =>
    { x with disabled := some (q.kind, q.width), hold := none }).startDrain e (.port (ent e.par 16 1)) (ent e.par 20 4) := by
  simp only [cmdPortDisable, h]

theorem cmdPortEnable_group : cmdPortEnable.run e d =
    ((d.setPort (ent e.par 16 1) fun x => { x with disabled := none }).startLanes q).finish e .done [] := by
  simp only [cmdPortEnable, h, Dev.ok]

theorem cmdLaneTrain_group : cmdLaneTrain.run e d =
    ((d.seedLanes q).setLane 1 (ent e.par 16 1) fun x => { x with training := true }).park e := by
  simp only [cmdLaneTrain, h]

end

/-! ### EQ_TABLE_WRITE -/

/-- Parameters out of form fail step 5 of 02 R45. -/
theorem CmdDef.invalid_form (c : CmdDef) (d : Dev) (e : Exec) (h : c.form e.par = false) : c.invalid d e ≠ none := by
  simp only [CmdDef.invalid, h, Bool.not_false, if_true]
  repeat' split
  all_goals exact Option.some_ne_none _

/-- A packet that is accepted has its command's form. -/
theorem CmdDef.accepts_form (c : CmdDef) (d : Dev) (p : Packet) (h : c.accepts d p) : c.form (Packet.bytes p) = true := by
  obtain ⟨_, _, hr⟩ := h
  refine eq_true_of_ne_false fun hform => ?_
  have hinvalid := c.invalid_form (d.fetch p) (c.entry d p) hform
  unfold CmdDef.refuse at hr
  split at hr
  · cases hr
  · split at hr
    · cases hr
    · next h => exact hinvalid h

theorem eqForm_kind (b : Bytes) (h : eqForm b = true) : ent b 16 1 ≤ 5 := by
  simp only [eqForm, Bool.and_eq_true] at h
  obtain ⟨⟨⟨⟨⟨⟨⟨hkind, _⟩, _⟩, _⟩, _⟩, _⟩, _⟩, _⟩ := h
  split at hkind <;> first | omega | cases hkind

/-! A fetch leaves every lane as it was. -/

@[simp] theorem Dev.fetch_laneFree (d : Dev) (p : Packet) (k l : Nat) : (d.fetch p).laneFree k l = d.laneFree k l := rfl
@[simp] theorem Dev.fetch_laneDormant (d : Dev) (p : Packet) (k l : Nat) : (d.fetch p).laneDormant k l = d.laneDormant k l := rfl
@[simp] theorem Dev.fetch_laneFec (d : Dev) (p : Packet) (k l : Nat) : (d.fetch p).laneFec k l = d.laneFec k l := rfl
@[simp] theorem Dev.fetch_laneState (d : Dev) (p : Packet) (k l : Nat) : (d.fetch p).laneState k l = d.laneState k l := rfl

/-- RESULT0 of a table write: 1 where the lane is in service (R370); kinds 4 and 5 are the two directions of a heritage lane. -/
theorem Dev.laneInService_result (d : Dev) (k l : Nat) (hk : k ≤ 5) :
    b2n (d.laneInService k l) = if d.laneFree (if k = 5 then 4 else k) l then 0 else 1 := by
  have hmin : min k 4 = if k = 5 then 4 else k := by split <;> omega
  rw [Dev.laneInService, hmin]
  cases d.laneFree (if k = 5 then 4 else k) l <;> rfl

/-! ### PATTERN_SET -/

/-- A lane with the directions of a pattern written that the packet names (Table 15-6). -/
def Lane.withPattern (x : Lane) (b : Bytes) : Lane :=
  { x with
    generator := if bit (ent b 17 1) 0 then ent b 20 1 else x.generator
    inject := if bit (ent b 17 1) 0 then ent b 21 1 else x.inject
    interval := if bit (ent b 17 1) 0 then ent b 22 1 else x.interval
    checker := if bit (ent b 17 1) 1 then ent b 20 1 else x.checker
    userPat := if bit (ent b 17 1) 0 ∨ bit (ent b 17 1) 1 then ent b 24 8 else x.userPat }

/-- The device with the pattern set; a USER generator sends the pattern's levels. -/
def Dev.withPattern (d : Dev) (b : Bytes) : Dev :=
  let set := d.setLane (ent b 16 1) (ent b 18 2) fun x => x.withPattern b
  if bit (ent b 17 1) 0 ∧ ent b 20 1 = 11 then
    set.emit (.pattern (ent b 16 1) (ent b 18 2) (d.patternLevels (ent b 16 1) (ent b 18 2) (ent b 24 8) (ent b 21 1 == 1)))
  else set

theorem cmdPatternSet_run (d : Dev) (e : Exec) : cmdPatternSet.run e d = (d.withPattern e.par).finish e .done [] := by
  have hlane : ∀ x : Lane, x.withPattern e.par =
      let y := if bit (ent e.par 17 1) 0 then { x with generator := ent e.par 20 1, userPat := ent e.par 24 8, inject := ent e.par 21 1,
                                                       interval := ent e.par 22 1 } else x
      if bit (ent e.par 17 1) 1 then { y with checker := ent e.par 20 1, userPat := ent e.par 24 8 } else y := by
    intro x
    unfold Lane.withPattern
    by_cases h0 : bit (ent e.par 17 1) 0 <;> by_cases h1 : bit (ent e.par 17 1) 1 <;> simp [h0, h1]
  have hlevels := d.patternLevels_setLane (ent e.par 16 1) (ent e.par 18 2) (ent e.par 24 8) (ent e.par 21 1 == 1)
    (fun x => x.withPattern e.par) rfl
  simp only [Dev.withPattern, ← hlevels, hlane]
  rfl

theorem Dev.withPattern_fetch (d : Dev) (p : Packet) (b : Bytes) : (d.fetch p).withPattern b = (d.withPattern b).fetch p := by
  unfold Dev.withPattern
  dsimp only
  split <;> rfl

theorem Dev.withPattern_doms (d : Dev) (b : Bytes) : (d.withPattern b).doms = d.doms := by
  unfold Dev.withPattern
  dsimp only
  split <;> rfl

/-- Settles O40: groups, tables, trainings, scans and patterns by the run of each command; the reads' open values by their range. -/
theorem laneCommandsAct : Obligations.LaneCommandsAct := by
  unfold Obligations.LaneCommandsAct
  constructor
  · intro p s q d b k l eq set
    refine ⟨fun h hq => ?disable, fun h hq => ?enable, fun h => ?table, fun h hq => ?train, fun h => ?tree, fun h => ?scan,
      fun h => ?pattern, fun i hi => d.seedLanes_seeded q i hi⟩
    case disable =>
      rw [exec_accepted (.portDisable p) cmdPortDisable p s rfl h,
        cmdPortDisable_group (d.fetch p) (cmdPortDisable.entry d p) q hq]
      rfl
    case enable =>
      rw [exec_accepted (.portEnable p) cmdPortEnable p s rfl h, cmdPortEnable_group (d.fetch p) (cmdPortEnable.entry d p) q hq]
      rfl
    case table =>
      refine exec_answers _ cmdEqTableWrite p s rfl h
        { d with eqTable := d.eqTable.put (k * 16384 + ent b 17 1 * 1024 + l) eq } .done _ rfl ?_
      rw [← d.laneInService_result k l (eqForm_kind b (cmdEqTableWrite.accepts_form d p h)), Dev.laneInService, ← d.fetch_laneFree p]
      rfl
    case train =>
      rw [exec_accepted (.laneTrain p) cmdLaneTrain p s rfl h, cmdLaneTrain_group (d.fetch p) (cmdLaneTrain.entry d p) q hq]
      rfl
    case tree => exact exec_accepted _ cmdTreeTrain p s rfl h
    case scan => exact exec_accepted _ cmdEyeScan p s rfl h
    case pattern =>
      refine exec_answers _ cmdPatternSet p s rfl h (d.withPattern b) .done [] ?_ ?_
      · rw [Dev.dom, Dev.withPattern_doms]
        rfl
      · rw [← Dev.withPattern_fetch]
        exact cmdPatternSet_run (d.fetch p) (cmdPatternSet.entry d p)
  · intro p s d b k l x
    refine ⟨fun h hx => ?stopped, fun h hx => ?counts, fun h => ?lane, fun h => ?port⟩
    case stopped => exact exec_reads _ cmdPatternRead p s rfl h .done _ (if_pos hx)
    case counts =>
      refine ⟨_, ?_, ?_, exec_answers _ cmdPatternRead p s rfl h { d with freeCount := d.freeCount + 4 } .done _ rfl (if_neg hx)⟩
      · rfl
      · simp [Nat.mod_lt]
    case lane =>
      refine ⟨if d.laneDormant k l then Config.freeValue d.freeCount % 2 else 0, ?_,
        if d.laneFec k l then Config.freeValue (d.freeCount + 1) % 2 ^ 32 else 0, ?_, fun hw => by simp [hw], fun hf => by simp [hf],
        exec_answers _ cmdLaneStatus p s rfl h { d with freeCount := d.freeCount + 2 } .done _ rfl ?_⟩
      · split <;> omega
      · split <;> omega
      · rw [← d.fetch_laneState p, ← d.fetch_laneDormant p, ← d.fetch_laneFec p]
        rfl
    case port =>
      refine ⟨if d.laneFec 1 k then Config.freeValue d.freeCount % 2 ^ 32 else 0, ?_, fun hf => by simp [hf],
        exec_answers _ cmdPortStatus p s rfl h { d with freeCount := d.freeCount + 1 } .done _ rfl rfl⟩
      split <;> omega

end Sys2Proof.Machine
end

section
/-!
SUPPORT. Channels, management rings, OMCI messages, module accesses and upstream messages (03 R78, R80, R81, R99 to R104).
-/
namespace Sys2Proof.Machine

section
variable (s : State) (h : s.dev.sys.inReset = false)
include h

theorem exec_omciSent (t : Nat) : exec (.omciSent t) s = .next { s with dev := (omciSent t s.dev).settle } := live_running _ s h

theorem exec_moduleAccessComplete (m : Nat) (nack : Option Nat) (data : Bytes) :
    exec (.moduleAccessComplete m nack data) s = .next { s with dev := (moduleAccessComplete m nack data s.dev).settle } := live_running _ s h

theorem exec_moduleBusTimeout (m : Nat) : exec (.moduleBusTimeout m) s = .next { s with dev := (moduleBusTimeout m s.dev).settle } :=
  live_running _ s h

theorem exec_upstreamPloam (g t : Nat) (msg : Bytes) (consumer : Nat) :
    exec (.upstreamPloam g t msg consumer) s = .next { s with dev := (upstreamPloam g t msg consumer s.dev).settle } := live_running _ s h

theorem exec_upstreamOmci (g t : Nat) (msg : Bytes) (consumer : Nat) :
    exec (.upstreamOmci g t msg consumer) s = .next { s with dev := (upstreamOmci g t msg consumer s.dev).settle } := live_running _ s h

end

/-! ### OMCI messages downstream (R104) -/

/-- An OMCI message may leave: nothing goes before it, and the link is up. -/
def Dev.omciFree (d : Dev) (g : Nat) : Prop :=
  d.chanLink g = true ∧ (d.chan g).lantern = [] ∧ (d.chan g).fragment = none ∧ d.mayStart = true

section
variable (d : Dev) (h : Nat) (t : Term) (dom seq : Nat) (msg : Bytes) (rest : List (Nat × Nat × Bytes)) (ht : d.term? h = some t)
  (ho : t.omci = (dom, seq, msg) :: rest)
include ht ho

theorem omciSent_free (hf : d.omciFree t.chan) : omciSent h d =
    ((((d.endSending t.chan).setTerm h fun t => { t with omci := rest }).sendPon t.chan t.onu 0 true msg).finishId dom seq .done
      [(d.endSending t.chan).time.frame * 125000 % 2 ^ 32]) := by
  obtain ⟨hlink, hlantern, hfragment, hmay⟩ := hf
  simp only [omciSent, ht, ho, hlink, hlantern, hfragment, hmay]
  rfl

theorem omciSent_waits (hf : ¬d.omciFree t.chan) : omciSent h d = d := by
  have hwaits : !d.chanLink t.chan ∨ !(d.chan t.chan).lantern.isEmpty ∨ (d.chan t.chan).fragment.isSome ∨ !d.mayStart := by
    refine Classical.byContradiction fun hno => hf ?_
    simpa [Dev.omciFree, not_or] using hno
  simp only [omciSent, ht, ho, if_pos hwaits]

end

/-! ### Module accesses (R80, R81) -/

section
variable (d : Dev) (m : Nat) (e : Exec) (h : d.access? m = some e)
include h

theorem moduleAccessComplete_done (data : Bytes) : moduleAccessComplete m none data d =
    (d.finish e .done (if ent e.par 17 1 = 0 then (List.range 4).map fun i => field (slice (data.take (ent e.par 21 1)) 0 16) (4 * i) 4
      else [ent e.par 21 1])).nextAccess m := by
  simp only [moduleAccessComplete, h]

theorem moduleAccessComplete_nack (k : Nat) (data : Bytes) :
    moduleAccessComplete m (some k) data d = (d.finish e .conflict [k % 256]).nextAccess m := by
  simp only [moduleAccessComplete, h]

theorem moduleBusTimeout_access : moduleBusTimeout m d = ((d.emit (.i2cFree m)).finish e .busy []).nextAccess m := by
  simp only [moduleBusTimeout, h]

end

/-! ### Upstream messages (R100, R101, R103) -/

section
variable (d : Dev) (g h consumer : Nat) (msg : Bytes) (t : Term) (ht : d.term? h = some t) (hg : t.chan = g)
include ht hg

theorem upstreamPloam_term : upstreamPloam g h msg consumer d =
    if d.ploamPasses t msg then d.copyPloam g h t.burstTime msg consumer else d.count (0x10000 + 16 * h + 1) := by
  simp only [upstreamPloam, ht, hg, ne_eq, not_true_eq_false, if_false]
  cases d.ploamPasses t msg <;> rfl

theorem upstreamOmci_term : upstreamOmci g h msg consumer d =
    if Config.omciMicOk (Config.deriveOmciIk (d.mode g) (d.sessionKey t)) msg then
      match (d.dom (d.termOwner h)).mgmt with
      | some r => d.toMgmt (d.termOwner h) r 1 h g t.burstTime msg consumer
      | none => d.count (64 * g + 5)
    else d.count (0x10000 + 16 * h + 2) := by
  simp only [upstreamOmci, ht, hg, ne_eq, not_true_eq_false, if_false]
  cases Config.omciMicOk (Config.deriveOmciIk (d.mode g) (d.sessionKey t)) msg <;> rfl

end

section
variable (d : Dev) (g h time : Nat) (msg : Bytes) (consumer : Nat)

theorem Dev.copyPloam_none (hc : (chanCfg d.objs g).ploamCopy = false ∨ (d.dom 0).mgmt = none) : d.copyPloam g h time msg consumer = d := by
  unfold Dev.copyPloam
  rcases hc with hc | hc
  · simp [hc]
  · simp [hc]

theorem Dev.copyPloam_ring (r : MgmtRing) (hc : (chanCfg d.objs g).ploamCopy = true) (hr : (d.dom 0).mgmt = some r) :
    d.copyPloam g h time msg consumer = d.toMgmt 0 r 2 h g time msg consumer := by
  simp only [Dev.copyPloam, hc, hr, if_true]

end

/-- Settles O11: each channel command, management command and module access by its run, and each event by what it finds. -/
theorem channelsAndManagementAct : Obligations.ChannelsAndManagementAct := by
  unfold Obligations.ChannelsAndManagementAct
  refine ⟨fun p s => ?channels, fun p s => ?management, fun s g h consumer msg t => ?upstream⟩
  case channels =>
    intro d b g on
    refine ⟨fun ha => ?enable, fun ha => exec_accepted _ cmdChannelDisable p s rfl ha, fun ha => ?status⟩
    case enable =>
      exact exec_answers _ cmdChannelEnable p s rfl ha (d.setChan g fun c => { c with restart := true }) .done [] rfl rfl
    case status => exact exec_reads _ cmdChannelStatus p s rfl ha .done _ rfl
  case management =>
    intro d b
    refine ⟨fun ha => ?ring, fun ha => ?send, fun h t dom seq msg rest hr ht ho => ?sent, fun ha hnone => ?starts,
      fun ha hsome => ?waits, fun m e data hr he => ?ends⟩
    case ring =>
      exact exec_setsDom _ cmdMgmtRingSet p s rfl ha p.ring
        (fun m => { m with mgmt := if ent b 16 8 = 0 then none else some ⟨ent b 16 8, ent b 24 8, ent b 32 1, 0, 0⟩ }) .done []
        (fun _ => rfl) (fun _ => rfl) rfl
    case send => exact exec_accepted _ cmdOmciSend p s rfl ha
    case sent =>
      refine ⟨fun hfree => ?_, fun hheld => ?_⟩
      · rw [exec_omciSent s hr, omciSent_free s.dev h t dom seq msg rest ht ho hfree]
      · rw [exec_omciSent s hr, omciSent_waits s.dev h t dom seq msg rest ht ho hheld]
    case starts =>
      have hrun : cmdModuleAccess.run (cmdModuleAccess.entry d p) (d.fetch p) = (d.fetch p).startAccess (cmdModuleAccess.entry d p) :=
        if_pos hnone
      rw [exec_accepted (.moduleAccess p) cmdModuleAccess p s rfl ha, hrun]
      rfl
    case waits =>
      have hrun : cmdModuleAccess.run (cmdModuleAccess.entry d p) (d.fetch p) = (d.fetch p).park { cmdModuleAccess.entry d p with
          aux := [0, 1 + maxBy (d.accesses (ent b 16 1 / 3)) fun x => x.aux.getD 1 0] } :=
        if_neg (Bool.eq_false_iff.1 hsome)
      rw [exec_accepted (.moduleAccess p) cmdModuleAccess p s rfl ha, hrun]
    case ends =>
      refine ⟨?done, fun k => ?nack, ?timeout⟩
      case done => rw [exec_moduleAccessComplete s hr, moduleAccessComplete_done s.dev m e he]
      case nack => rw [exec_moduleAccessComplete s hr, moduleAccessComplete_nack s.dev m e he]
      case timeout => rw [exec_moduleBusTimeout s hr, moduleBusTimeout_access s.dev m e he]
  case upstream =>
    intro d key ik omciIk hr ht hg
    subst hg
    refine ⟨fun hcopy => ?_, fun r hcopy hring => ?_, fun r hring => ?_, fun hring => ?_⟩
    · rw [exec_upstreamPloam s hr, upstreamPloam_term s.dev t.chan h consumer msg t ht rfl, s.dev.copyPloam_none _ _ _ _ _ hcopy]
      rfl
    · rw [exec_upstreamPloam s hr, upstreamPloam_term s.dev t.chan h consumer msg t ht rfl, s.dev.copyPloam_ring _ _ _ _ _ r hcopy hring]
      rfl
    · rw [exec_upstreamOmci s hr, upstreamOmci_term s.dev t.chan h consumer msg t ht rfl, hring]
      rfl
    · rw [exec_upstreamOmci s hr, upstreamOmci_term s.dev t.chan h consumer msg t ht rfl, hring]
      rfl

end Sys2Proof.Machine
end

section
/-!
SUPPORT. Terminal records (04 R105, R107, R108, R114, R123, R124; 03 R89, R92): how changes of a record compose, what a queued PLOAM
message and its copy leave alone, and the commands that write and read a record.
-/
namespace Sys2Proof.Machine

/-! ### Changes of a record -/

/-- Two changes of one entry are one change. -/
theorem Tbl.adjust_adjust {α : Type} (t : Tbl α) (i : Nat) (f g : α → α) : (t.adjust i f).adjust i g = t.adjust i fun v => g (f v) := by
  cases hfind : t.find? i with
  | none => simp only [Tbl.adjust, hfind]
  | some v => simp only [Tbl.adjust, hfind, Tbl.find_put, Tbl.put_put]

/-- Only what a change makes of the present entry counts. -/
theorem Tbl.adjust_congr {α : Type} (t : Tbl α) (i : Nat) (f g : α → α) (v : α) (hv : t.find? i = some v) (h : f v = g v) :
    t.adjust i f = t.adjust i g := by
  simp only [Tbl.adjust, hv, h]

section
variable (d : Dev) (h : Nat) (f g : Term → Term)

theorem Dev.setTerm_setTerm : (d.setTerm h f).setTerm h g = d.setTerm h fun t => g (f t) :=
  congrArg (fun u => { d with terms := u }) (Tbl.adjust_adjust d.terms h f g)

theorem Dev.setTerm_congr (t : Term) (ht : d.term? h = some t) (hfg : f t = g t) : d.setTerm h f = d.setTerm h g :=
  congrArg (fun u => { d with terms := u }) (Tbl.adjust_congr d.terms h f g t ht hfg)

end

/-! ### PLOAM messages downstream (03 R100) -/

section
variable (d : Dev) (g kind onu : Nat) (fields : List Nat)

/-- A PLOAM message changes its channel's queue, and terminals that will answer it. -/
theorem Dev.ploam_frame : d.ploam g kind onu fields =
    { d with chans := (d.ploam g kind onu fields).chans, terms := (d.ploam g kind onu fields).terms } := by
  unfold Dev.ploam
  split
  · rfl
  · dsimp only
    split <;> rfl

@[simp] theorem Dev.ploam_dom (n : Nat) : (d.ploam g kind onu fields).dom n = d.dom n := by
  rw [Dev.ploam_frame]
  rfl

theorem Dev.fetch_ploam (p : Packet) : (d.fetch p).ploam g kind onu fields = (d.ploam g kind onu fields).fetch p := by
  unfold Dev.ploam
  by_cases hs : d.standby
  · rw [if_pos hs]
    exact if_pos hs
  · rw [if_neg hs]
    refine (if_neg hs).trans ?_
    dsimp only
    split <;> rfl

end

/-! ### Commands that write a record -/

section
variable (d : Dev) (e : Exec)

/-- A record that exists keeps what `TERMINAL_SET` does not name; another PROFPIN starts the choice of a profile again (04 R106, R120). -/
theorem cmdTerminalSet_old (t : Term) (h : d.term? (ent e.par 16 2) = some t) : cmdTerminalSet.run e d =
    { d with terms := d.terms.put (ent e.par 16 2) { t with
      chan := ent e.par 18 1, regChk := bit (ent e.par 19 1) 0, onuId := ent e.par 20 2, profPin := ent e.par 22 1, serial := ent e.par 24 8
      profile := if t.profPin = ent e.par 22 1 then t.profile else d.profileOf t
      runs := if t.profPin = ent e.par 22 1 then t.runs else [] } }.finish e .done [] := by
  simp only [cmdTerminalSet, h, Option.getD_some, Dev.ok]
  by_cases hpin : t.profPin = ent e.par 22 1
  · simp only [if_pos hpin]
  · simp only [if_neg hpin]

theorem cmdTerminalSet_new (h : d.term? (ent e.par 16 2) = none) : cmdTerminalSet.run e d =
    { d with terms := d.terms.put (ent e.par 16 2) {
      chan := ent e.par 18 1, regChk := bit (ent e.par 19 1) 0, onuId := ent e.par 20 2, profPin := ent e.par 22 1, serial := ent e.par 24 8
      since := d.now } }.finish e .done [] := by
  simp only [cmdTerminalSet, h, Option.getD_none, Dev.ok, if_true]

theorem cmdTerminalEnable_run (t : Term) (h : d.term? (ent e.par 16 2) = some t) : cmdTerminalEnable.run e d =
    ((d.setTerm (ent e.par 16 2) fun t => t.enter 1 d.now).ploam t.chan plDisable 0x3FF [t.serial, 1]).finish e .done [] := by
  simp only [cmdTerminalEnable, h, Dev.ok, plAll]

/-! ### Commands that read -/

theorem Term.valid_iff (t : Term) : t.valid = true ↔ 3 ≤ t.state ∧ t.state ≤ 5 := by
  simp only [Term.valid, within, Bool.and_eq_true, decide_eq_true_eq]

/-- EqD reads 0 outside RANGED, OPERATING and LOST (04 R124). -/
theorem Term.eqd_shown (t : Term) : (if t.valid = true then t.eqd else 0) = if 3 ≤ t.state ∧ t.state ≤ 5 then t.eqd else 0 := by
  by_cases hv : t.valid = true
  · rw [if_pos hv, if_pos (t.valid_iff.1 hv)]
  · rw [if_neg hv, if_neg fun hs => hv (t.valid_iff.2 hs)]

/-- A saturating field of 8 bits. -/
theorem sat_eight (n : Nat) : sat 8 n = min n 255 := rfl

theorem cmdTerminalStatus_run (t : Term) (h : d.term? (ent e.par 16 2) = some t) : cmdTerminalStatus.run e d = d.finish e .done
    [t.onu * 65536 + d.profileOf t * 256 + t.state, if 3 ≤ t.state ∧ t.state ≤ 5 then t.eqd else 0,
      wrap 16 (if d.standby then t.meanAct else t.mean?.getD 0) * 65536 + min t.missing 255 * 256 + t.activations, t.since % 2 ^ 32] := by
  rw [← t.eqd_shown]
  simp only [cmdTerminalStatus, h, sat_eight]

theorem cmdBearingRead_run (t : Term) (h : d.term? (ent e.par 16 2) = some t) : cmdBearingRead.run e d = d.finish e .done
    [t.bearing.toNat / 2 ^ 96, t.bearing.toNat / 2 ^ 64 % 2 ^ 32, t.bearing.toNat / 2 ^ 32 % 2 ^ 32, t.bearing.toNat % 2 ^ 32] := by
  simp only [cmdBearingRead, h]

/-- The discovery list as a read writes it: its entries, and 32 bytes of 0 (04 R114). -/
def Dev.writeDiscovery (d : Dev) (b : Bytes) : Dev :=
  d.hostWrite (ent b 16 8) ((d.chan (ent b 24 2)).disc.flatMap DiscEntry.bytes ++ List.replicate 32 0#8)

theorem cmdDiscoveryRead_keeps (h : bit (ent e.par 26 1) 0 = false) : cmdDiscoveryRead.run e d =
    (d.writeDiscovery e.par).finish e .done [(d.chan (ent e.par 24 2)).disc.length] := by
  simp only [cmdDiscoveryRead, Dev.writeDiscovery, h, Bool.false_eq_true, false_and, if_false]

theorem cmdDiscoveryRead_clears (h : bit (ent e.par 26 1) 0 = true) (hdry : Packet.dry e.pkt = false) : cmdDiscoveryRead.run e d =
    ((d.writeDiscovery e.par).setChan (ent e.par 24 2) fun c => { c with disc := [] }).finish e .done
      [(d.chan (ent e.par 24 2)).disc.length] := by
  simp only [cmdDiscoveryRead, Dev.writeDiscovery, h, hdry, Bool.not_false, and_self, if_true]

end

/-- Settles O12: each command's run is the change of its record, or the words that it reads, and the reply. -/
theorem terminalCommandsAct : Obligations.TerminalCommandsAct := by
  unfold Obligations.TerminalCommandsAct
  refine ⟨fun p s => ?writes, fun p s t => ?reads⟩
  case writes =>
    intro d b h
    refine ⟨fun t ha ht => ?set, fun ha hnone => ?setNew, fun ha => ?delete, fun ha => ?regid, fun ha => ?clear,
      fun ha => exec_accepted _ cmdTerminalDisable p s rfl ha, fun t ha ht => ?enable⟩
    case set =>
      exact exec_answers _ cmdTerminalSet p s rfl ha { d with terms := d.terms.put h _ } .done [] rfl
        (cmdTerminalSet_old (d.fetch p) (cmdTerminalSet.entry d p) t ht)
    case setNew =>
      exact exec_answers _ cmdTerminalSet p s rfl ha { d with terms := d.terms.put h _ } .done [] rfl
        (cmdTerminalSet_new (d.fetch p) (cmdTerminalSet.entry d p) hnone)
    case delete => exact exec_answers _ cmdTerminalDelete p s rfl ha { d with terms := d.terms.del h } .done [] rfl rfl
    case regid => exact exec_answers _ cmdTerminalRegidSet p s rfl ha (d.setTerm h _) .done [] rfl rfl
    case clear => exact exec_answers _ cmdBearingClear p s rfl ha (d.setTerm h _) .done [] rfl rfl
    case enable =>
      refine exec_answers _ cmdTerminalEnable p s rfl ha _ .done [] ?_ ?_
      · rw [Dev.ploam_dom]
        rfl
      · rw [cmdTerminalEnable_run (d.fetch p) (cmdTerminalEnable.entry d p) t ht, ← Dev.fetch_ploam]
        rfl
  case reads =>
    intro d b c list
    refine ⟨fun ha ht => ?status, fun ha ht => ?bearing, fun ha hb => ?list, fun ha hb => ?clears⟩
    case status =>
      exact exec_reads _ cmdTerminalStatus p s rfl ha .done _ (cmdTerminalStatus_run (d.fetch p) (cmdTerminalStatus.entry d p) t ht)
    case bearing =>
      exact exec_reads _ cmdBearingRead p s rfl ha .done _ (cmdBearingRead_run (d.fetch p) (cmdBearingRead.entry d p) t ht)
    case list =>
      exact exec_answers _ cmdDiscoveryRead p s rfl ha (d.writeDiscovery b) .done _ rfl
        (cmdDiscoveryRead_keeps (d.fetch p) (cmdDiscoveryRead.entry d p) hb)
    case clears =>
      obtain ⟨_, ⟨_, _, _, hdry⟩, _⟩ := id ha
      exact exec_answers _ cmdDiscoveryRead p s rfl ha ((d.writeDiscovery b).setChan (ent b 24 2) fun c => { c with disc := [] }) .done _ rfl
        (cmdDiscoveryRead_clears (d.fetch p) (cmdDiscoveryRead.entry d p) hb hdry)

end Sys2Proof.Machine
end

section
/-!
SUPPORT. The delimiter search (03 R93, R94): which position it gives, and whether it gives one.
-/
namespace Sys2Proof.Machine

/-- The pattern is met within the tolerance at a position of a string, whole (03 R93). -/
def DelimAt (pat : List Bool) (tol : Nat) (bits : List Bool) (i : Nat) : Prop :=
  i + pat.length ≤ bits.length ∧ hamming pat (bits.drop i) ≤ tol

section
variable (pat : List Bool) (tol : Nat)

theorem delimAt_cons_zero (b : Bool) (t : List Bool) :
    DelimAt pat tol (b :: t) 0 ↔ pat.length ≤ t.length + 1 ∧ hamming pat (b :: t) ≤ tol := by
  simp only [DelimAt, Nat.zero_add, List.length_cons, List.drop_zero]

theorem delimAt_cons_succ (b : Bool) (t : List Bool) (i : Nat) : DelimAt pat tol (b :: t) (i + 1) ↔ DelimAt pat tol t i := by
  simp only [DelimAt, List.length_cons, List.drop_succ_cons]
  omega

theorem searchDelim_here (p : Nat) (b : Bool) (t : List Bool) (h : DelimAt pat tol (b :: t) 0) :
    searchDelim pat tol p (b :: t) = some p := if_pos ((delimAt_cons_zero pat tol b t).1 h)

theorem searchDelim_later (p : Nat) (b : Bool) (t : List Bool) (h : ¬DelimAt pat tol (b :: t) 0) :
    searchDelim pat tol p (b :: t) = searchDelim pat tol (p + 1) t := if_neg fun hc => h ((delimAt_cons_zero pat tol b t).2 hc)

variable (hpat : pat ≠ [])
include hpat

theorem not_delimAt_nil (i : Nat) : ¬DelimAt pat tol [] i := by
  rintro ⟨hlen, _⟩
  have hpos := List.length_pos_iff.2 hpat
  simp only [List.length_nil] at hlen
  omega

/-- The search gives a position exactly where the pattern is met there, and at no position before. -/
theorem searchDelim_eq_some_iff (p i : Nat) (bits : List Bool) :
    searchDelim pat tol p bits = some i ↔ ∃ k, i = p + k ∧ DelimAt pat tol bits k ∧ ∀ j < k, ¬DelimAt pat tol bits j := by
  induction bits generalizing p with
  | nil => simp [searchDelim, not_delimAt_nil pat tol hpat]
  | cons b t ih =>
    by_cases hhere : DelimAt pat tol (b :: t) 0
    · rw [searchDelim_here pat tol p b t hhere, Option.some.injEq]
      constructor
      · rintro rfl
        exact ⟨0, rfl, hhere, fun j hj => absurd hj (Nat.not_lt_zero j)⟩
      · rintro ⟨k, rfl, _, hfirst⟩
        rcases Nat.eq_zero_or_pos k with rfl | hk
        · rfl
        · exact absurd hhere (hfirst 0 hk)
    · rw [searchDelim_later pat tol p b t hhere, ih]
      constructor
      · rintro ⟨k, rfl, hk, hfirst⟩
        refine ⟨k + 1, by omega, (delimAt_cons_succ pat tol b t k).2 hk, fun j hj => ?_⟩
        cases j with
        | zero => exact hhere
        | succ j => exact fun hc => hfirst j (Nat.lt_of_succ_lt_succ hj) ((delimAt_cons_succ pat tol b t j).1 hc)
      · rintro ⟨k, rfl, hk, hfirst⟩
        cases k with
        | zero => exact absurd hk hhere
        | succ k =>
          refine ⟨k, by omega, (delimAt_cons_succ pat tol b t k).1 hk, fun j hj hc => ?_⟩
          exact hfirst (j + 1) (Nat.succ_lt_succ hj) ((delimAt_cons_succ pat tol b t j).2 hc)

/-- The first position of the whole string, counted from its start: before it every position is beyond the tolerance. -/
theorem searchDelim_first_iff (i : Nat) (bits : List Bool) :
    searchDelim pat tol 0 bits = some i ↔
      i + pat.length ≤ bits.length ∧ hamming pat (bits.drop i) ≤ tol ∧ ∀ j < i, tol < hamming pat (bits.drop j) := by
  rw [searchDelim_eq_some_iff pat tol hpat]
  constructor
  · rintro ⟨k, hik, ⟨hlen, hdist⟩, hfirst⟩
    obtain rfl : i = k := hik.trans (Nat.zero_add k)
    refine ⟨hlen, hdist, fun j hj => Nat.lt_of_not_le fun hc => hfirst j hj ⟨by omega, hc⟩⟩
  · rintro ⟨hlen, hdist, hfirst⟩
    exact ⟨i, (Nat.zero_add i).symm, ⟨hlen, hdist⟩, fun j hj hc => Nat.not_le_of_lt (hfirst j hj) hc.2⟩

/-- The search gives some position exactly where the pattern is met at one. -/
theorem searchDelim_isSome_iff (p : Nat) (bits : List Bool) :
    (searchDelim pat tol p bits).isSome = true ↔ ∃ k, DelimAt pat tol bits k := by
  induction bits generalizing p with
  | nil => simp [searchDelim, not_delimAt_nil pat tol hpat]
  | cons b t ih =>
    by_cases hhere : DelimAt pat tol (b :: t) 0
    · rw [searchDelim_here pat tol p b t hhere]
      exact ⟨fun _ => ⟨0, hhere⟩, fun _ => rfl⟩
    · rw [searchDelim_later pat tol p b t hhere, ih]
      constructor
      · rintro ⟨k, hk⟩
        exact ⟨k + 1, (delimAt_cons_succ pat tol b t k).2 hk⟩
      · rintro ⟨k, hk⟩
        cases k with
        | zero => exact absurd hk hhere
        | succ k => exact ⟨k, (delimAt_cons_succ pat tol b t k).1 hk⟩

end

/-! ### A part of a string -/

/-- Only as many bits count as the pattern has. -/
theorem hamming_take (pat bits : List Bool) (n : Nat) (h : pat.length ≤ n) : hamming pat (bits.take n) = hamming pat bits := by
  have hzip : pat.zip (bits.take n) = pat.zip bits := by
    have hall : (pat.zip bits).take n = pat.zip bits := List.take_of_length_le (by rw [List.length_zip]; omega)
    rw [← hall, List.zip, List.take_zipWith, List.take_of_length_le h]
  rw [hamming, hzip, hamming]

/-- A position of a stretch of a string is one of the string, where the pattern still lies inside the stretch. -/
theorem delimAt_take_drop (pat : List Bool) (tol : Nat) (bits : List Bool) (a n k : Nat) (hpat : pat ≠ []) :
    DelimAt pat tol ((bits.drop a).take n) k ↔ k + pat.length ≤ n ∧ DelimAt pat tol bits (a + k) := by
  have hpos := List.length_pos_iff.2 hpat
  have hlen : k + pat.length ≤ ((bits.drop a).take n).length ↔ k + pat.length ≤ n ∧ a + k + pat.length ≤ bits.length := by
    rw [List.length_take, List.length_drop]
    omega
  rw [DelimAt, DelimAt, hlen, and_assoc]
  refine and_congr_right fun hn => and_congr_right fun _ => ?_
  rw [List.drop_take, List.drop_drop, hamming_take pat _ (n - k) (by omega)]

end Sys2Proof.Machine
end

section
/-!
SUPPORT. The receiver (03 R90 to R95, R98; 04 R118): bearings loaded, losses of signal, and what a granted burst leads to.
-/
namespace Sys2Proof.Machine

/-! ### The events out of reset -/

section
variable (s : State) (h : s.dev.sys.inReset = false)
include h

theorem exec_bearingLoad (g t : Nat) (discovery : Bool) :
    exec (.bearingLoad g t discovery) s = .next { s with dev := (bearingLoad g t discovery s.dev).settle } := live_running _ s h

theorem exec_upstreamLos (g : Nat) : exec (.upstreamLos g) s = .next { s with dev := (upstreamLos g s.dev).settle } := live_running _ s h

theorem exec_treeLosAssert (tree : Nat) (ht : tree < 48) :
    exec (.treeLosAssert tree) s = .next { s with dev := (treeLosAssert tree s.dev).settle } :=
  (live_running _ s h).trans (by rw [if_pos ht])

theorem exec_treeLosDeassert (tree : Nat) (ht : tree < 48) :
    exec (.treeLosDeassert tree) s = .next { s with dev := (treeLosDeassert tree s.dev).settle } :=
  (live_running _ s h).trans (by rw [if_pos ht])

theorem exec_burstReceive (rx : BurstRx) : exec (.burstReceive rx) s = .next { s with dev := (burstReceive rx s.dev).settle } :=
  live_running _ s h

end

/-! ### Bearings loaded (R90) -/

section
variable (d : Dev) (g h : Nat) (discovery : Bool)

theorem bearingLoad_locked (t : Term) (ht : d.term? h = some t) (hg : t.chan = g) (hl : t.locked = true) (hd : discovery = false) :
    bearingLoad g h discovery d = d.setChan g fun c => { c with loaded := some h, loadedBits := t.bearing } := by
  simp only [bearingLoad, ht]
  exact if_pos ⟨hl, by rw [hd, Bool.not_false], hg⟩

/-- No locked bearing on the channel, or a discovery window: the cold preset of the channel's rate. -/
theorem bearingLoad_cold (hc : discovery = true ∨ ∀ x, d.term? h = some x → x.chan ≠ g ∨ x.locked = false) :
    bearingLoad g h discovery d = d.setChan g fun c => { c with
      loaded := none
      loadedBits := BitVec.ofNat 128 (Tbl.getD (α := Nat) (d.tree (g / 4)).presets (4 * (g % 4) + (chanCfg d.objs g).upRate) 0) } := by
  unfold bearingLoad
  split
  · next t ht =>
    refine if_neg ?_
    rintro ⟨hl, hd, hg⟩
    rcases hc with hdisc | hcold
    · rw [hdisc] at hd
      cases hd
    · rcases hcold t ht with hne | hunlocked
      · exact hne hg
      · exact Bool.eq_false_iff.1 hunlocked hl
  · rfl

end

/-! ### What a burst leads to (R93, R95) -/

/-- The receiver searches a burst that neither the shadow nor the channel keeps it from. -/
theorem burst_searched (d : Dev) (rx : BurstRx) (hm : d.searchMode rx ≠ .none) (hon : d.chanIdle rx.chan = false) :
    ¬(d.searchMode rx = .none ∨ d.chanIdle rx.chan = true) := by
  rintro (hnone | hidle)
  · exact hm hnone
  · exact Bool.eq_false_iff.1 hon hidle

section
variable (d : Dev) (rx : BurstRx) (t : Term) (plan : Plan) (ht : d.term? rx.term = some t)
  (hp : (d.chan rx.chan).plan? rx.frame = some plan)
include ht hp

theorem burstReceive_ungranted (h : d.burstGrants rx = []) : burstReceive rx d = d := by simp only [burstReceive, ht, h, hp]

variable (e : PlanEntry) (es : List PlanEntry) (hg : d.burstGrants rx = e :: es) (hm : d.searchMode rx ≠ .none)
  (hon : d.chanIdle rx.chan = false)
include hg hm hon

theorem burstReceive_missing (h : d.delimiterAt rx (d.searchMode rx) (plan.prof e.profile) = none) :
    burstReceive rx d = d.burstMissing rx t (e :: es) := by
  simp only [burstReceive, ht, hg, hp, if_neg (burst_searched d rx hm hon), h]

theorem burstReceive_found (off : Int) (h : d.delimiterAt rx (d.searchMode rx) (plan.prof e.profile) = some off) :
    burstReceive rx d = d.burstFound rx t (e :: es) (d.searchMode rx) (plan.prof e.profile) off := by
  simp only [burstReceive, ht, hg, hp, if_neg (burst_searched d rx hm hon), h]

end

/-! ### What a burst leaves in its terminal's record (R91, R92; 04 R118) -/

section
variable (t : Term) (rx : BurstRx) (at_ : Nat) (off : Int)

theorem Term.heard_good (h : t.valid = true) : t.heard rx at_ off true =
    { Term.learn { t with missing := 0, noDelim := 0, burstTime := at_ } rx.final with drift := (off :: t.drift).take 16 } := by
  have hvalid : ¬(!Term.valid { t with missing := 0, noDelim := 0, burstTime := at_ }) = true := by
    rw [show Term.valid { t with missing := 0, noDelim := 0, burstTime := at_ } = true from h]
    decide
  exact if_neg hvalid

end

/-- Settles O16: each event by what it finds, the search by its first position, and the record by the fields that a burst sets. -/
theorem receiverFollowsGrantedBursts : Obligations.ReceiverFollowsGrantedBursts := by
  unfold Obligations.ReceiverFollowsGrantedBursts
  refine ⟨fun s g h tree discovery t => ?events, fun s rx t plan e es => ?bursts,
    fun pat bits tol i hpat => searchDelim_first_iff pat tol hpat i bits, fun t rx at_ off standby => ?records⟩
  case events =>
    intro d preset los hr
    refine ⟨fun ht hg hl hd => ?locked, fun hc => ?cold, fun hrun hmode => ?los, fun htree => ?assert, fun htree => ?deassert⟩
    case locked => rw [exec_bearingLoad s hr, bearingLoad_locked s.dev g h discovery t ht hg hl hd]
    case cold => rw [exec_bearingLoad s hr, bearingLoad_cold s.dev g h discovery hc]
    case los =>
      have hlos : upstreamLos g d = los d g := if_pos ⟨hrun, hmode⟩
      rw [exec_upstreamLos s hr, hlos]
    case assert =>
      rw [exec_treeLosAssert s hr tree htree]
      rfl
    case deassert =>
      rw [exec_treeLosDeassert s hr tree htree]
      rfl
  case bursts =>
    intro d m p hr ht hp
    refine ⟨fun hg => ?ungranted, fun hg hm hon => ⟨fun hnone => ?missing, fun off hoff => ?found⟩⟩
    case ungranted => rw [exec_burstReceive s hr, burstReceive_ungranted d rx t plan ht hp hg]
    case missing => rw [exec_burstReceive s hr, burstReceive_missing d rx t plan ht hp e es hg hm hon hnone]
    case found => rw [exec_burstReceive s hr, burstReceive_found d rx t plan ht hp e es hg hm hon off hoff]
  case records =>
    refine ⟨fun hlo hhi => ?good, ⟨rfl, rfl, rfl, rfl, rfl, rfl⟩, ⟨rfl, rfl, rfl, rfl⟩⟩
    case good =>
      rw [t.heard_good rx at_ off (t.valid_iff.2 ⟨hlo, hhi⟩)]
      exact ⟨rfl, rfl, rfl, rfl, rfl, rfl, rfl, rfl, rfl⟩

end Sys2Proof.Machine
end

section
/-!
SUPPORT. Discovery (03 R94, 04 R105, R113): what a searched window leads to, and the ONU-ID that an admitted terminal takes.
-/
namespace Sys2Proof.Machine

/-! ### The search of a window (03 R94) -/

theorem Profile.length_delimiter (p : Profile) : p.delimiter.length = 8 * p.delimLen := by
  rw [Profile.delimiter, List.length_map, List.length_range]

theorem Profile.delimiter_ne_nil (p : Profile) (h : p.delimLen ≠ 0) : p.delimiter ≠ [] := by
  rw [← List.length_pos_iff, p.length_delimiter]
  omega

/-- A serial-number burst holds its message at least. -/
theorem serialBits_pos (c : ChanCfg) (p : Profile) : 0 < serialBits c p := by
  unfold serialBits
  omega

/-- The window's first position is the search's, and a second one is one that begins within the length of a burst behind it. -/
theorem searchWindow_spec (c : ChanCfg) (p : Profile) (bits : List Bool) (i : Nat) (second : Bool) (hp : p.delimLen ≠ 0)
    (h : searchWindow c p bits = some (i, second)) :
    searchDelim p.delimiter p.tol 0 bits = some i
    ∧ (second = true ↔ ∃ j, i < j ∧ j ≤ i + serialBits c p ∧ DelimAt p.delimiter p.tol bits j) := by
  obtain ⟨k, hk, hpair⟩ := Option.map_eq_some_iff.1 h
  obtain ⟨rfl, rfl⟩ := Prod.mk.inj hpair
  refine ⟨hk, ?_⟩
  have hpat := p.delimiter_ne_nil hp
  have hlen := p.length_delimiter
  have hburst := serialBits_pos c p
  rw [searchDelim_isSome_iff _ _ hpat]
  simp only [delimAt_take_drop _ _ _ _ _ _ hpat]
  constructor
  · rintro ⟨m, hm, hat⟩
    exact ⟨k + 1 + m, by omega, by omega, hat⟩
  · rintro ⟨j, hlo, hhi, hat⟩
    obtain ⟨m, rfl⟩ := Nat.exists_eq_add_of_lt hlo
    refine ⟨m, by omega, ?_⟩
    rwa [show k + 1 + m = k + m + 1 by omega]

/-! ### What the window leads to (04 R113) -/

theorem exec_discoveryBurst (s : State) (h : s.dev.sys.inReset = false) (rx : DiscoveryRx) :
    exec (.discoveryBurst rx) s = .next { s with dev := (discoveryBurst rx s.dev).settle } := live_running _ s h

@[simp] theorem Dev.setChan_objs (d : Dev) (g : Nat) (f : Chan → Chan) : (d.setChan g f).objs = d.objs := rfl

theorem Dev.setChan_setChan (d : Dev) (g : Nat) (f k : Chan → Chan) : (d.setChan g f).setChan g k = d.setChan g fun c => k (f c) := by
  rw [Dev.setChan, Dev.chan_setChan, Dev.setChan, Tbl.put_put]
  rfl

/-- What the search of the channel's window finds. -/
def Dev.windowSearch (d : Dev) (rx : DiscoveryRx) (w : Window) : Option (Nat × Bool) :=
  searchWindow (chanCfg d.objs rx.chan) (profileOr0 d.objs rx.chan 0) (rx.bits.take (8 * w.len))

section
variable (d : Dev) (rx : DiscoveryRx) (w : Window) (hs : d.standby = false) (hon : d.chanOn rx.chan = true)
  (hw : (d.chan rx.chan).windowOf? 5 0xFFFF = some w)
include hs hon hw

theorem discoveryBurst_nothing (h : d.windowSearch rx w = none) : discoveryBurst rx d = d.setChan rx.chan fun c => c.useWindow w := by
  have hrun : ¬(d.standby = true ∨ (!d.chanOn rx.chan) = true) := by simp [hs, hon]
  unfold Dev.windowSearch at h
  simp only [discoveryBurst, if_neg hrun, hw, Dev.setChan_objs, h]

theorem discoveryBurst_found (pos : Nat) (second : Bool) (h : d.windowSearch rx w = some (pos, second)) :
    discoveryBurst rx d = (d.setChan rx.chan fun c => c.useWindow w).discovered rx second (coarseRtd d.objs rx.chan w pos rx.randDelay) := by
  have hrun : ¬(d.standby = true ∨ (!d.chanOn rx.chan) = true) := by simp [hs, hon]
  unfold Dev.windowSearch at h
  simp only [discoveryBurst, if_neg hrun, hw, Dev.setChan_objs, h]

end

/-! ### What an accepted burst leads to (03 R94, 04 R113) -/

section
variable (d : Dev) (rx : DiscoveryRx) (second : Bool) (rtd : Int)

theorem Dev.discovered_collision (h : second = true ∨ rx.badWithEnergy = true) :
    d.discovered rx second rtd = d.count (64 * rx.chan + 1) := if_pos h

variable (hclear : ¬(second = true ∨ rx.badWithEnergy = true))
include hclear

theorem Dev.discovered_unsupported (h : rx.unsupported = true) :
    d.discovered rx second rtd = ((d.goodLight rx.chan).count (64 * rx.chan)).sight rx.chan rx.serial 6 rtd.toNat :=
  (if_neg hclear).trans (if_pos h)

theorem Dev.discovered_undecoded (h : rx.unsupported = false) (hd : rx.decoded = false) : d.discovered rx second rtd = d :=
  (if_neg hclear).trans ((if_neg (Bool.eq_false_iff.1 h)).trans (if_neg (Bool.eq_false_iff.1 hd)))

theorem Dev.discovered_decoded (h : rx.unsupported = false) (hd : rx.decoded = true) :
    d.discovered rx second rtd = (d.goodLight rx.chan).onSerial rx.chan rx.serial rtd.toNat :=
  (if_neg hclear).trans ((if_neg (Bool.eq_false_iff.1 h)).trans (if_pos hd))

end

/-! ### Serial numbers (04 R113) -/

/-- The record of a serial number on the tree of a channel. -/
def Dev.known? (d : Dev) (g serial : Nat) : Option (Nat × Term) :=
  List.find? (fun t : Nat × Term => t.2.serial == serial && t.2.chan / 4 == g / 4) d.terms

/-- An active terminal that is heard in discovery: deactivated without a message, counted, and assigned its ONU-ID again. -/
def Dev.readmit (d : Dev) (h : Nat) (t : Term) (rtd : Nat) : Dev :=
  ((((d.deactivate h false none).1).count (0x10000 + 16 * h + 10)).setTerm h fun x =>
    { x with assigned := if x.onuId ≠ 0xFFFF then 0xFFFF else t.onu }).assign h rtd true

section
variable (d : Dev) (g serial rtd : Nat)

theorem Dev.onSerial_unknown (hk : d.known? g serial = none) : d.onSerial g serial rtd = d.sight g serial 1 rtd := by
  unfold Dev.known? at hk
  simp only [Dev.onSerial, hk]

variable (h : Nat) (t : Term) (hk : d.known? g serial = some (h, t))
include hk

theorem Dev.onSerial_known : d.onSerial g serial rtd =
    if t.state = 6 ∨ d.draining (.terminal h) = true then d.sight g serial 5 rtd
    else if t.chan ≠ g then d.sight g serial 2 rtd
    else if inReach d.objs g rtd = false then d.sight g serial 3 rtd
    else if t.state = 1 then d.assign h rtd false
    else d.readmit h t rtd := by
  unfold Dev.known? at hk
  simp only [Dev.onSerial, hk, Dev.termStopped, Bool.or_eq_true, beq_iff_eq, Bool.not_eq_true']
  rfl

end

/-! A good burst's light changes its channel alone. -/

section
variable (d : Dev) (g : Nat)

theorem Dev.goodLight_frame : d.goodLight g = { d with chans := (d.goodLight g).chans } := by
  unfold Dev.goodLight
  split <;> rfl

@[simp] theorem Dev.goodLight_objs : (d.goodLight g).objs = d.objs := by rw [Dev.goodLight_frame]; rfl
@[simp] theorem Dev.goodLight_known (k serial : Nat) : (d.goodLight g).known? k serial = d.known? k serial := by
  rw [Dev.goodLight_frame]; rfl
@[simp] theorem Dev.goodLight_draining (o : DrainObj) : (d.goodLight g).draining o = d.draining o := by rw [Dev.goodLight_frame]; rfl

end

/-! ### ONU-IDs (04 R105) -/

/-- While a channel holds at most 1,020 ONU-IDs, the one that is free is the lowest not held. -/
theorem Dev.freeId_spec (d : Dev) (g h : Nat) (hn : (d.heldIds g h).length ≤ 1020) :
    d.freeId g h ∉ d.heldIds g h ∧ d.freeId g h ≤ 1020 ∧ ∀ i < d.freeId g h, i ∈ d.heldIds g h := by
  obtain ⟨i, hi⟩ : ∃ i, (List.range 1021).find? (fun i => !(d.heldIds g h).contains i) = some i := by
    refine Option.ne_none_iff_exists'.1 fun hnone => ?_
    have hall : List.range 1021 ⊆ d.heldIds g h := fun i hi => by simpa using List.find?_eq_none.1 hnone i hi
    have hle := List.nodup_range.length_le_of_subset hall
    rw [List.length_range] at hle
    omega
  have hid : d.freeId g h = i := by rw [Dev.freeId, hi]; rfl
  obtain ⟨hfree, hmem, hlow⟩ := List.find?_range_eq_some.1 hi
  rw [hid]
  exact ⟨by simpa using hfree, Nat.lt_succ_iff.1 (List.mem_range.1 hmem), fun j hj => by simpa using hlow j hj⟩

/-- A PLOAM message that asks for no answer joins its channel's queue, and changes nothing else. -/
theorem Dev.ploam_unanswered (d : Dev) (g kind onu : Nat) (fields : List Nat) (hs : d.standby = false) (hk : plAnswered kind = false) :
    d.ploam g kind onu fields = d.setChan g fun c => { c with ploam := c.ploam ++ [(kind, onu, fields)] } :=
  (if_neg (Bool.eq_false_iff.1 hs)).trans (if_neg (Bool.eq_false_iff.1 hk))

/-- The record of a terminal that is assigned an ONU-ID (04 Table 4-6). -/
def Term.admitted (t : Term) (id rtd now : Nat) : Term :=
  { t.enter 2 now with
    assigned := if t.onuId ≠ 0xFFFF then 0xFFFF else id, rtdCoarse := rtd, attempts := 0, activations := min (t.activations + 1) 255 }

/-- The channel of a terminal that is assigned an ONU-ID: Assign_ONU-ID goes out, and a ranging window is requested. -/
def Chan.admits (c : Chan) (h rtd id serial : Nat) : Chan :=
  { c with ploam := c.ploam ++ [(plAssign, id, [serial])], ranging := c.ranging ++ [(h, rtd)] }

theorem Dev.assign_free (d : Dev) (h rtd : Nat) (t : Term) (hs : d.standby = false) (ht : d.term? h = some t) (ho : t.onuId = 0xFFFF) :
    d.assign h rtd false =
      (d.setTerm h fun x => x.admitted (d.freeId t.chan h) rtd d.now).setChan t.chan fun c =>
        c.admits h rtd (d.freeId t.chan h) t.serial := by
  have hid : (if (false : Bool) = true then t.onu else if t.onuId ≠ 0xFFFF then t.onuId else d.freeId t.chan h) = d.freeId t.chan h := by
    rw [if_neg Bool.false_ne_true, if_neg fun hne => hne ho]
  simp only [Dev.assign, ht, hid]
  rw [Dev.ploam_unanswered _ _ _ _ _ (by exact hs) rfl, Dev.setChan_setChan]
  rfl

/-- Settles O14: the window's search decides between its outcomes, the record that is known between those of a serial number. -/
theorem discoveryAdmitsTerminals : Obligations.DiscoveryAdmitsTerminals := by
  unfold Obligations.DiscoveryAdmitsTerminals
  refine ⟨fun s rx w => ?window, fun c p bits i second hp h => ?search, fun d h rtd t hs ht ho hn => ?assign⟩
  case window =>
    intro d g shut lit found known gives hr hs hon hw
    have hgives : ∀ y : Dev, discoveryBurst rx d = y → gives y := fun y hy => by
      show exec _ _ = _
      rw [exec_discoveryBurst s hr, hy]
    refine ⟨fun hnone => hgives _ (discoveryBurst_nothing d rx w hs hon hw hnone), fun pos second hfound => ?_⟩
    intro rtd
    have hburst := discoveryBurst_found d rx w hs hon hw pos second hfound
    refine ⟨fun hcoll => ?collision, fun h2 hbad => ?_⟩
    case collision => exact hgives _ (hburst.trans (shut.discovered_collision rx second _ hcoll))
    have hclear : ¬(second = true ∨ rx.badWithEnergy = true) := by simp [h2, hbad]
    refine ⟨fun hun => ?unsupported, fun hun hdec => ?undecoded, fun hun hdec => ?_⟩
    case unsupported => exact hgives _ (hburst.trans (shut.discovered_unsupported rx second _ hclear hun))
    case undecoded => exact hgives _ (hburst.trans (shut.discovered_undecoded rx second _ hclear hun hdec))
    have hserial : discoveryBurst rx d = lit.onSerial g rx.serial rtd := hburst.trans (shut.discovered_decoded rx second _ hclear hun hdec)
    have hknown : lit.known? g rx.serial = known := shut.goodLight_known g g rx.serial
    refine ⟨fun hnone => ?unknown, fun h t hk => ?_⟩
    case unknown => exact hgives _ (hserial.trans (lit.onSerial_unknown g _ _ (hknown.trans hnone)))
    have hcases := hserial.trans (lit.onSerial_known g rx.serial rtd h t (hknown.trans hk))
    rw [show lit.draining (.terminal h) = d.draining (.terminal h) from shut.goodLight_draining g _,
      show lit.objs = d.objs from shut.goodLight_objs g] at hcases
    refine ⟨fun hstop => hgives _ (hcases.trans (if_pos hstop)), fun h6 hdrain => ?_⟩
    have hgoes : ¬(t.state = 6 ∨ d.draining (.terminal h) = true) := by simp [h6, hdrain]
    rw [if_neg hgoes] at hcases
    refine ⟨fun hg => hgives _ (hcases.trans (if_pos hg)), fun hg hfar => ?far, fun hg hnear h1 => ?waiting, fun hg hnear h1 => ?active⟩
    case far => exact hgives _ (hcases.trans ((if_neg fun hne => hne hg).trans (if_pos hfar)))
    all_goals
      have hreach : ¬inReach d.objs g rtd = false := by simp [hnear]
      rw [if_neg fun hne => hne hg, if_neg hreach] at hcases
    case waiting => exact hgives _ (hcases.trans (if_pos h1))
    case active => exact hgives _ (hcases.trans (if_neg h1))
  case search =>
    obtain ⟨hfirst, hsecond⟩ := searchWindow_spec c p bits i second hp h
    refine ⟨hfirst, hsecond.trans ?_⟩
    simp only [DelimAt, p.length_delimiter]
  case assign =>
    obtain ⟨hfree, hle, hlow⟩ := d.freeId_spec t.chan h hn
    have honu : (t.admitted (d.freeId t.chan h) rtd d.now).onu = d.freeId t.chan h := by
      simp [Term.onu, Term.admitted, Term.enter, ho]
    rw [d.assign_free h rtd t hs ht ho]
    refine ⟨t.admitted (d.freeId t.chan h) rtd d.now, ?_, rfl, ?_⟩
    · exact (Dev.term_setTerm d h _).trans (by rw [ht]; rfl)
    · rw [honu, Dev.chan_setChan]
      exact ⟨hfree, hle, hlow, rfl, rfl, rfl⟩

end Sys2Proof.Machine
end

section
/-!
SUPPORT. Ranging (04 R116, R119; Table 4-6) and the expiries of a terminal (03 R92, R95): what a ranging window leads to, with its burst
and without one.
-/
namespace Sys2Proof.Machine

/-! ### The events out of reset -/

section
variable (s : State) (h : s.dev.sys.inReset = false)
include h

theorem exec_rangingBurst (rx : RangingRx) : exec (.rangingBurst rx) s = .next { s with dev := (rangingBurst rx s.dev).settle } :=
  live_running _ s h

theorem exec_rangingAttemptsExhausted (t : Nat) :
    exec (.rangingAttemptsExhausted t) s = .next { s with dev := (rangingExhausted t s.dev).settle } := live_running _ s h

theorem exec_lossOfBurst (t : Nat) : exec (.lossOfBurst t) s = .next { s with dev := (lossOfBurst t s.dev).settle } := live_running _ s h

theorem exec_losttimeExpiry (t : Nat) : exec (.losttimeExpiry t) s = .next { s with dev := (losttimeExpiry t s.dev).settle } :=
  live_running _ s h

theorem exec_bearingLockLoss (t : Nat) : exec (.bearingLockLoss t) s = .next { s with dev := (bearingLockLoss t s.dev).settle } :=
  live_running _ s h

end

/-! ### Operations that leave the running version and the commands in execution alone -/

section
variable (d : Dev)

@[simp] theorem Dev.setTerm_objs (h : Nat) (f : Term → Term) : (d.setTerm h f).objs = d.objs := rfl

@[simp] theorem Dev.setTerm_rerange (h k : Nat) (f : Term → Term) : (d.setTerm h f).rerange? k = d.rerange? k := rfl

@[simp] theorem Dev.count_objs (a : Nat) : (d.count a).objs = d.objs := by
  rw [Dev.count, Dev.countBy_frame]
  rfl

@[simp] theorem Dev.count_execs (a : Nat) : (d.count a).execs = d.execs := by
  rw [Dev.count, Dev.countBy_frame]

section
variable (dom : Nat) (r : MgmtRing) (kind term chan time : Nat) (msg : Bytes) (consumer : Nat)

@[simp] theorem Dev.toMgmt_objs : (d.toMgmt dom r kind term chan time msg consumer).objs = d.objs := by
  unfold Dev.toMgmt
  extract_lets u
  split
  · exact Dev.count_objs _ _
  · rfl

@[simp] theorem Dev.toMgmt_execs : (d.toMgmt dom r kind term chan time msg consumer).execs = d.execs := by
  unfold Dev.toMgmt
  extract_lets u
  split
  · exact Dev.count_execs _ _
  · rfl

end

section
variable (g h time : Nat) (msg : Bytes) (consumer : Nat)

@[simp] theorem Dev.copyPloam_objs : (d.copyPloam g h time msg consumer).objs = d.objs := by
  unfold Dev.copyPloam
  split
  · split <;> simp
  · rfl

@[simp] theorem Dev.copyPloam_execs : (d.copyPloam g h time msg consumer).execs = d.execs := by
  unfold Dev.copyPloam
  split
  · split <;> simp
  · rfl

end

/-- A message's check depends on the running version alone. -/
theorem Dev.ploamPasses_congr (e : Dev) (t : Term) (msg : Bytes) (h : e.objs = d.objs) : e.ploamPasses t msg = d.ploamPasses t msg := by
  simp only [Dev.ploamPasses, Dev.sessionKey, Dev.mode, h]

end

/-! ### A ranging window (R116, R119) -/

/-- A window of a terminal that is being activated, or that a re-range directs, is judged. -/
theorem rangingBurst_runs (d : Dev) (rx : RangingRx) (t : Term) (re : Option Exec) (hs : d.standby = false) (hg : t.chan = rx.chan)
    (hstate : t.state = 2 ∨ re.isSome = true) :
    ¬(d.standby = true ∨ t.chan ≠ rx.chan ∨ (!(t.state == 2 || re.isSome)) = true) := by
  have hjudged : (t.state == 2 || re.isSome) = true := by
    rw [Bool.or_eq_true, beq_iff_eq]
    exact hstate
  simp [hs, hg, hjudged]

/-- The device in which a good burst has used its window, given its channel light, and been stamped. -/
def Dev.stampedIn (d : Dev) (rx : RangingRx) (w : Window) (stamp : Nat) : Dev :=
  ((d.setChan rx.chan fun c => c.useWindow w).goodLight rx.chan).setTerm rx.term fun x => { x with burstTime := stamp }

/-- The device behind a good burst, its Registration message copied or counted (03 R100). -/
def Dev.heardIn (d : Dev) (rx : RangingRx) (t : Term) (w : Window) (delim : Nat) : Dev :=
  let stamp := wrap 64 ((delim : Int) + burstCorrection (chanCfg d.objs rx.chan))
  if d.ploamPasses t rx.msg then (d.stampedIn rx w stamp).copyPloam rx.chan rx.term stamp rx.msg rx.consumer
  else (d.stampedIn rx w stamp).count (0x10000 + 16 * rx.term + 1)

section
variable (d : Dev) (rx : RangingRx) (t : Term) (w : Window) (delim : Nat)

theorem Dev.stampedIn_objs (stamp : Nat) : (d.stampedIn rx w stamp).objs = d.objs := Dev.goodLight_objs _ _

theorem Dev.heardIn_objs : (d.heardIn rx t w delim).objs = d.objs := by
  unfold Dev.heardIn
  dsimp only
  split <;> simp [Dev.stampedIn_objs]

theorem Dev.registration_heardIn (hg : t.chan = rx.chan) :
    ((d.setChan rx.chan fun c => c.useWindow w).goodLight rx.chan).registration rx t delim = d.heardIn rx t w delim := by
  simp only [Dev.registration, Dev.goodLight_objs, Dev.setChan_objs, hg]
  have hstamped := d.stampedIn_objs rx w (wrap 64 ((delim : Int) + burstCorrection (chanCfg d.objs rx.chan)))
  rw [Dev.heardIn, ← d.ploamPasses_congr _ t rx.msg hstamped]
  rfl

end

section
variable (d : Dev) (rx : RangingRx) (t : Term) (w : Window) (hs : d.standby = false) (ht : d.term? rx.term = some t)
  (hg : t.chan = rx.chan) (hw : (d.chan rx.chan).windowOf? 6 rx.term = some w)
include hs ht hg hw

theorem rangingBurst_activates (delim : Nat) (hd : rx.delim = some delim) (hgood : rx.good = true) (h2 : t.state = 2)
    (hre : d.rerange? rx.term = none) :
    rangingBurst rx d = (d.heardIn rx t w delim).rangingGood rx t w (rtdOf d.objs rx.chan w delim) := by
  simp only [rangingBurst, ht, hw, hd, hgood, hre, if_neg (rangingBurst_runs d rx t none hs hg (.inl h2)),
    d.registration_heardIn rx t w delim hg, Dev.setChan_objs]

theorem rangingBurst_reranges (delim : Nat) (hd : rx.delim = some delim) (hgood : rx.good = true) (e : Exec)
    (hre : d.rerange? rx.term = some e) :
    rangingBurst rx d = (d.heardIn rx t w delim).rerangeGood rx t e (rtdOf d.objs rx.chan w delim) := by
  simp only [rangingBurst, ht, hw, hd, hgood, hre, if_neg (rangingBurst_runs d rx t (some e) hs hg (.inr rfl)),
    d.registration_heardIn rx t w delim hg, Dev.setChan_objs]

theorem rangingBurst_missed (hstate : t.state = 2 ∨ (d.rerange? rx.term).isSome = true) (hrx : rx.delim = none ∨ rx.good = false) :
    rangingBurst rx d = (d.setChan rx.chan fun c => c.useWindow w).missRanging rx.term t := by
  simp only [rangingBurst, ht, if_neg (rangingBurst_runs d rx t _ hs hg hstate), hw]
  split
  · next hd hgood =>
    rcases hrx with hnone | hbad
    · rw [hnone] at hd
      cases hd
    · rw [hbad] at hgood
      cases hgood
  · rfl

end

/-! ### A good burst of an activation (R107, R116) -/

section
variable (d : Dev) (rx : RangingRx) (t : Term) (w : Window) (rtd : Int)

/-- The terminal is the one that its record names: no check is asked for, or its registration ID matches. -/
def Dev.regKnown (d : Dev) (rx : RangingRx) (t : Term) (w : Window) : Prop :=
  w.regChk = false ∨ (d.ploamPasses t rx.msg = true ∧ regMatches t.regId rx.regId = true)

theorem Dev.not_regKnown_iff :
    ¬d.regKnown rx t w ↔ w.regChk = true ∧ (!(d.ploamPasses t rx.msg && regMatches t.regId rx.regId)) = true := by
  rw [Dev.regKnown, not_or, Bool.not_eq_false, ← Bool.and_eq_true, Bool.not_eq_true, ← Bool.not_eq_true']

/-- A delay that ranging accepts (04 R116). -/
def inRange (objs : List VObj) (g : Nat) (rtd : Int) : Prop := 0 ≤ rtd ∧ rangeReach objs g rtd.toNat = true

theorem not_inRange_iff (objs : List VObj) (g : Nat) : ¬inRange objs g rtd ↔ rtd < 0 ∨ (!rangeReach objs g rtd.toNat) = true := by
  rw [inRange, Classical.not_and_iff_not_or_not, Int.not_le, Bool.not_eq_true, ← Bool.not_eq_true']

theorem Dev.rangingGood_unknown (h : ¬d.regKnown rx t w) :
    d.rangingGood rx t w rtd = ((d.deactivate rx.term true none).1).sight t.chan t.serial 4 rtd.toNat :=
  if_pos ((d.not_regKnown_iff rx t w).1 h)

variable (hk : d.regKnown rx t w)
include hk

theorem Dev.rangingGood_known : d.rangingGood rx t w rtd =
    if rtd < 0 ∨ (!rangeReach d.objs t.chan rtd.toNat) = true then
      ((d.deactivate rx.term true none).1).sight t.chan t.serial 3 rtd.toNat
    else (d.setTerm rx.term fun x => x.enter 3 d.now).sendEqd rx.term t (eqdOf d.objs t.chan rtd.toNat).toNat :=
  if_neg fun hc => (d.not_regKnown_iff rx t w).2 hc hk

theorem Dev.rangingGood_outOfReach (h : ¬inRange d.objs t.chan rtd) :
    d.rangingGood rx t w rtd = ((d.deactivate rx.term true none).1).sight t.chan t.serial 3 rtd.toNat :=
  (d.rangingGood_known rx t w rtd hk).trans (if_pos ((not_inRange_iff rtd _ _).1 h))

theorem Dev.rangingGood_ranged (h : inRange d.objs t.chan rtd) : d.rangingGood rx t w rtd =
    (d.setTerm rx.term fun x => { x.enter 3 d.now with
      eqd := (eqdOf d.objs t.chan rtd.toNat).toNat, drift := [], eqdWait := 8, heldEqd := none, attempts := 0 }).ploam t.chan plRanging t.onu
        [(eqdOf d.objs t.chan rtd.toNat).toNat] := by
  rw [d.rangingGood_known rx t w rtd hk, if_neg fun hc => (not_inRange_iff rtd _ _).2 hc h, Dev.sendEqd, Dev.setTerm_setTerm]

end

/-! ### A good burst of a re-range (R119) -/

section
variable (d : Dev) (rx : RangingRx) (t : Term) (e : Exec) (rtd : Int)

/-- The burst teaches the bearing, and a LOST terminal has returned. -/
def Dev.relearned (d : Dev) (rx : RangingRx) : Dev :=
  d.setTerm rx.term fun x => d.chooseProfile (d.goodState { x.learn rx.final with missing := 0, noDelim := 0 })

/-- The EqD that a re-range measures: the terminal answered with the one in force (log entry 30). -/
def newEqd (objs : List VObj) (t : Term) (rtd : Int) : Int :=
  (t.eqd : Int) - roundDiv (rtd * upRate5 (chanCfg objs t.chan) - (teqBits objs t.chan * 100000 : Nat)) 100000

/-- The terminal's own delay, its EqD in force taken out. -/
def ownDelay (objs : List VObj) (t : Term) (rtd : Int) : Int := rtd - roundDiv ((t.eqd : Int) * 100000) (upRate5 (chanCfg objs t.chan))

/-- A measurement that a re-range accepts. -/
def rerangeFits (objs : List VObj) (t : Term) (rtd : Int) : Prop :=
  0 ≤ newEqd objs t rtd ∧ 0 ≤ ownDelay objs t rtd ∧ rangeReach objs t.chan (ownDelay objs t rtd).toNat = true

theorem not_rerangeFits_iff (objs : List VObj) : ¬rerangeFits objs t rtd ↔
    newEqd objs t rtd < 0 ∨ ownDelay objs t rtd < 0 ∨ (!rangeReach objs t.chan (ownDelay objs t rtd).toNat) = true := by
  rw [rerangeFits, Classical.not_and_iff_not_or_not, Classical.not_and_iff_not_or_not, Int.not_le, Int.not_le,
    Bool.not_eq_true, ← Bool.not_eq_true']

theorem Dev.rerangeGood_eq : d.rerangeGood rx t e rtd =
    if newEqd d.objs t rtd < 0 ∨ ownDelay d.objs t rtd < 0 ∨ (!rangeReach d.objs t.chan (ownDelay d.objs t rtd).toNat) = true then
      ((d.relearned rx).setTerm rx.term fun x => { x with attempts := 0 }).finish e .done [0xFFFFFFFF, 2]
    else if t.eqdWait ≠ 0 then
      (d.relearned rx).setTerm rx.term fun x => { x with heldEqd := some (newEqd d.objs t rtd).toNat, attempts := 0 }
    else (d.relearned rx).rerangeDone rx.term t e (newEqd d.objs t rtd).toNat := rfl

theorem Dev.rerangeGood_fails (h : ¬rerangeFits d.objs t rtd) : d.rerangeGood rx t e rtd =
    ((d.relearned rx).setTerm rx.term fun x => { x with attempts := 0 }).finish e .done [0xFFFFFFFF, 2] :=
  (d.rerangeGood_eq rx t e rtd).trans (if_pos ((not_rerangeFits_iff t rtd _).1 h))

variable (h : rerangeFits d.objs t rtd)
include h

theorem Dev.rerangeGood_waits (hw : t.eqdWait ≠ 0) : d.rerangeGood rx t e rtd =
    (d.relearned rx).setTerm rx.term fun x => { x with heldEqd := some (newEqd d.objs t rtd).toNat, attempts := 0 } :=
  (d.rerangeGood_eq rx t e rtd).trans ((if_neg fun hc => (not_rerangeFits_iff t rtd _).2 hc h).trans (if_pos hw))

theorem Dev.rerangeGood_done (hw : t.eqdWait = 0) : d.rerangeGood rx t e rtd =
    (((d.relearned rx).setTerm rx.term fun x => { x with
      eqd := (newEqd d.objs t rtd).toNat, drift := [], eqdWait := 8, heldEqd := none, attempts := 0 }).ploam t.chan plRanging t.onu
        [(newEqd d.objs t rtd).toNat]).finish e .done [(newEqd d.objs t rtd).toNat, wrap 32 (newEqd d.objs t rtd - t.eqd)] := by
  rw [d.rerangeGood_eq, if_neg fun hc => (not_rerangeFits_iff t rtd _).2 hc h, if_neg fun hne => hne hw, Dev.rerangeDone,
    Int.toNat_of_nonneg h.1]
  rfl

end

/-! ### A window without a good burst (R116, R119) -/

section
variable (d : Dev) (h : Nat) (t : Term)

/-- One attempt more. -/
def Dev.tried (d : Dev) (h : Nat) : Dev := d.setTerm h fun x => { x with attempts := x.attempts + 1 }

theorem Dev.missRanging_last (ha : (discCfg d.objs t.chan).rangeAtt ≤ t.attempts + 1) : d.missRanging h t = d.tried h := if_pos ha

variable (ha : t.attempts + 1 < (discCfg d.objs t.chan).rangeAtt)
include ha

theorem Dev.missRanging_next (hon : (discCfg d.objs t.chan).on = true) : d.missRanging h t = (d.tried h).setChan t.chan fun c =>
    { c with ranging := c.ranging ++ [(h, if t.state = 2 then t.rtdCoarse else teqNs d.objs t.chan)] } := by
  refine (if_neg (Nat.not_le.2 ha)).trans (if_neg ?_)
  simp [hon]

variable (hoff : (discCfg d.objs t.chan).on = false)
include hoff

theorem Dev.missRanging_ends (e : Exec) (hre : d.rerange? h = some e) : d.missRanging h t =
    ((d.tried h).setTerm h fun x => { x with attempts := 0 }).finish e .done [0xFFFFFFFF, 3] := by
  simp only [Dev.missRanging, Dev.setTerm_objs, if_neg (Nat.not_le.2 ha), hoff, Bool.not_false, if_true, Dev.setTerm_rerange, hre]
  rfl

theorem Dev.missRanging_stops (hre : d.rerange? h = none) : d.missRanging h t = d.tried h := by
  simp only [Dev.missRanging, Dev.setTerm_objs, if_neg (Nat.not_le.2 ha), hoff, Bool.not_false, if_true, Dev.setTerm_rerange, hre]
  rfl

end

/-! ### Expiries -/

section
variable (d : Dev) (h : Nat) (t : Term) (ht : d.term? h = some t)
include ht

theorem rangingExhausted_rerange (hs : d.standby = false) (ha : (discCfg d.objs t.chan).rangeAtt ≤ t.attempts) (e : Exec)
    (he : d.rerange? h = some e) :
    rangingExhausted h d = (d.setTerm h fun x => { x with attempts := 0 }).finish e .done [0xFFFFFFFF, 1] := by
  have hruns : ¬(d.standby = true ∨ t.attempts < (discCfg d.objs t.chan).rangeAtt) := by simp [hs, ha]
  simp only [rangingExhausted, ht, if_neg hruns, he]

theorem rangingExhausted_assigned (hs : d.standby = false) (ha : (discCfg d.objs t.chan).rangeAtt ≤ t.attempts)
    (he : d.rerange? h = none) (h2 : t.state = 2) :
    rangingExhausted h d = ((d.deactivate h true none).1).count (0x10000 + 16 * h + 8) := by
  have hruns : ¬(d.standby = true ∨ t.attempts < (discCfg d.objs t.chan).rangeAtt) := by simp [hs, ha]
  simp only [rangingExhausted, ht, if_neg hruns, he, if_pos h2, ctrTerm]

theorem lossOfBurst_few (hm : t.missing < 4) : lossOfBurst h d = d := by
  simp only [lossOfBurst, ht]
  exact if_pos (.inr hm)

theorem lossOfBurst_ranged (hs : d.standby = false) (hm : 4 ≤ t.missing) (h3 : t.state = 3) :
    lossOfBurst h d = ((d.deactivate h true none).1).count (0x10000 + 16 * h + 8) := by
  have hruns : ¬(d.standby = true ∨ t.missing < 4) := by simp [hs, hm]
  simp only [lossOfBurst, ht, if_neg hruns, if_pos h3, ctrTerm]

/-- An OPERATING terminal becomes LOST, and keeps everything else of its record (04 Table 4-6). -/
theorem lossOfBurst_operating (hs : d.standby = false) (hm : 4 ≤ t.missing) (h4 : t.state = 4) :
    lossOfBurst h d = d.setTerm h fun x => { x with
      state := 5, since := d.now, lossOfBurst := true, lostDue := d.time.c + (discCfg d.objs t.chan).lostTime * 1000000 } := by
  have hruns : ¬(d.standby = true ∨ t.missing < 4) := by simp [hs, hm]
  have h3 : ¬t.state = 3 := by omega
  simp only [lossOfBurst, ht, if_neg hruns, if_neg h3, if_pos h4]
  rfl

theorem losttimeExpiry_lost (hs : d.standby = false) (h5 : t.state = 5) :
    losttimeExpiry h d = (((d.goCounter t.lostDue).deactivate h true none).1).count (0x10000 + 16 * h + 9) := by
  have hruns : t.state = 5 ∧ (!d.standby) = true := by simp [hs, h5]
  simp only [losttimeExpiry, ht, if_pos hruns, ctrTerm]

theorem bearingLockLoss_clears (hn : 4 ≤ t.noDelim) : bearingLockLoss h d = d.setTerm h fun t =>
    { t with locked := false, count := 0, locks := [], runs := [], profile := 0 } :=
  d.setTerm_congr h _ _ t ht (if_pos hn)

end

/-- Settles O15: a window is used, and its burst or the lack of one leads to what the terminal's state and measurement say; each expiry by
its state. -/
theorem rangingAndLossesMoveTheTerminal : Obligations.RangingAndLossesMoveTheTerminal := by
  unfold Obligations.RangingAndLossesMoveTheTerminal
  refine ⟨fun s rx t w at_ => ?good, fun s rx t w => ?missed, fun s h t => ?expiries⟩
  case good =>
    intro d g h shut lit stamp timed told rtd gives hr hs ht hg hw hd hgood
    have hgives : ∀ y : Dev, rangingBurst rx d = y → gives y := fun y hy => by
      show exec _ _ = _
      rw [exec_rangingBurst s hr, hy]
    have hobjs : told.objs = d.objs := d.heardIn_objs rx t w at_
    refine ⟨fun h2 hre => ?activation, fun e hre => ?rerange⟩
    case activation =>
      intro known inRange' eqd
      have hburst : rangingBurst rx d = told.rangingGood rx t w rtd := rangingBurst_activates d rx t w hs ht hg hw at_ hd hgood h2 hre
      have hknown : told.regKnown rx t w ↔ known := by rw [Dev.regKnown, d.ploamPasses_congr told t rx.msg hobjs]
      have hrange : inRange told.objs t.chan rtd ↔ inRange' := by rw [hobjs, hg]; exact Iff.rfl
      refine ⟨fun hk => hgives _ ?unknown, fun hk hi => hgives _ ?outOfReach, fun hk hi => hgives _ ?ranged⟩
      case unknown => rw [hburst, told.rangingGood_unknown rx t w rtd ((not_congr hknown).2 hk), hg]
      case outOfReach => rw [hburst, told.rangingGood_outOfReach rx t w rtd (hknown.2 hk) ((not_congr hrange).2 hi), hg]
      case ranged =>
        rw [hburst, told.rangingGood_ranged rx t w rtd (hknown.2 hk) (hrange.2 hi), hobjs, hg]
        rfl
    case rerange =>
      intro heard r5 eqd own fits
      have hburst : rangingBurst rx d = told.rerangeGood rx t e rtd := rangingBurst_reranges d rx t w hs ht hg hw at_ hd hgood e hre
      have heqd : newEqd told.objs t rtd = eqd := by rw [newEqd, hobjs, hg]
      have hfits : rerangeFits told.objs t rtd ↔ fits := by rw [rerangeFits, heqd, ownDelay, hobjs, hg]
      refine ⟨fun hf => hgives _ ?fails, fun hf hwait => hgives _ ?waits, fun hf hwait => hgives _ ?done⟩
      case fails =>
        rw [hburst, told.rerangeGood_fails rx t e rtd ((not_congr hfits).2 hf)]
        rfl
      case waits =>
        rw [hburst, told.rerangeGood_waits rx t e rtd (hfits.2 hf) hwait, heqd]
        rfl
      case done =>
        rw [hburst, told.rerangeGood_done rx t e rtd (hfits.2 hf) hwait, heqd, hg]
        rfl
  case missed =>
    intro d g h c once gives hr hs ht hg hstate hw hrx
    have hgives : ∀ y : Dev, (d.setChan g fun c => c.useWindow w).missRanging h t = y → gives y := fun y hy => by
      show exec _ _ = _
      rw [exec_rangingBurst s hr, rangingBurst_missed d rx t w hs ht hg hw hstate hrx, hy]
    have hcfg : discCfg (d.setChan g fun c => c.useWindow w).objs t.chan = c := by
      rw [hg]
      rfl
    rw [← hcfg]
    refine ⟨fun ha => hgives _ ?last, fun ha hon => hgives _ ?next,
      fun ha hoff => ⟨fun hre => hgives _ ?stops, fun e hre => hgives _ ?ends⟩⟩
    case last => exact Dev.missRanging_last _ h t ha
    case next =>
      rw [Dev.missRanging_next _ h t ha hon, hg]
      rfl
    case stops => exact Dev.missRanging_stops _ h t ha hoff hre
    case ends => exact Dev.missRanging_ends _ h t ha hoff e hre
  case expiries =>
    intro d gone hr hs ht
    rw [exec_rangingAttemptsExhausted s hr, exec_lossOfBurst s hr, exec_losttimeExpiry s hr, exec_bearingLockLoss s hr]
    refine ⟨fun ha => ⟨fun e he => ?rerange, fun he h2 => ?assigned⟩, fun hm h3 => ?ranged, fun hm h4 => ?operating, fun hm => ?few,
      fun h5 => ?lost, fun hn => ?unlocked⟩
    case rerange => rw [rangingExhausted_rerange d h t ht hs ha e he]
    case assigned => rw [rangingExhausted_assigned d h t ht hs ha he h2]
    case ranged => rw [lossOfBurst_ranged d h t ht hs hm h3]
    case operating => rw [lossOfBurst_operating d h t ht hs hm h4]
    case few => rw [lossOfBurst_few d h t ht hm]
    case lost => rw [losttimeExpiry_lost d h t ht hs h5]
    case unlocked => rw [bearingLockLoss_clears d h t ht hn]

end Sys2Proof.Machine
end

section
/-!
SUPPORT. Key switches and key exchanges (11 R272, R275, R276; 03 R100): pending switches, their superframe, and the attempts of an exchange.
-/
namespace Sys2Proof.Machine

/-! ### The events out of reset -/

section
variable (s : State) (h : s.dev.sys.inReset = false)
include h

theorem exec_keySwitchApply (i : Nat) : exec (.keySwitchApply i) s = .next { s with dev := (keySwitchApply i s.dev).settle } :=
  live_running _ s h

theorem exec_keyReportReceive (t : Nat) (msg : Bytes) (consumer : Nat) :
    exec (.keyReportReceive t msg consumer) s = .next { s with dev := (keyReportReceive t msg consumer s.dev).settle } := live_running _ s h

theorem exec_keyExchangeRetry (t : Nat) : exec (.keyExchangeRetry t) s = .next { s with dev := (keyExchangeRetry t s.dev).settle } :=
  live_running _ s h

end

/-! ### Slots -/

/-- The slots below 49,152 are the terminals'. -/
theorem slotSet_unicast (i : Nat) (h : i < 49152) : slotSet? i = none := if_pos h

theorem slotSet_broadcast (i : Nat) (h : 49152 ≤ i) : slotSet? i = some ((i - 49152) / 2) := if_neg (Nat.not_lt.2 h)

section
variable (d : Dev) (i : Nat)

theorem Dev.slotSwitch_unicast (h : i < 49152) : d.slotSwitch? i = (d.term? (i / 2)).bind Term.keySwitch := by
  rw [Dev.slotSwitch?, slotSet_unicast i h]

theorem Dev.slotSwitch_broadcast (h : 49152 ≤ i) : d.slotSwitch? i = (d.bset ((i - 49152) / 2)).2 := by
  rw [Dev.slotSwitch?, slotSet_broadcast i h]

end

/-! ### KEY_SWITCH (R272) -/

section
variable (d : Dev) (e : Exec)

theorem cmdKeySwitch_unicast (h : ent e.par 16 4 < 49152) : cmdKeySwitch.run e d =
    (d.setTerm (ent e.par 16 4 / 2) fun y => { y with keySwitch := some (ent e.par 16 4, ent e.par 20 4) }).park e := by
  simp only [cmdKeySwitch, slotSet_unicast _ h]

theorem cmdKeySwitch_broadcast (n : Nat) (hn : n = (ent e.par 16 4 - 49152) / 2) (h : 49152 ≤ ent e.par 16 4) : cmdKeySwitch.run e d =
    Dev.park { d with bsets := d.bsets.put n ((d.bset n).1, some (ent e.par 16 4, ent e.par 20 4)) } e := by
  simp only [cmdKeySwitch, slotSet_broadcast _ h, hn]

end

/-- The command that waits for a slot's switch. -/
def Dev.switching? (d : Dev) (i : Nat) : Option Exec :=
  d.execs.find? fun e => e.op == 0x0A03 && e.started && e.armed.isNone && ent e.par 16 4 == i

section
variable (d : Dev) (i sfc : Nat) (hi : d.slotSwitch? i = some (i, sfc))
include hi

theorem keySwitchApply_early (h : 0 < d.sfcAhead sfc) : keySwitchApply i d = d := by
  simp only [keySwitchApply, hi]
  exact if_pos (.inr h)

variable (h : d.sfcAhead sfc ≤ 0) (e : Exec) (he : d.switching? i = some e)
include h he

/-- The slot's index becomes active in its terminal. -/
theorem keySwitchApply_unicast (hslot : i < 49152) : keySwitchApply i d =
    (d.setTerm (i / 2) fun y => { y with activeKey := i % 2, keySwitch := none }).finish e .done
      [((d.time.frame : Int) + d.sfcAhead sfc).toNat * 125000 % 2 ^ 32, i] := by
  have hdue : ¬(i ≠ i ∨ 0 < d.sfcAhead sfc) := by omega
  unfold Dev.switching? at he
  simp only [keySwitchApply, hi, if_neg hdue, slotSet_unicast i hslot, Dev.setTerm_execs, he, Dev.setTerm_time, frameNs]

/-- The slot's index becomes active in its broadcast set. -/
theorem keySwitchApply_broadcast (hslot : 49152 ≤ i) : keySwitchApply i d =
    Dev.finish { d with bsets := d.bsets.put ((i - 49152) / 2) (i % 2, none) } e .done
      [((d.time.frame : Int) + d.sfcAhead sfc).toNat * 125000 % 2 ^ 32, i] := by
  have hdue : ¬(i ≠ i ∨ 0 < d.sfcAhead sfc) := by omega
  unfold Dev.switching? at he
  simp only [keySwitchApply, hi, if_neg hdue, slotSet_broadcast i hslot, he, frameNs]

end

/-! ### KEY_EXCHANGE (R275) -/

theorem Dev.askKey_term (d : Dev) (e : Exec) (h attempt : Nat) (t : Term) (ht : d.term? h = some t) : d.askKey e h attempt =
    (d.ploam t.chan plKey t.onu [1 - t.activeKey]).park { e with aux := [attempt, d.time.frame] } := by
  simp only [Dev.askKey, ht]

/-- The key that a Key_Report brings, under the session key in force (R276). -/
def Dev.broughtKey (d : Dev) (t : Term) (msg : Bytes) : KeySlot :=
  { ctr := true, ctrKey := Config.unwrapKey (Config.deriveKek (d.mode t.chan) (d.sessionKey t)) msg, exchanged := true }

section
variable (d : Dev) (h : Nat) (t : Term) (ht : d.term? h = some t)

section
variable (msg : Bytes) (consumer : Nat)
include ht

theorem keyReportReceive_bad (hm : d.ploamPasses t msg = false) : keyReportReceive h msg consumer d = d.count (0x10000 + 16 * h + 1) := by
  simp only [keyReportReceive, ht, hm, Bool.not_false, if_true, ctrTerm]

variable (hm : d.ploamPasses t msg = true)
include hm

theorem keyReportReceive_idle (he : d.exchange? h = none) :
    keyReportReceive h msg consumer d = d.copyPloam t.chan h t.burstTime msg consumer := by
  have hcopy : (d.copyPloam t.chan h t.burstTime msg consumer).exchange? h = none := by rw [Dev.exchange?, Dev.copyPloam_execs]; exact he
  simp only [keyReportReceive, ht, hm, Bool.not_true, Bool.false_eq_true, if_false, hcopy]

theorem keyReportReceive_exchange (e : Exec) (he : d.exchange? h = some e) : keyReportReceive h msg consumer d =
    Dev.finish { d.copyPloam t.chan h t.burstTime msg consumer with
      keys := (d.copyPloam t.chan h t.burstTime msg consumer).keys.put (2 * h + (1 - t.activeKey)) (d.broughtKey t msg) } e .done
      [2 * h + (1 - t.activeKey)] := by
  have hcopy : (d.copyPloam t.chan h t.burstTime msg consumer).exchange? h = some e := by rw [Dev.exchange?, Dev.copyPloam_execs]; exact he
  simp only [keyReportReceive, ht, hm, Bool.not_true, Bool.false_eq_true, if_false, hcopy, Dev.broughtKey, Dev.mode, Dev.sessionKey,
    Dev.copyPloam_objs]

end

theorem keyExchangeRetry_none (he : d.exchange? h = none) : keyExchangeRetry h d = d := by simp only [keyExchangeRetry, he]

section
variable (e : Exec) (he : d.exchange? h = some e)
include he

theorem keyExchangeRetry_last (hn : 3 ≤ e.aux.getD 0 0) :
    keyExchangeRetry h d = (d.goTime ((e.aux.getD 1 0 + 32) * 125000)).finish e .done [0xFFFFFFFF] := by
  simp only [keyExchangeRetry, he, if_neg (Nat.not_lt.2 hn), frameNs]

include ht

theorem keyExchangeRetry_again (hn : e.aux.getD 0 0 < 3) : keyExchangeRetry h d =
    ((d.goTime ((e.aux.getD 1 0 + 32) * 125000)).ploam t.chan plKey t.onu [1 - t.activeKey]).park
      { e with aux := [e.aux.getD 0 0 + 1, (d.goTime ((e.aux.getD 1 0 + 32) * 125000)).time.frame] } := by
  simp only [keyExchangeRetry, he, if_pos hn, frameNs]
  exact Dev.askKey_term _ e h _ t ht

end

end

/-- Settles O29: a switch is parked and applied by its superframe, an exchange answered by its report or after its attempts. -/
theorem keySwitchesAndExchanges : Obligations.KeySwitchesAndExchanges := by
  unfold Obligations.KeySwitchesAndExchanges
  refine ⟨fun p s t x e i sfc => ?switches, fun p s h t msg consumer e => ?exchanges⟩
  case switches =>
    intro d b k ahead answered
    refine ⟨fun ha hk => ?unicast, fun ha hk => ?broadcast, fun hr hahead he => ⟨fun hi ht hx hsw => ?applies, fun hi => ?appliesSet⟩,
      fun hr hsw hahead => ?early⟩
    case unicast =>
      rw [exec_accepted (.keySwitch p) cmdKeySwitch p s rfl ha, cmdKeySwitch_unicast (d.fetch p) (cmdKeySwitch.entry d p) hk]
      rfl
    case broadcast =>
      intro n
      rw [exec_accepted (.keySwitch p) cmdKeySwitch p s rfl ha, cmdKeySwitch_broadcast (d.fetch p) (cmdKeySwitch.entry d p) n rfl hk]
      rfl
    case applies =>
      subst ht
      have hslot : d.slotSwitch? i = some (i, sfc) := by rw [d.slotSwitch_unicast i hi, hx]; exact hsw
      rw [exec_keySwitchApply s hr, keySwitchApply_unicast d i sfc hslot hahead e he hi]
    case appliesSet =>
      intro n hsw
      have hslot : d.slotSwitch? i = some (i, sfc) := (d.slotSwitch_broadcast i hi).trans hsw
      rw [exec_keySwitchApply s hr, keySwitchApply_broadcast d i sfc hslot hahead e he hi]
    case early => rw [exec_keySwitchApply s hr, keySwitchApply_early d i sfc hsw hahead]
  case exchanges =>
    intro d b mode session passes told brought due
    refine ⟨fun ha ht => ?starts, fun hr ht he => ⟨?report, fun hn => ?again, fun hn => ?last⟩,
      fun hr ht he => ⟨?reportIdle, ?retryIdle⟩⟩
    case starts =>
      have hrun : cmdKeyExchange.run (cmdKeyExchange.entry d p) (d.fetch p) = _ :=
        (d.fetch p).askKey_term (cmdKeyExchange.entry d p) _ 1 t ht
      rw [exec_accepted (.keyExchange p) cmdKeyExchange p s rfl ha, hrun]
      rfl
    case report =>
      rw [exec_keyReportReceive s hr]
      by_cases hm : d.ploamPasses t msg = true
      · rw [keyReportReceive_exchange d h t ht msg consumer hm e he, if_pos (show passes = true from hm)]
        rfl
      · rw [keyReportReceive_bad d h t ht msg consumer (Bool.eq_false_iff.2 hm), if_neg (show ¬passes = true from hm)]
    case again => rw [exec_keyExchangeRetry s hr, keyExchangeRetry_again d h t ht e he hn]
    case last => rw [exec_keyExchangeRetry s hr, keyExchangeRetry_last d h e he hn]
    case reportIdle =>
      rw [exec_keyReportReceive s hr]
      by_cases hm : d.ploamPasses t msg = true
      · rw [keyReportReceive_idle d h t ht msg consumer hm he, if_pos (show passes = true from hm)]
      · rw [keyReportReceive_bad d h t ht msg consumer (Bool.eq_false_iff.2 hm), if_neg (show ¬passes = true from hm)]
    case retryIdle => rw [exec_keyExchangeRetry s hr, keyExchangeRetry_none d h he]

end Sys2Proof.Machine
end

section
/-!
SUPPORT. What a channel sends next (03 R82, R84, R85, R104; 10 R251, R252; 14 R359): the order of the tree unit, and the rounds of
`next_down`.
-/
namespace Sys2Proof.Machine

/-! ### The events out of reset -/

section
variable (s : State) (h : s.dev.sys.inReset = false)
include h

theorem exec_downstreamSelect (g : Nat) :
    exec (.downstreamSelect g) s = .next { s with dev := (downstreamSelect g s.dev).settle } := live_running _ s h

theorem exec_tailStomp (g : Nat) : exec (.tailStomp g) s = .next { s with dev := (tailStomp g s.dev).settle } := live_running _ s h

end

/-! ### The tree unit takes a frame (03 R82, R84, R104) -/

section
variable (d : Dev) (g : Nat)

theorem downstreamSelect_idle (h : d.chanIdle g = true) : downstreamSelect g d = d := if_pos (.inr h)

/-- A channel that is on takes a frame. -/
theorem select_runs (hg : g ≤ 191) (hon : d.chanIdle g = false) : ¬(191 < g ∨ d.chanIdle g = true) := by simp [hon, hg]

theorem downstreamSelect_linkDown (hg : g ≤ 191) (hon : d.chanIdle g = false) (hl : (d.endSending g).chanLink g = false) :
    downstreamSelect g d = d.endSending g := by
  refine (if_neg (select_runs d g hg hon)).trans (if_pos ?_)
  rw [hl, Bool.not_false]

end

/-! With the link up: `t` is the device in which what was being sent has ended, and queues and buckets are up to date. -/

section
variable (d t : Dev) (g : Nat) (hg : g ≤ 191) (hon : d.chanIdle g = false) (hl : (d.endSending g).chanLink g = true)
  (ht : ((d.endSending g).dropNever g).fillChan g = t)
include hg hon hl ht

section
variable (x : Frame) (rest : List Frame) (hx : (if t.mayLantern then (t.chan g).lantern else []) = x :: rest)
include hx

theorem downstreamSelect_lantern (hf : (t.chan g).fragment = none) : downstreamSelect g d = t.startLantern g x rest := by
  simp only [downstreamSelect, if_neg (select_runs d g hg hon), hl, Bool.not_true, Bool.false_eq_true, if_false, ht, hx, hf]

variable (u : Sending) (hf : (t.chan g).fragment = some u)
include hf

/-- A Lantern frame goes before a preempted remainder, but for its own port's (03 R84). -/
theorem downstreamSelect_preempted :
    downstreamSelect g d = if u.frame.flow = x.flow then t.goOn g u else t.startLantern g x rest := by
  simp only [downstreamSelect, if_neg (select_runs d g hg hon), hl, Bool.not_true, Bool.false_eq_true, if_false, ht, hx, hf]

end

section
variable (hx : (if t.mayLantern then (t.chan g).lantern else []) = [])
include hx

theorem downstreamSelect_remainder (u : Sending) (hf : (t.chan g).fragment = some u) :
    downstreamSelect g d = if t.mayGoOn = true then t.goOn g u else t := by
  simp only [downstreamSelect, if_neg (select_runs d g hg hon), hl, Bool.not_true, Bool.false_eq_true, if_false, ht, hx, hf]

variable (hf : (t.chan g).fragment = none)
include hf

/-- Nothing but a flow is left to start, and none may, or an OMCI message goes before it (03 R104; 14 R359). -/
theorem downstreamSelect_held (h : t.mayStart = false ∨ t.omciWaits g = true) : downstreamSelect g d = t := by
  have hheld : (!t.mayStart) = true ∨ t.omciWaits g = true := h.imp_left fun hm => by rw [hm, Bool.not_false]
  simp only [downstreamSelect, if_neg (select_runs d g hg hon), hl, Bool.not_true, Bool.false_eq_true, if_false, ht, hx, hf, if_pos hheld]

variable (hm : t.mayStart = true) (ho : t.omciWaits g = false)
include hm ho

theorem downstreamSelect_nothing (hn : t.nextDown g = none) : downstreamSelect g d = t := by
  simp only [downstreamSelect, if_neg (select_runs d g hg hon), hl, ht, hx, hf, hm, ho, hn, Bool.not_true, Bool.false_eq_true, or_self,
    if_false]

theorem downstreamSelect_flow (h : Nat) (committed : Bool) (v : Dev) (hn : t.nextDown g = some (h, committed, v)) :
    downstreamSelect g d = v.startFlow g h committed := by
  simp only [downstreamSelect, if_neg (select_runs d g hg hon), hl, ht, hx, hf, hm, ho, hn, Bool.not_true, Bool.false_eq_true, or_self,
    if_false]

end

end

/-! ### A frame found bad after its start (03 R85) -/

/-- The frame with its FCS inverted, by what its flow says of a seal. -/
def Dev.inverted (d : Dev) (u : Sending) : Sending := u.stomped (((d.flow? u.frame.flow).map Flow.sealedFlow).getD false)

section
variable (d : Dev) (g : Nat)

/-- A register holds no frame that was handed over early. -/
theorem filter_early_eq_none (o : Option Sending) (h : ∀ w, o = some w → w.frame.early = false) :
    (o.filter fun s => s.frame.early) = none := by
  rw [Option.filter_eq_none_iff]
  exact fun w hw => Bool.eq_false_iff.1 (h w hw)

theorem filter_early_eq_some (u : Sending) (h : u.frame.early = true) : (some u).filter (fun s => s.frame.early) = some u := by
  rw [Option.filter_some, if_pos h]

theorem tailStomp_sending (u : Sending) (hu : (d.chan g).sending = some u) (he : u.frame.early = true) :
    tailStomp g d = (d.count (64 * g + 2)).setChan g fun c => { c with sending := some (d.inverted u) } := by
  simp only [tailStomp, hu, filter_early_eq_some u he, Dev.stompSending, Dev.inverted, ctrChan]

variable (hs : ∀ w, (d.chan g).sending = some w → w.frame.early = false)
include hs

theorem tailStomp_fragment (u : Sending) (hu : (d.chan g).fragment = some u) (he : u.frame.early = true) :
    tailStomp g d = (d.count (64 * g + 2)).setChan g fun c => { c with fragment := some (d.inverted u) } := by
  simp only [tailStomp, filter_early_eq_none _ hs, hu, filter_early_eq_some u he, Dev.stompSending, Dev.inverted, ctrChan]

theorem tailStomp_none (hf : ∀ w, (d.chan g).fragment = some w → w.frame.early = false) : tailStomp g d = d := by
  simp only [tailStomp, filter_early_eq_none _ hs, filter_early_eq_none _ hf]

end

/-! ### The rounds of `next_down` (10 R252) -/

/-- The classes are asked in order: the first that answers decides. -/
theorem findSome_classes {α : Type} (f : Nat → Option α) (c : Nat) (a : α) (hlo : 1 ≤ c) (hhi : c ≤ 3) (hc : f c = some a)
    (hbefore : ∀ k, 1 ≤ k → k < c → f k = none) : [1, 2, 3].findSome? f = some a := by
  have hcase : c = 1 ∨ c = 2 ∨ c = 3 := by omega
  rcases hcase with rfl | rfl | rfl
  · rw [List.findSome?_cons, hc]
  · rw [List.findSome?_cons, hbefore 1 (by omega) (by omega), List.findSome?_cons, hc]
  · rw [List.findSome?_cons, hbefore 1 (by omega) (by omega), List.findSome?_cons, hbefore 2 (by omega) (by omega), List.findSome?_cons, hc]

theorem findSome_classes_none {α : Type} (f : Nat → Option α) (h : ∀ k, 1 ≤ k → k ≤ 3 → f k = none) :
    [1, 2, 3].findSome? f = none := by
  rw [List.findSome?_eq_none_iff]
  intro k hk
  have hcase : k = 1 ∨ k = 2 ∨ k = 3 := by simpa using hk
  exact h k (by omega) (by omega)

section
variable (d : Dev) (g c h : Nat)

theorem Dev.nextDown_low (hb : (d.chan g).bucket.ok = false) : d.nextDown g = none := if_pos (by rw [hb, Bool.not_false])

variable (hb : (d.chan g).bucket.ok = true)
include hb

/-- A committed choice of the lowest class that has one moves that class's pointer behind it. -/
theorem Dev.nextDown_committed (hlo : 1 ≤ c) (hhi : c ≤ 3) (hc : d.committed g c = some h)
    (hbefore : ∀ k, 1 ≤ k → k < c → d.committed g k = none) :
    d.nextDown g = some (h, true, d.setChan g fun x => { x with ptr := x.ptr.set (c - 1) (h + 1) }) := by
  have hfirst : [1, 2, 3].findSome? (fun c => (d.committed g c).map fun h => (c, h)) = some (c, h) := by
    refine findSome_classes _ c _ hlo hhi ?_ fun k hk hkc => ?_
    · rw [hc, Option.map_some]
    · rw [hbefore k hk hkc, Option.map_none]
  simp only [Dev.nextDown, hb, hfirst, Bool.not_true, Bool.false_eq_true, if_false]

/-- With no committed choice in any class, the excess rounds decide. -/
theorem Dev.nextDown_excess (hnone : ∀ k, 1 ≤ k → k ≤ 3 → d.committed g k = none) (hlo : 1 ≤ c) (hhi : c ≤ 3)
    (hbefore : ∀ k, 1 ≤ k → k < c → d.excess g k = none) (v : Dev) (hc : d.excess g c = some (h, v)) :
    d.nextDown g = some (h, false, v) := by
  have hcommitted : [1, 2, 3].findSome? (fun c => (d.committed g c).map fun h => (c, h)) = none :=
    findSome_classes_none _ fun k hk hk3 => by rw [hnone k hk hk3, Option.map_none]
  simp only [Dev.nextDown, hb, hcommitted, findSome_classes _ c _ hlo hhi hc hbefore, Bool.not_true, Bool.false_eq_true, if_false,
    Option.map_some]

end

/-- In a list of rising handles the round gives the first at or after a pointer, and otherwise the first of all. -/
theorem first_from_pointer (l : List (Nat × Flow)) (ptr h : Nat) (hl : l.Pairwise fun a b => a.1 < b.1)
    (hh : ((l.find? fun f => decide (ptr ≤ f.1)).or l.head?).map Prod.fst = some h) :
    ∃ f ∈ l, f.1 = h ∧ ∀ k ∈ l, (ptr ≤ k.1 → ptr ≤ h ∧ h ≤ k.1) ∧ (h < ptr → h ≤ k.1) := by
  cases hfind : l.find? fun f => decide (ptr ≤ f.1) with
  | some f =>
    obtain ⟨hptr, before, after, rfl, hbefore⟩ := List.find?_eq_some_iff_append.1 hfind
    obtain rfl : f.1 = h := by simpa [hfind] using hh
    have hle : ptr ≤ f.1 := by simpa using hptr
    obtain ⟨_, hafter, _⟩ := List.pairwise_append.1 hl
    refine ⟨f, by simp, rfl, fun k hk => ⟨fun hkp => ⟨hle, ?_⟩, fun hlt => by omega⟩⟩
    rcases List.mem_append.1 hk with hk | hk
    · have hkb := hbefore k hk
      simp only [Bool.not_eq_true', decide_eq_false_iff_not] at hkb
      exact absurd hkp hkb
    · rcases List.mem_cons.1 hk with rfl | hk
      · exact Nat.le_refl _
      · exact Nat.le_of_lt ((List.pairwise_cons.1 hafter).1 k hk)
  | none =>
    rw [hfind, Option.none_or] at hh
    obtain ⟨f, hhead, rfl⟩ := Option.map_eq_some_iff.1 hh
    obtain ⟨t, rfl⟩ := List.head?_eq_some_iff.1 hhead
    refine ⟨f, by simp, rfl, fun k hk => ⟨fun hkp => ?_, fun _ => ?_⟩⟩
    · exact absurd hkp (by simpa using List.find?_eq_none.1 hfind k hk)
    · rcases List.mem_cons.1 hk with rfl | hk
      · exact Nat.le_refl _
      · exact Nat.le_of_lt ((List.pairwise_cons.1 hl).1 k hk)

/-- The committed round serves the first committed-eligible flow at or after its class's pointer, or the first of all. -/
theorem Dev.committed_first (d : Dev) (g c h : Nat) (hf : (d.flows.map Prod.fst).Pairwise (· < ·)) (hc : d.committed g c = some h) :
    ∃ f ∈ d.ready g c, f.1 = h ∧ f.2.cir.used = true ∧ f.2.cir.ok = true
      ∧ ∀ k ∈ d.ready g c, k.2.cir.used = true → k.2.cir.ok = true →
        ((d.chan g).ptr.getD (c - 1) 0 ≤ k.1 → (d.chan g).ptr.getD (c - 1) 0 ≤ h ∧ h ≤ k.1)
        ∧ (h < (d.chan g).ptr.getD (c - 1) 0 → h ≤ k.1) := by
  have hsorted : ((d.ready g c).filter fun f => f.2.cir.used && f.2.cir.ok).Pairwise fun a b => a.1 < b.1 :=
    ((List.pairwise_map.1 hf).filter _).filter _
  obtain ⟨f, hmem, hfh, hfirst⟩ := first_from_pointer _ _ h hsorted hc
  obtain ⟨hready, helig⟩ := List.mem_filter.1 hmem
  obtain ⟨hused, hok⟩ := Bool.and_eq_true_iff.1 helig
  refine ⟨f, hready, hfh, hused, hok, fun k hk hku hko => hfirst k (List.mem_filter.2 ⟨hk, ?_⟩)⟩
  rw [hku, hko, Bool.and_self]

end Sys2Proof.Machine
end

section
/-!
SUPPORT. What a port or Brynlink sends next (10 R256, R257, R263; 15 R379, R380): the MAC's frame on the wire, the fragment behind it, and
the class that is served; with the channels, the order of everything that leaves (O27).
-/
namespace Sys2Proof.Machine

theorem exec_portSchedule (s : State) (h : s.dev.sys.inReset = false) (l : Nat) :
    exec (.portSchedule l) s = .next { s with dev := (portSchedule l s.dev).settle } := live_running _ s h

/-! ### The scheduler -/

/-- The port with its bucket refilled for the time that has passed. -/
def Dev.fillPort (d : Dev) (l now : Nat) : Dev :=
  d.setPort l fun p => { p with bucket := p.bucket.fill (d.portRate d.objs l) (tmPort d.objs l).pbs now }

section
variable (d : Dev) (l : Nat)

theorem portSchedule_noGroup (h : d.group? l = none) : portSchedule l d = d := by simp only [portSchedule, h]

theorem portSchedule_down (q : Group) (hq : d.group? l = some q)
    (h : (q.kind ≠ 1 ∧ q.kind ≠ 2) ∨ d.portUp l = false ∨ d.groupLit q = false) : portSchedule l d = d := by
  simp only [portSchedule, hq, Bool.not_eq_true', if_pos h]

end

/-! A port or Brynlink that is up and lit: `t` is the device in which its bucket is refilled and the frame on its wire has been judged. -/

section
variable (d t : Dev) (l : Nat) (q : Group) (hq : d.group? l = some q)
  (hs : ¬((q.kind ≠ 1 ∧ q.kind ≠ 2) ∨ d.portUp l = false ∨ d.groupLit q = false))
  (ht : ((d.releaseLantern.fillPort l d.now).dropNeverPort q).yieldPort q = t)
include hq hs ht

section
variable (hf : (t.port l).fragment = none)
include hf

theorem portSchedule_nothing (hp : t.portPick q false = none) : portSchedule l d = t := by
  unfold Dev.fillPort at ht
  simp only [portSchedule, hq, Bool.not_eq_true', if_neg hs, ht, hf, hp]

theorem portSchedule_class (c : Nat) (v : Dev) (hp : t.portPick q false = some (c, v)) : portSchedule l d = v.startPort q c := by
  unfold Dev.fillPort at ht
  simp only [portSchedule, hq, Bool.not_eq_true', if_neg hs, ht, hf, hp]

end

section
variable (w : PortSend) (hf : (t.port l).fragment = some w)
include hf

theorem portSchedule_express (c : Nat) (v : Dev) (hp : t.portPick q true = some (c, v)) : portSchedule l d = v.startPort q c := by
  unfold Dev.fillPort at ht
  simp only [portSchedule, hq, Bool.not_eq_true', if_neg hs, ht, hf, hp]

/-- The fragment goes on once its gate is open (10 R263). -/
theorem portSchedule_fragment (hp : t.portPick q true = none) : portSchedule l d =
    if t.portPreempts q = true ∧ (t.gate 1 l).openFor w.cls d.now = some 0 then t
    else t.setPort l fun p => { p with fragment := none, sending := some w } := by
  unfold Dev.fillPort at ht
  simp only [portSchedule, hq, Bool.not_eq_true', if_neg hs, ht, hf, hp]

end

end

/-! ### The frame on the wire (15 R380) -/

section
variable (t : Dev) (q : Group)

theorem Dev.portPick_lantern (only : Bool) (h : t.portReady q 0 = true) : t.portPick q only = some (0, t) := if_pos h

theorem Dev.yieldPort_idle (h : (t.port q.lane).sending = none) : t.yieldPort q = t := by simp only [Dev.yieldPort, h]

/-- A preemptable frame is cut for its gate or for an express frame, and every other frame ends. -/
theorem Dev.yieldPort_sending (w : PortSend) (h : (t.port q.lane).sending = some w) : t.yieldPort q =
    if t.portPreempts q = true ∧ ((t.gate 1 q.lane).openFor w.cls t.now = some 0 ∨ (t.portPick q true).isSome = true) then t.cutPort q
    else t.endPort q := by
  simp only [Dev.yieldPort, h, beq_iff_eq]

end

/-! ### The head frame of a class starts -/

/-- Only the Keepers' own messages change at their start (12 R299). -/
theorem Dev.ptpOut_frame (d : Dev) (q : Group) (x : Frame) (h : x.src ≠ srcKeepers) : (d.ptpOut q x).2 = x := by
  unfold Dev.ptpOut
  split
  · rfl
  · rw [if_pos (.inl h)]

section
variable (t : Dev) (q : Group) (c : Nat) (x : Frame) (rest : List Frame)

/-- The class queue without its head. -/
def Dev.restQueue (t : Dev) (q : Group) (c : Nat) (rest : List Frame) : Queue :=
  Queue.turn { (t.port q.lane).queue c with frames := rest } (t.portProf q.lane c) t.time.c

/-- The head frame out of its queue, as it starts. -/
def Dev.headOut (t : Dev) (q : Group) (c : Nat) (x : Frame) (rest : List Frame) : Dev × Frame :=
  (t.setPortQueue q.lane c fun _ => t.restQueue q c rest).ptpOut q x

/-- The port charged for its head frame; a class left empty has no deficit. -/
def Dev.headCharged (t : Dev) (q : Group) (c : Nat) (x : Frame) (rest : List Frame) : Dev :=
  (t.headOut q c x rest).1.setPort q.lane fun p => { p with
    bucket := p.bucket.charge (t.headOut q c x rest).2.data.length (tmPort (t.headOut q c x rest).1.objs q.lane).overhead
    deficits := if (t.restQueue q c rest).frames = [] ∧ c ≠ 0 then p.deficits.set (c - 1) 0 else p.deficits }

/-- The frame stays on the wire as these bytes until the MAC takes another. -/
def Dev.onWire (t : Dev) (q : Group) (c : Nat) (x : Frame) (data : Bytes) : Dev :=
  (t.portStart q c x).setPort q.lane fun p => { p with sending := some { frame := x, cls := c, data } }

theorem Dev.startPort_head (h : ((t.port q.lane).queue c).frames = x :: rest) : t.startPort q c =
    let e := t.headCharged q c x rest
    let y := (t.headOut q c x rest).2
    if q.kind = 2 ∨ (e.portPreempts q = true ∧ q.expressClass c = false) then
      e.onWire q c y (if q.kind = 2 then carriage e.sys.devId.toNat y ++ y.wire else y.wire)
    else e.sendPort q c y := by
  simp only [Dev.startPort, h, List.isEmpty_iff, Bool.not_eq_true']
  rfl

variable (h : ((t.port q.lane).queue c).frames = x :: rest)
include h

theorem Dev.startPort_brynlink (hk : q.kind = 2) : t.startPort q c =
    (t.headCharged q c x rest).onWire q c (t.headOut q c x rest).2
      (carriage (t.headCharged q c x rest).sys.devId.toNat (t.headOut q c x rest).2 ++ (t.headOut q c x rest).2.wire) := by
  rw [t.startPort_head q c x rest h]
  dsimp only
  rw [if_pos (.inl hk), if_pos hk]

variable (hk : q.kind ≠ 2)
include hk

theorem Dev.startPort_preemptable (hp : (t.headCharged q c x rest).portPreempts q = true) (he : q.expressClass c = false) :
    t.startPort q c = (t.headCharged q c x rest).onWire q c (t.headOut q c x rest).2 (t.headOut q c x rest).2.wire := by
  rw [t.startPort_head q c x rest h]
  dsimp only
  rw [if_pos (.inr ⟨hp, he⟩), if_neg hk]

theorem Dev.startPort_whole (hw : (t.headCharged q c x rest).portPreempts q = false ∨ q.expressClass c = true) :
    t.startPort q c = (t.headCharged q c x rest).sendPort q c (t.headOut q c x rest).2 := by
  rw [t.startPort_head q c x rest h]
  refine if_neg ?_
  rintro (h2 | ⟨hp, he⟩)
  · exact hk h2
  · rcases hw with hn | hexp
    · exact Bool.eq_false_iff.1 hn hp
    · exact Bool.eq_false_iff.1 he hexp

end

/-- Settles O27: the tree unit's order by what waits, the rounds by their first choice, and the port's by the frame on its wire. -/
theorem channelsAndPortsSendInOrder : Obligations.ChannelsAndPortsSendInOrder := by
  unfold Obligations.ChannelsAndPortsSendInOrder
  refine ⟨fun s g x rest u => ?channel, fun d g c h => ?rounds, fun s l c q v => ?port, fun t q c x rest w only => ?wire⟩
  case channel =>
    intro d t lantern inverted gives hr hg
    have hgives : ∀ y : Dev, downstreamSelect g d = y → gives y := fun y hy => by
      show exec _ _ = _
      rw [exec_downstreamSelect s hr, hy]
    refine ⟨fun hidle => hgives _ (downstreamSelect_idle d g hidle), fun hon hdown => hgives _ (downstreamSelect_linkDown d g hg hon hdown),
      fun hon hup => ⟨fun hx hf => ?lantern, fun hx hf hne => ?overtakes, fun hx hf heq => ?ownPort, fun hx hf hgo => ?remainder,
        fun hx hf hgo => ?held, fun hx hf => ⟨fun hno => ?waits, fun hm ho => ⟨fun hn => ?nothing, fun h committed v hn => ?flow⟩⟩⟩,
      fun hu he => ?stomp, fun hs => ⟨fun hu he => ?stompFragment, fun hf => ?stompNone⟩⟩
    case lantern => exact hgives _ (downstreamSelect_lantern d t g hg hon hup rfl x rest hx hf)
    case overtakes => exact hgives _ ((downstreamSelect_preempted d t g hg hon hup rfl x rest hx u hf).trans (if_neg hne))
    case ownPort => exact hgives _ ((downstreamSelect_preempted d t g hg hon hup rfl x rest hx u hf).trans (if_pos heq))
    case remainder => exact hgives _ ((downstreamSelect_remainder d t g hg hon hup rfl hx u hf).trans (if_pos hgo))
    case held => exact hgives _ ((downstreamSelect_remainder d t g hg hon hup rfl hx u hf).trans (if_neg (Bool.eq_false_iff.1 hgo)))
    case waits => exact hgives _ (downstreamSelect_held d t g hg hon hup rfl hx hf hno)
    case nothing => exact hgives _ (downstreamSelect_nothing d t g hg hon hup rfl hx hf hm ho hn)
    case flow => exact hgives _ (downstreamSelect_flow d t g hg hon hup rfl hx hf hm ho h committed v hn)
    case stomp =>
      rw [exec_tailStomp s hr, tailStomp_sending d g u hu he]
      rfl
    case stompFragment =>
      rw [exec_tailStomp s hr, tailStomp_fragment d g hs u hu he]
      rfl
    case stompNone => rw [exec_tailStomp s hr, tailStomp_none d g hs hf]
  case rounds =>
    exact ⟨d.nextDown_low g, fun hb hlo hhi hc hbefore => ⟨_, d.nextDown_committed g c h hb hlo hhi hc hbefore⟩,
      fun hb hnone hlo hhi hbefore v hc => d.nextDown_excess g c h hb hnone hlo hhi hbefore v hc, d.committed_first g c h⟩
  case port =>
    intro d r filled t gives hr
    have hgives : ∀ y : Dev, portSchedule l d = y → gives y := fun y hy => by
      show exec _ _ = _
      rw [exec_portSchedule s hr, hy]
    refine ⟨fun hnone => hgives _ (portSchedule_noGroup d l hnone), fun hq hdown => hgives _ (portSchedule_down d l q hq hdown),
      fun hq hk hup hlit => ?_⟩
    have hserves : ¬((q.kind ≠ 1 ∧ q.kind ≠ 2) ∨ d.portUp l = false ∨ d.groupLit q = false) := by
      simp only [hup, hlit, Bool.true_eq_false, or_false]
      omega
    refine ⟨fun hf hp => hgives _ (portSchedule_nothing d t l q hq hserves rfl hf hp),
      fun hf hp => hgives _ (portSchedule_class d t l q hq hserves rfl hf c v hp),
      fun w hf => ⟨fun hp => hgives _ (portSchedule_express d t l q hq hserves rfl w hf c v hp), fun hp => ?_⟩⟩
    have hfragment := portSchedule_fragment d t l q hq hserves rfl w hf hp
    exact ⟨fun hheld => hgives _ (hfragment.trans (if_pos hheld)), fun hheld => hgives _ (hfragment.trans (if_neg hheld))⟩
  case wire =>
    refine ⟨t.portPick_lantern q only, t.yieldPort_idle q, fun hw => ?_, fun hx => ?_⟩
    · intro cut
      exact ⟨fun hcut => (t.yieldPort_sending q w hw).trans (if_pos hcut), fun hcut => (t.yieldPort_sending q w hw).trans (if_neg hcut)⟩
    · intro u o e
      exact ⟨Dev.ptpOut_frame _ q x, t.startPort_brynlink q c x rest hx, t.startPort_preemptable q c x rest hx,
        t.startPort_whole q c x rest hx⟩

end Sys2Proof.Machine
end

section
/-!
SUPPORT. Deactivation and re-ranging (04 R119, R122): what a deactivation leaves of the record and of the other records, and the two
commands.
-/
namespace Sys2Proof.Machine

/-! ### Discarded frames concern no record and no command in execution -/

section
variable (d : Dev)

/-- Freeing a segment changes the switch core, the counters and the alarms. -/
theorem Dev.freeSeg_keeps (owner : Byte) (a : Nat) :
    ((d.freeSeg owner a).terms, (d.freeSeg owner a).execs) = (d.terms, d.execs) := by
  unfold Dev.freeSeg
  split
  · rfl
  · split
    · dsimp only
      split <;> rfl
    · rw [Dev.rejectFree, Dev.count, Dev.countBy_frame]
      rfl

theorem Dev.freeFrames_keeps (fs : List Frame) : ((d.freeFrames fs).terms, (d.freeFrames fs).execs) = (d.terms, d.execs) :=
  foldl_keeps (fun e : Dev => (e.terms, e.execs)) _
    (fun e f => foldl_keeps (fun e : Dev => (e.terms, e.execs)) _ (fun e i => e.freeSeg_keeps _ i) f.segs e) fs d

@[simp] theorem Dev.discardFlows_terms (p : Nat → Bool) : (d.discardFlows p).1.terms = d.terms := congrArg Prod.fst (d.freeFrames_keeps _)
@[simp] theorem Dev.discardFlows_execs (p : Nat → Bool) : (d.discardFlows p).1.execs = d.execs := congrArg Prod.snd (d.freeFrames_keeps _)

/-! ### Deactivate_ONU-ID asks for no answer -/

@[simp] theorem Dev.ploam_execs (g kind onu : Nat) (fields : List Nat) : (d.ploam g kind onu fields).execs = d.execs := by
  rw [Dev.ploam_frame]

theorem Dev.ploam_terms (g kind onu : Nat) (fields : List Nat) (hk : plAnswered kind = false) :
    (d.ploam g kind onu fields).terms = d.terms := by
  by_cases hs : d.standby = true
  · rw [Dev.ploam, if_pos hs]
  · rw [d.ploam_unanswered g kind onu fields (Bool.eq_false_iff.2 hs) hk]
    rfl

/-! ### The record of a deactivated terminal (04 R122) -/

/-- The record after a deactivation: WAITING, and bursts of the maps already sent are not counted as missing. -/
def Term.deactivated (t : Term) (now frame : Nat) : Term := { t.enter 1 now with graceTo := frame }

section
variable (h : Nat) (t : Term) (msg : Bool) (self : Option (Nat × Nat))

/-- The message of a deactivation and the discard of the terminal's frames, with their number. -/
def Dev.silence : Dev × Nat :=
  let sent := if msg then d.ploam t.chan plDeactivate t.onu [] else d
  sent.discardFlows (sent.flowOfTerm h)

@[simp] theorem Dev.silence_terms : (d.silence h t msg).1.terms = d.terms := by
  refine (Dev.discardFlows_terms _ _).trans ?_
  split
  · exact d.ploam_terms t.chan plDeactivate t.onu [] rfl
  · rfl

@[simp] theorem Dev.silence_execs : (d.silence h t msg).1.execs = d.execs := by
  refine (Dev.discardFlows_execs _ _).trans ?_
  split
  · exact d.ploam_execs t.chan plDeactivate t.onu []
  · rfl

@[simp] theorem Dev.silence_time : (d.silence h t msg).1.time = d.time := by
  refine (Dev.discardFlows_time _ _).trans ?_
  split
  · exact d.ploam_time t.chan plDeactivate t.onu []
  · rfl

/-- The commands in execution that name the terminal then end, its disable and the cause apart. -/
def Dev.abandoned : Dev :=
  (d.silence h t msg).1.endAll (fun e => e.names.contains (.terminal h) && e.op != 0x0403 && self != some (e.dom, e.seq)) .abandoned

theorem Dev.abandoned_idle (he : d.execs = []) : d.abandoned h t msg self = (d.silence h t msg).1 :=
  Dev.endAll_none _ _ _ (by rw [d.silence_execs, he, List.filter_nil])

theorem Dev.deactivate_known (ht : d.term? h = some t) :
    let quiet := d.abandoned h t msg self
    d.deactivate h msg self =
      ((quiet.setChan t.chan fun c => { c with ranging := c.ranging.filter fun r => r.1 != h }).setTerm h fun x =>
        x.deactivated quiet.now quiet.time.frame, (d.silence h t msg).2) := by
  simp only [Dev.deactivate, ht]
  rfl

/-- With no command in execution, a deactivation changes the records by that of its terminal alone. -/
theorem Dev.deactivate_terms (he : d.execs = []) (ht : d.term? h = some t) :
    (d.deactivate h msg self).1.terms = d.terms.adjust h fun x => x.deactivated d.now d.time.frame := by
  have hnow : (d.silence h t msg).1.now = d.now := d.now_congr _ (d.silence_time h t msg)
  rw [d.deactivate_known h t msg self ht, d.abandoned_idle h t msg self he, hnow, Dev.silence_time, ← d.silence_terms h t msg]
  rfl

end

end

/-! ### RERANGE (04 R119) -/

/-- The attempts start again, a window is asked for, and the command stays in execution. -/
theorem cmdRerange_run (d : Dev) (e : Exec) (t : Term) (ht : d.term? (ent e.par 16 2) = some t) : cmdRerange.run e d =
    ((d.setTerm (ent e.par 16 2) fun x => { x with attempts := 0 }).setChan t.chan fun c =>
      { c with ranging := c.ranging ++ [(ent e.par 16 2, teqNs d.objs t.chan)] }).park e := by
  simp only [cmdRerange, ht, Dev.setTerm_objs]

/-- Settles O13: a deactivation changes one entry of the records, and each command's run is the change that the statement writes out. -/
theorem terminalsDeactivateAndRerange : Obligations.TerminalsDeactivateAndRerange := by
  unfold Obligations.TerminalsDeactivateAndRerange
  refine ⟨fun d h t msg self he ht => ?record, fun p s t => ?commands⟩
  case record =>
    have hterms := d.deactivate_terms h t msg self he ht
    refine ⟨t.deactivated d.now d.time.frame, ?_, rfl, rfl, rfl, rfl, rfl, rfl, rfl, rfl, rfl, fun k hk => ?_⟩
    · rw [Dev.term?, hterms, Tbl.find_adjust]
      exact congrArg (Option.map _) ht
    · rw [Dev.term?, hterms, Tbl.find_adjust_ne _ _ _ _ hk, Dev.term?]
  case commands =>
    intro d b h r
    refine ⟨fun ha => exec_accepted _ cmdTerminalDeactivate p s rfl ha, fun ha ht => ?_⟩
    rw [exec_accepted _ cmdRerange p s rfl ha, cmdRerange_run (d.fetch p) (cmdRerange.entry d p) t ht]
    rfl

end Sys2Proof.Machine
end

section
/-!
SUPPORT. Planning a channel (05 R125, R147, R153): what a build leaves in the table of channels.
-/
namespace Sys2Proof.Machine

section
variable (d : Dev) (g n : Nat)

theorem PlanCtx.build_frame (x : PlanCtx) (c : Chan) (allocs : List (Nat × Alloc)) : (x.build d c allocs).plan.frame = x.n := rfl

/-- Counting, where there is anything to count, leaves every channel as it was. -/
theorem Dev.countBy_unless_chans (c : Prop) [Decidable c] (a k : Nat) : (if c then d else d.countBy a k).chans = d.chans := by
  split
  · rfl
  · rw [Dev.countBy_frame]

theorem Dev.buildPlan_unplanned (h : (!d.planned (d.planCtx g n).objs g) = true) :
    d.buildPlan g n = d.setChan g fun c => { c with windows := [], displacedTo := 0, discDue := false,
                                                    plans := (⟨n, [], 0, 0, []⟩ :: c.plans).take 18 } := if_pos h

/-- The channel of a planned build, and its plan, are what one `PlanCtx.build` for the frame decides. -/
theorem Dev.buildPlan_planned (h : ¬(!d.planned (d.planCtx g n).objs g) = true) : ∃ b : Built, b.plan.frame = n ∧
    (d.buildPlan g n).chans = d.chans.put g { b.chan with plans := (b.plan :: b.chan.plans).take 18 } := by
  simp only [Dev.buildPlan, if_neg h, Dev.countBy_unless_chans]
  generalize hb : PlanCtx.build _ _ _ _ = b
  exact ⟨b, hb ▸ PlanCtx.build_frame _ _ _ _, rfl⟩

/-- A build writes its own channel's entry: a plan for the frame in front of those kept, 18 of them in all. -/
theorem Dev.buildPlan_chans : ∃ (c : Chan) (q : Plan),
    q.frame = n ∧ (d.buildPlan g n).chans = d.chans.put g { c with plans := (q :: c.plans).take 18 } := by
  by_cases h : (!d.planned (d.planCtx g n).objs g) = true
  · refine ⟨{ d.chan g with windows := [], displacedTo := 0, discDue := false }, ⟨n, [], 0, 0, []⟩, rfl, ?_⟩
    rw [d.buildPlan_unplanned g n h]
    rfl
  · obtain ⟨b, hframe, hchans⟩ := d.buildPlan_planned g n h
    exact ⟨b.chan, b.plan, hframe, hchans⟩

end

/-- Settles O18: a build changes one entry of the table, where it puts the frame's plan first and cuts the list at 18. -/
theorem planningIsKeptPerChannel : Obligations.PlanningIsKeptPerChannel := by
  unfold Obligations.PlanningIsKeptPerChannel
  intro d g n k
  obtain ⟨c, q, hframe, hchans⟩ := d.buildPlan_chans g n
  have hown : (d.buildPlan g n).chan g = { c with plans := (q :: c.plans).take 18 } := by
    rw [Dev.chan, hchans, Tbl.getD_put]
  refine ⟨fun hk => ?others, ?kept, ?newest⟩
  case others => rw [Dev.chan, hchans, Tbl.getD_put_ne _ _ _ _ _ hk, Dev.chan]
  case kept => rw [hown]; exact List.length_take_le 18 (q :: c.plans)
  case newest => rw [hown]; exact congrArg some hframe

end Sys2Proof.Machine
end

section
/-!
SUPPORT. Allocations (05 R129, R141, R153 to R155; 06 R171): what `ALLOC_SET` writes, the end of a deletion, and the words that the status
commands answer.
-/
namespace Sys2Proof.Machine

/-! ### The record that ALLOC_SET writes (R129) -/

/-- The record that `ALLOC_SET` writes its fields over: the handle's own while its terminal stays, and a new one otherwise. -/
def Dev.allocBase (d : Dev) (b : Bytes) : Alloc :=
  let fresh := freshAlloc (planCfg d.objs ((d.termChan? (ent b 18 2)).getD 0)).minGrant
  match d.alloc? (ent b 16 2) with
  | some a => if a.term = ent b 18 2 then a else fresh
  | none => fresh

section
variable (d : Dev) (b : Bytes)

theorem Dev.allocsAfter_eq : d.allocsAfter b = d.allocs.put (ent b 16 2) (allocOf (d.allocBase b) b) := rfl

section
variable (old : Alloc) (hold : d.alloc? (ent b 16 2) = some old)
include hold

theorem Dev.allocBase_kept (ht : old.term = ent b 18 2) : d.allocBase b = old := by
  simp only [Dev.allocBase, hold, if_pos ht]

/-- A handle given to another terminal starts with nothing saved up. -/
theorem Dev.allocBase_anew (ht : old.term ≠ ent b 18 2) : (d.allocBase b).credit = 0 ∧ (d.allocBase b).bucket = 0 := by
  simp only [Dev.allocBase, hold, if_neg ht]
  exact ⟨rfl, rfl⟩

end

variable (base : Alloc)

theorem allocOf_sameClass (hc : base.cls = ent b 22 1) :
    (allocOf base b).credit = min base.credit (8 * ent b 24 4) ∧ (allocOf base b).bucket = min base.bucket (2 * ent b 28 4) := by
  have hsame : (base.cls == ent b 22 1) = true := beq_iff_eq.2 hc
  exact ⟨if_pos hsame, if_pos hsame⟩

theorem allocOf_otherClass (hc : base.cls ≠ ent b 22 1) : (allocOf base b).credit = 0 ∧ (allocOf base b).bucket = 0 := by
  have hother : ¬(base.cls == ent b 22 1) = true := fun h => hc (beq_iff_eq.1 h)
  exact ⟨if_neg hother, if_neg hother⟩

/-- Neither the credit nor the bucket is ever above its ceiling. -/
theorem allocOf_ceilings : (allocOf base b).credit ≤ 8 * ent b 24 4 ∧ (allocOf base b).bucket ≤ 2 * ent b 28 4 := by
  by_cases hc : base.cls = ent b 22 1
  · obtain ⟨hcredit, hbucket⟩ := allocOf_sameClass b base hc
    exact ⟨hcredit ▸ Nat.min_le_right _ _, hbucket ▸ Nat.min_le_right _ _⟩
  · obtain ⟨hcredit, hbucket⟩ := allocOf_otherClass b base hc
    exact ⟨hcredit ▸ Nat.zero_le _, hbucket ▸ Nat.zero_le _⟩

/-- A record with nothing saved up gains nothing, whatever its class was. -/
theorem allocOf_empty (hcredit : base.credit = 0) (hbucket : base.bucket = 0) :
    (allocOf base b).credit = 0 ∧ (allocOf base b).bucket = 0 := by
  by_cases hc : base.cls = ent b 22 1
  · have hkept := allocOf_sameClass b base hc
    rwa [hcredit, hbucket, Nat.zero_min, Nat.zero_min] at hkept
  · exact allocOf_otherClass b base hc

/-- Another terminal or another class empties the credit and the bucket. -/
theorem Dev.allocOf_emptied (old : Alloc) (hold : d.alloc? (ent b 16 2) = some old)
    (h : old.cls ≠ ent b 22 1 ∨ old.term ≠ ent b 18 2) :
    (allocOf (d.allocBase b) b).credit = 0 ∧ (allocOf (d.allocBase b) b).bucket = 0 := by
  by_cases ht : old.term = ent b 18 2
  · rw [d.allocBase_kept b old hold ht]
    exact allocOf_otherClass b old (h.resolve_right (not_not_intro ht))
  · obtain ⟨hcredit, hbucket⟩ := d.allocBase_anew b old hold ht
    exact allocOf_empty b _ hcredit hbucket

end

/-! ### The end of a deletion (R155) -/

theorem exec_allocDeleteComplete (k : Nat) (s : State) (h : s.dev.sys.inReset = false) :
    exec (.allocDeleteComplete k) s = .next { s with dev := (allocDeleteComplete k s.dev).settle } := live_running _ s h

/-- With nothing planned, the deletion ends: the allocation goes and its command is answered. -/
theorem allocDeleteComplete_done (d : Dev) (k : Nat) (a : Alloc) (e : Exec) (ha : d.alloc? k = some a) (hdel : a.deleting = true)
    (hplan : a.lastPlan = 0)
    (he : (d.execs.find? fun e => e.op == 0x0504 && e.started && e.armed.isNone && ent e.par 16 2 == k) = some e) :
    allocDeleteComplete k d = Dev.finish { d with allocs := d.allocs.del k } e .done [] := by
  have hquiet : d.allocQuiet a = true := by simp only [Dev.allocQuiet, hplan, beq_self_eq_true, Bool.true_or]
  have hends : ¬((!a.deleting) = true ∨ (!d.allocQuiet a) = true) := by simp [hdel, hquiet]
  simp only [allocDeleteComplete, ha, if_neg hends, he, Dev.ok]

/-! ### What the status commands answer (R153, R154; 06 R171) -/

section
variable (d : Dev) (e : Exec)

theorem cmdAllocStatus_perEntry (a : Alloc) (h : d.alloc? (ent e.par 16 2) = some a) : cmdAllocStatus.run e d =
    let g := (d.termChan? a.term).getD 0
    let pc := planCfg d.objs g
    d.finish e .done [a.cls * 2 ^ 24 + a.detector pc * 65536 + (if a.detecting pc then a.period else 0) * 256, min a.report (2 ^ 32 - 1),
      d.lastGranted g a.term a.allocId, a.credit / 64] := by
  simp only [cmdAllocStatus, h, sat]

theorem cmdAllocStatus_lantern (a : LAlloc) (hnone : d.alloc? (ent e.par 16 2) = none) (h : lalloc? d.objs (ent e.par 16 2) = some a) :
    cmdAllocStatus.run e d = d.finish e .done [0, 0, d.lastGranted ((d.termChan? a.term).getD 0) a.term a.allocId, 0] := by
  simp only [cmdAllocStatus, hnone, h]

theorem cmdLanternBoundRead_run (objs : List VObj) (x : LFlow) (ho : d.boundObjs (bit (ent e.par 18 1) 0) = some objs)
    (hx : lflow? objs (ent e.par 16 2) = some x) : cmdLanternBoundRead.run e d =
      let y := d.lanternBound objs x
      d.finish e .done [y.up.getD 0xFFFFFFFF, y.dn.getD 0xFFFFFFFF, y.k * 65536 + min y.n 65535, y.wc] := by
  simp only [cmdLanternBoundRead, ho, hx]
  rfl

end

/-- Settles O17: each command's run is the change of the allocations that the statement writes out, or the words that it reads, and the
reply; the record that `ALLOC_SET` leaves is `allocOf` of what the handle held. -/
theorem allocationCommandsAct : Obligations.AllocationCommandsAct := by
  unfold Obligations.AllocationCommandsAct
  refine ⟨fun p s => ?writes, fun d b k => ?record, fun p s => ?reads⟩
  case writes =>
    intro d b h
    refine ⟨fun ha => ?set, fun ha => exec_accepted _ cmdAllocDelete p s rfl ha, fun ha => ?forecast, fun k a e hr ha hdel hplan he => ?done⟩
    case set => exact exec_answers _ cmdAllocSet p s rfl ha { d with allocs := d.allocsAfter b } .done [] rfl rfl
    case forecast => exact exec_answers _ cmdPlannerForecast p s rfl ha (d.setAlloc h _) .done [] rfl rfl
    case done => rw [exec_allocDeleteComplete k s hr, allocDeleteComplete_done d k a e ha hdel hplan he]
  case record =>
    intro h
    rw [d.allocsAfter_eq b]
    obtain ⟨hcredit, hbucket⟩ := allocOf_ceilings b (d.allocBase b)
    refine ⟨⟨allocOf (d.allocBase b) b, Tbl.find_put _ _ _, rfl, rfl, rfl, rfl, rfl, rfl, rfl, rfl, hcredit, hbucket,
      fun old hold ht hc => ?kept, d.allocOf_emptied b⟩, Tbl.find_put_ne _ _ _ _⟩
    rw [d.allocBase_kept b old hold ht]
    exact ⟨(allocOf_sameClass b old hc).1, (allocOf_sameClass b old hc).2, rfl⟩
  case reads =>
    intro d b h
    refine ⟨fun a ha hx => ?status, fun a ha hnone hx => ?lantern, fun ha => ?plan, fun objs x ha ho hx => ?bound⟩
    case status =>
      exact exec_reads _ cmdAllocStatus p s rfl ha .done _ (cmdAllocStatus_perEntry (d.fetch p) (cmdAllocStatus.entry d p) a hx)
    case lantern =>
      exact exec_reads _ cmdAllocStatus p s rfl ha .done _ (cmdAllocStatus_lantern (d.fetch p) (cmdAllocStatus.entry d p) a hnone hx)
    case plan => exact exec_answers _ cmdPlanRead p s rfl ha (d.hostWrite (ent b 24 8) _) .done _ rfl rfl
    case bound =>
      exact exec_reads _ cmdLanternBoundRead p s rfl ha .done _
        (cmdLanternBoundRead_run (d.fetch p) (cmdLanternBoundRead.entry d p) objs x ho hx)

end Sys2Proof.Machine
end

section
/-!
SUPPORT. Packet memory's commands (07 R180; 09 R222, R230 to R232), and the host's frame rings (09 R238 to R242): from which producer index
a receive ring's frame finds its buffers, and what its delivery leaves.
-/
namespace Sys2Proof.Machine

/-! ### Commands -/

section
variable (d : Dev) (e : Exec)

theorem cmdReplListSet_removes (h : field e.par 2 1 = 0) : cmdReplListSet.run e d =
    Dev.finish { d with sw := { d.sw with repl := d.sw.repl.del (field e.par 0 2) } } e .done [] := by
  simp only [cmdReplListSet, if_pos h, Dev.ok]

theorem cmdReplListSet_writes (h : field e.par 2 1 ≠ 0) : cmdReplListSet.run e d =
    Dev.finish { d with sw := { d.sw with repl := d.sw.repl.put (field e.par 0 2) (replEntries e.par) } } e .done [] := by
  simp only [cmdReplListSet, if_neg h, Dev.ok]

/-- Bit 0 of FLAGS decides between the two forms of a ring's write (09 Table 9-8). -/
theorem ringWrite_put (t : Tbl FrameRing) (b : Bytes) (now : Nat) (h : bit (ent b 19 1) 0 = false) :
    ringWrite t b now = t.put (ent b 16 2) (ringOf b now) := if_neg (Bool.eq_false_iff.1 h)

theorem ringWrite_del (t : Tbl FrameRing) (b : Bytes) (now : Nat) (h : bit (ent b 19 1) 0 = true) :
    ringWrite t b now = t.del (ent b 16 2) := if_pos h

theorem cmdRxRingSet_run (t : Tbl FrameRing) (h : ringWrite d.sw.rx e.par d.time.c = t) :
    cmdRxRingSet.run e d = Dev.finish { d with sw := { d.sw with rx := t } } e .done [] := h ▸ rfl

theorem cmdTxRingSet_run (t : Tbl FrameRing) (h : ringWrite d.sw.tx e.par d.time.c = t) :
    cmdTxRingSet.run e d = Dev.finish { d with sw := { d.sw with tx := t } } e .done [] := h ▸ rfl

/-- A ring that takes no more work (09 R242). -/
def FrameRing.off (q : FrameRing) : FrameRing := { q with disabled := true }

theorem cmdRingDisable_rx (h : ent e.par 18 1 = 0) : cmdRingDisable.run e d =
    Dev.startDrain { d with sw := { d.sw with rx := d.sw.rx.adjust (ent e.par 16 2) FrameRing.off } } e (.rxRing (ent e.par 16 2))
      (ent e.par 20 4) := by
  simp only [cmdRingDisable, ringNamed, if_pos h]
  rfl

theorem cmdRingDisable_tx (h : ent e.par 18 1 = 1) : cmdRingDisable.run e d =
    Dev.startDrain { d with sw := { d.sw with tx := d.sw.tx.adjust (ent e.par 16 2) FrameRing.off } } e (.txRing (ent e.par 16 2))
      (ent e.par 20 4) := by
  have htx : ¬ ent e.par 18 1 = 0 := by omega
  simp only [cmdRingDisable, ringNamed, if_neg htx]
  rfl

end

/-! ### The events out of reset -/

section
variable (s : State) (h : s.dev.sys.inReset = false) (r producer : Nat)
include h

theorem exec_hostRxWrite (posted : List RxPosted) :
    exec (.hostRxWrite r producer posted) s = .next { s with dev := (hostRxWrite r producer posted s.dev).settle } := live_running _ s h

theorem exec_txRingPoll (entries : List TxPosted) :
    exec (.txRingPoll r producer entries) s = .next { s with dev := (txRingPoll r producer entries s.dev).settle } := live_running _ s h

end

/-! ### Receive rings (R239, R240) -/

section
variable (d : Dev) (r producer : Nat) (q : FrameRing) (x : Frame) (rest : List Frame) (posted : List RxPosted)

/-- Only the low 16 bits of a producer word count. -/
@[simp] theorem FrameRing.ahead_mod : q.ahead (producer % 65536) = q.ahead producer := by simp only [FrameRing.ahead, Nat.mod_mod]

/-- The device knows of no posted buffer, or of too few for the frame: it reads the producer word. -/
def FrameRing.short (q : FrameRing) (posted : List RxPosted) (data : Bytes) : Prop :=
  q.ahead q.producer = 0 ∨ (spread (posted.take (q.ahead q.producer)) data).2 ≠ []

/-- A frame spread over the posted buffers, written and freed: delivered and counted, or abandoned where a rest is left over. -/
def Dev.deliverRx (d : Dev) (r : Nat) (q : FrameRing) (x : Frame) (rest : List Frame) (parts : List (RxPosted × Bytes) × Bytes) : Dev :=
  let wrote := ((d.writeRx q x parts.1 (!parts.2.isEmpty)).setRx r fun _ =>
    { q with queue := rest, index := q.index + parts.1.length }).freeFrame x
  if parts.2.isEmpty then ((wrote.count (ctrRx r 2)).countBy (ctrRx r 3) x.data.length).drainCount (.rxRing r) 1 0
  else wrote.count (ctrRx r 1)

section
variable (parts : List (RxPosted × Bytes) × Bytes)

theorem Dev.deliverRx_whole (h : parts.2 = []) : d.deliverRx r q x rest parts =
    (((((d.writeRx q x parts.1 false).setRx r fun _ => { q with queue := rest, index := q.index + parts.1.length }).freeFrame x).count
      (ctrRx r 2)).countBy (ctrRx r 3) x.data.length).drainCount (.rxRing r) 1 0 := by
  simp only [Dev.deliverRx, h, List.isEmpty_nil, Bool.not_true, if_true]

theorem Dev.deliverRx_abandoned (h : parts.2 ≠ []) : d.deliverRx r q x rest parts =
    ((((d.writeRx q x parts.1 true).setRx r fun _ => { q with queue := rest, index := q.index + parts.1.length }).freeFrame x).count
      (ctrRx r 1)) := by
  have hleft : parts.2.isEmpty = false := List.isEmpty_eq_false_iff.2 h
  simp only [Dev.deliverRx, hleft, Bool.not_false, Bool.false_eq_true, if_false]

end

/-- The ring with the producer index that its producer word holds. -/
def FrameRing.read (q : FrameRing) (producer : Nat) : FrameRing := { q with producer := producer % 65536 }

/-- What a receive ring makes of its oldest frame: discarded where no buffer is posted, spread over the buffers known, or, where they are
too few, over those up to the producer word. -/
def Dev.serveRx (d : Dev) (r producer : Nat) (q : FrameRing) (x : Frame) (rest : List Frame) (posted : List RxPosted) : Dev :=
  if q.ahead q.producer = 0 then ((d.setRx r fun _ => { q with queue := rest }).freeFrame x).count (ctrRx r 0)
  else
    let known := spread (posted.take (q.ahead q.producer)) x.data
    let m := if known.2.isEmpty then q else q.read producer
    d.deliverRx r m x rest (if known.2.isEmpty then known else spread (posted.take (m.ahead m.producer)) x.data)

theorem Dev.serveRx_unposted (h : q.ahead q.producer = 0) : d.serveRx r producer q x rest posted =
    ((d.setRx r fun _ => { q with queue := rest }).freeFrame x).count (ctrRx r 0) := if_pos h

section
variable (hknown : q.ahead q.producer ≠ 0)
include hknown

/-- The buffers that the device knows of take the whole frame. -/
theorem Dev.serveRx_known (hfits : (spread (posted.take (q.ahead q.producer)) x.data).2 = []) : d.serveRx r producer q x rest posted =
    d.deliverRx r q x rest (spread (posted.take (q.ahead q.producer)) x.data) := by
  simp only [Dev.serveRx, if_neg hknown, if_pos (List.isEmpty_iff.2 hfits)]

/-- The buffers that the device knows of are too few: it reads the producer word. -/
theorem Dev.serveRx_read (hfew : (spread (posted.take (q.ahead q.producer)) x.data).2 ≠ []) : d.serveRx r producer q x rest posted =
    d.deliverRx r (q.read producer) x rest (spread (posted.take (q.ahead (producer % 65536))) x.data) := by
  simp only [Dev.serveRx, if_neg hknown, if_neg fun h => hfew (List.isEmpty_iff.1 h)]
  rfl

end

/-- A ring whose producer word has just been read finds nothing new there. -/
theorem Dev.serveRx_reread (h : q.ahead producer ≠ 0) : d.serveRx r producer (q.read producer) x rest posted =
    d.deliverRx r (q.read producer) x rest (spread (posted.take (q.ahead (producer % 65536))) x.data) := by
  have hknown : (q.read producer).ahead (q.read producer).producer ≠ 0 := fun h0 => h ((q.ahead_mod producer).symm.trans h0)
  by_cases hfits : (spread (posted.take (q.ahead (producer % 65536))) x.data).2 = []
  · exact d.serveRx_known r producer (q.read producer) x rest posted hknown hfits
  · exact d.serveRx_read r producer (q.read producer) x rest posted hknown hfits

variable (hq : d.sw.rx.find? r = some q) (hx : q.queue = x :: rest)
include hq hx

/-- The producer word is read before the frame is served where the device knows of no buffer. -/
theorem hostRxWrite_frame : hostRxWrite r producer posted d =
    d.serveRx r producer (if q.ahead q.producer = 0 then q.read producer else q) x rest posted := by
  unfold hostRxWrite
  split
  case h_1 hnone => exact absurd (hq.symm.trans hnone) (Option.some_ne_none _)
  case h_2 u hu =>
    obtain rfl := Option.some.inj (hq.symm.trans hu)
    split
    case h_1 hnil => exact absurd (hx.symm.trans hnil) (List.cons_ne_nil _ _)
    case h_2 y later hcons =>
      obtain ⟨rfl, rfl⟩ := List.cons.inj (hx.symm.trans hcons)
      rfl

/-- No buffer is posted, even after the producer word is read: the frame is discarded. -/
theorem hostRxWrite_unposted (hknown : q.ahead q.producer = 0) (hread : q.ahead producer = 0) : hostRxWrite r producer posted d =
    ((d.setRx r fun _ => { q with producer := producer % 65536, queue := rest }).freeFrame x).count (ctrRx r 0) := by
  rw [hostRxWrite_frame d r producer q x rest posted hq hx, if_pos hknown]
  exact d.serveRx_unposted r producer (q.read producer) x rest posted ((q.ahead_mod producer).trans hread)

/-- The producer index that counts is the one known where the frame fits, and the one read where the buffers known are short. -/
theorem hostRxWrite_delivers (known : Nat) (hposted : ¬(q.ahead q.producer = 0 ∧ q.ahead producer = 0))
    (hread : q.short posted x.data → known = producer % 65536) (hkept : ¬q.short posted x.data → known = q.producer) :
    hostRxWrite r producer posted d =
      d.deliverRx r { q with producer := known } x rest (spread (posted.take (q.ahead known)) x.data) := by
  rw [hostRxWrite_frame d r producer q x rest posted hq hx]
  by_cases hknown : q.ahead q.producer = 0
  · obtain rfl := hread (.inl hknown)
    rw [if_pos hknown]
    exact d.serveRx_reread r producer q x rest posted fun h => hposted ⟨hknown, h⟩
  rw [if_neg hknown]
  by_cases hfits : (spread (posted.take (q.ahead q.producer)) x.data).2 = []
  · obtain rfl := hkept fun hshort => hshort.elim hknown (· hfits)
    exact d.serveRx_known r producer q x rest posted hknown hfits
  · obtain rfl := hread (.inr hfits)
    exact d.serveRx_read r producer q x rest posted hknown hfits

end

/-! ### Transmit rings (R241, R242) -/

section
variable (d : Dev) (r producer : Nat) (q : FrameRing) (entries : List TxPosted) (hq : d.sw.tx.find? r = some q)
include hq

/-- The ring with its producer index and its next poll, and then the entries up to that index, each in turn. -/
theorem txRingPoll_on (h : q.disabled = false) : txRingPoll r producer entries d =
    (entries.take (q.ahead producer)).foldl (fun t e => t.fetchTx r e) ((d.goCounter q.nextPoll).setTx r fun u =>
      { u with producer := producer % 65536, nextPoll := (d.goCounter q.nextPoll).time.c + 1000 * u.poll }) := by
  simp only [txRingPoll, hq, h, Bool.false_eq_true, if_false]

theorem txRingPoll_off (h : q.disabled = true) : txRingPoll r producer entries d = d := by
  simp only [txRingPoll, hq, h, if_true]

end

/-! ### Packet memory and host rings together (O22) -/

/-- Settles O22: each command's run is the words that it reads, the change of its table, or the start of its drain; a receive ring's frame
is dropped, delivered or abandoned by the buffers that count, and a poll takes the entries in turn. -/
theorem packetMemoryAndHostRingsAct : Obligations.PacketMemoryAndHostRingsAct := by
  unfold Obligations.PacketMemoryAndHostRingsAct
  refine ⟨fun p s => ?memory, fun p s => ?settings, fun s r producer q x rest posted entries => ?rings⟩
  case memory =>
    intro d b k list exc
    refine ⟨fun h => ?status, fun h => ?log, fun h h0 => ?unlist, fun h h0 => ?list, fun h => ?exception⟩
    case status => exact exec_reads _ cmdPoolStatus p s rfl h .done _ rfl
    case log => exact exec_answers _ cmdSegmentLogRead p s rfl h (d.hostWrite (ent b 16 8) _) .done _ rfl rfl
    case unlist =>
      exact exec_answers _ cmdReplListSet p s rfl h { d with sw := { d.sw with repl := d.sw.repl.del (field b 0 2) } } .done [] rfl
        (cmdReplListSet_removes (d.fetch p) (cmdReplListSet.entry d p) h0)
    case list =>
      exact exec_answers _ cmdReplListSet p s rfl h { d with sw := { d.sw with repl := d.sw.repl.put (field b 0 2) list } } .done [] rfl
        (cmdReplListSet_writes (d.fetch p) (cmdReplListSet.entry d p) h0)
    case exception =>
      exact exec_answers _ cmdExceptionSet p s rfl h { d with cls := { d.cls with excs := d.cls.excs.put k exc } } .done [] rfl rfl
  case settings =>
    intro d b r poll ring off
    refine ⟨fun h h0 => ?rxSet, fun h h1 => ?rxRemove, fun h h0 => ?txSet, fun h h1 => ?txRemove, fun h h0 => ?rxDisable,
      fun h h1 => ?txDisable⟩
    case rxSet =>
      exact exec_answers _ cmdRxRingSet p s rfl h { d with sw := { d.sw with rx := d.sw.rx.put r ring } } .done [] rfl
        (cmdRxRingSet_run (d.fetch p) (cmdRxRingSet.entry d p) _ (ringWrite_put d.sw.rx b d.time.c h0))
    case rxRemove =>
      exact exec_answers _ cmdRxRingSet p s rfl h { d with sw := { d.sw with rx := d.sw.rx.del r } } .done [] rfl
        (cmdRxRingSet_run (d.fetch p) (cmdRxRingSet.entry d p) _ (ringWrite_del d.sw.rx b d.time.c h1))
    case txSet =>
      exact exec_answers _ cmdTxRingSet p s rfl h { d with sw := { d.sw with tx := d.sw.tx.put r ring } } .done [] rfl
        (cmdTxRingSet_run (d.fetch p) (cmdTxRingSet.entry d p) _ (ringWrite_put d.sw.tx b d.time.c h0))
    case txRemove =>
      exact exec_answers _ cmdTxRingSet p s rfl h { d with sw := { d.sw with tx := d.sw.tx.del r } } .done [] rfl
        (cmdTxRingSet_run (d.fetch p) (cmdTxRingSet.entry d p) _ (ringWrite_del d.sw.tx b d.time.c h1))
    case rxDisable =>
      rw [exec_accepted _ cmdRingDisable p s rfl h, cmdRingDisable_rx (d.fetch p) (cmdRingDisable.entry d p) h0]
      rfl
    case txDisable =>
      rw [exec_accepted _ cmdRingDisable p s rfl h, cmdRingDisable_tx (d.fetch p) (cmdRingDisable.entry d p) h1]
      rfl
  case rings =>
    intro d ahead short hr
    rw [exec_hostRxWrite s hr, exec_txRingPoll s hr]
    refine ⟨fun hq hx => ⟨fun hknown hread => ?unposted, fun known hposted hread hkept => ?served⟩, fun hq hon => ?polled,
      fun hq hoff => ?off⟩
    case unposted => rw [hostRxWrite_unposted d r producer q x rest posted hq hx hknown hread]; rfl
    case served =>
      rw [hostRxWrite_delivers d r producer q x rest posted hq hx known hposted hread hkept]
      refine ⟨fun hall => ?whole, fun hleft => ?abandoned⟩
      case whole => rw [Dev.deliverRx_whole d r _ x rest (spread (posted.take (q.ahead known)) x.data) hall]; rfl
      case abandoned => rw [Dev.deliverRx_abandoned d r _ x rest (spread (posted.take (q.ahead known)) x.data) hleft]; rfl
    case polled => rw [txRingPoll_on d r producer q entries hq hon]; rfl
    case off => rw [txRingPoll_off d r producer q entries hq hoff]

end Sys2Proof.Machine
end

section
/-!
SUPPORT. The forwarding table (08 R203 to R209, R198, R213): what the run of each command is in each case, the end of a flush, and what a
write over a key's entry leaves to be found.
-/
namespace Sys2Proof.Machine

/-! ### Lookups (08 R201, R203, R205) -/

section
variable (w : Fwd) (fid mac : Nat)

/-- What one candidate slot has for a key: its index with its entry, where the entry is the key's. -/
def Fwd.at? (w : Fwd) (fid mac i : Nat) : Option (Nat × FwdEntry) :=
  (w.slots.find? i).bind fun x => if x.is fid mac then some (i, x) else none

theorem Fwd.find_eq : w.find fid mac = (candSlots fid mac).findSome? (w.at? fid mac) := by
  unfold Fwd.find
  congr 1
  funext i
  unfold Fwd.at?
  cases w.slots.find? i <;> rfl

theorem Fwd.at?_eq_some_iff (i k : Nat) (x : FwdEntry) :
    w.at? fid mac i = some (k, x) ↔ i = k ∧ w.slots.find? i = some x ∧ x.is fid mac = true := by
  simp only [Fwd.at?, Option.bind_eq_some_iff, Option.ite_none_right_eq_some, Option.some.injEq, Prod.mk.injEq]
  constructor
  · rintro ⟨y, hy, hkey, rfl, rfl⟩
    exact ⟨rfl, hy, hkey⟩
  · rintro ⟨rfl, hx, hkey⟩
    exact ⟨x, hx, hkey, rfl, rfl⟩

theorem FwdEntry.is_iff (x : FwdEntry) : x.is fid mac = true ↔ (fid, mac) = (x.fid, x.mac) := by
  simp only [FwdEntry.is, Bool.and_eq_true, beq_iff_eq, Prod.mk.injEq, eq_comm (a := fid), eq_comm (a := mac)]

/-- The table with one slot written. -/
def Fwd.write (w : Fwd) (i : Nat) (x : FwdEntry) : Fwd := { w with slots := w.slots.put i x }

theorem Fwd.at?_write_ne (i j : Nat) (x : FwdEntry) (h : j ≠ i) : (w.write i x).at? fid mac j = w.at? fid mac j := by
  simp only [Fwd.at?, Fwd.write, Tbl.find_put_ne _ _ _ _ h]

/-- A slot whose entry is not the key's has nothing for it. -/
theorem Fwd.at?_other (i : Nat) (x : FwdEntry) (hx : w.slots.find? i = some x) (hk : x.is fid mac = false) : w.at? fid mac i = none := by
  simp only [Fwd.at?, hx, Option.bind_some, hk, Bool.false_eq_true, if_false]

variable (x y : FwdEntry) (i : Nat) (h : w.find x.fid x.mac = some (i, y))
include h

/-- The slots searched before the key's own hold nothing for it, whatever its own slot holds. -/
theorem Fwd.find_write_same : (w.write i x).find x.fid x.mac = some (i, x) := by
  rw [Fwd.find_eq, List.findSome?_eq_some_iff] at h ⊢
  obtain ⟨before, k, after, hcand, hk, hbefore⟩ := h
  obtain ⟨rfl, -, -⟩ := (w.at?_eq_some_iff x.fid x.mac k i y).1 hk
  refine ⟨before, k, after, hcand, ?own, fun j hj => ?earlier⟩
  case own => exact ((w.write k x).at?_eq_some_iff x.fid x.mac k k x).2 ⟨rfl, Tbl.find_put _ _ _, (x.is_iff x.fid x.mac).2 rfl⟩
  case earlier =>
    have hne : j ≠ k := fun he => Option.some_ne_none _ (hk.symm.trans (he ▸ hbefore j hj))
    rw [Fwd.at?_write_ne w _ _ k j x hne]
    exact hbefore j hj

/-- Neither the entry replaced nor the new one is another key's. -/
theorem Fwd.find_write_other (hother : (fid, mac) ≠ (x.fid, x.mac)) : (w.write i x).find fid mac = w.find fid mac := by
  rw [Fwd.find_eq] at h
  obtain ⟨k, -, hk⟩ := List.exists_of_findSome?_eq_some h
  obtain ⟨rfl, hslot, hkey⟩ := (w.at?_eq_some_iff x.fid x.mac k i y).1 hk
  have hx : x.is fid mac = false := Bool.eq_false_iff.2 fun hx => hother ((x.is_iff fid mac).1 hx)
  have hy : y.is fid mac = false :=
    Bool.eq_false_iff.2 fun hy => hother (((y.is_iff fid mac).1 hy).trans ((y.is_iff x.fid x.mac).1 hkey).symm)
  have hat : (w.write k x).at? fid mac = w.at? fid mac := by
    funext j
    by_cases hj : j = k
    · subst hj
      rw [Fwd.at?_other _ fid mac j x (Tbl.find_put _ _ _) hx, Fwd.at?_other w fid mac j y hslot hy]
    · exact Fwd.at?_write_ne w fid mac k j x hj
  rw [Fwd.find_eq, Fwd.find_eq, hat]

end

/-! ### Moves (08 R203, R204) -/

section
variable (v w : Fwd) (h : v.slots = w.slots)
include h

theorem Fwd.find_congr (fid mac : Nat) : v.find fid mac = w.find fid mac := by simp only [Fwd.find, h]

theorem Fwd.chainFrom_congr (fuel : Nat) (paths : List (List Nat)) : v.chainFrom fuel paths = w.chainFrom fuel paths := by
  induction fuel generalizing paths with
  | zero => rfl
  | succ fuel ih => simp only [Fwd.chainFrom, Fwd.expand, h, ih]

/-- The moves that make room for a key depend on the slots alone. -/
theorem Fwd.chain_congr (fid mac : Nat) : v.chain fid mac = w.chain fid mac := by
  simp only [Fwd.chain, h, Fwd.chainFrom_congr v w h]

end

/-! ### Commands -/

/-- The entry that a write makes, the next in the order of writes (08 Table 8-3, R209). -/
def Fwd.newEntry (w : Fwd) (b : Bytes) : FwdEntry :=
  ⟨ent b 16 2, ent b 18 6, bit (ent b 24 1) 1, bit (ent b 24 1) 3, ent b 25 1, ent b 26 2, ent b 32 4, false, 0, w.stamp + 1, false⟩

/-- A write is counted in the order of writes, and the pending notice of its key ends (08 R205, R209). -/
def Fwd.countWrite (w : Fwd) (fid mac : Nat) : Fwd :=
  { w with stamp := w.stamp + 1, pend := w.pend.filter fun x => !(x.fid == fid && x.mac == mac) }

section
variable (d : Dev) (e : Exec)

theorem cmdFwdEntryWrite_replaces (i : Nat) (y : FwdEntry) (h : d.fwd.find (ent e.par 16 2) (ent e.par 18 6) = some (i, y)) :
    cmdFwdEntryWrite.run e d =
      Dev.finish { d with fwd := (d.fwd.countWrite (ent e.par 16 2) (ent e.par 18 6)).write i (d.fwd.newEntry e.par) } e .done
        [i, 0, 1, d.fwd.moves % 2 ^ 32] := by
  have hfind := (Fwd.find_congr (d.fwd.countWrite (ent e.par 16 2) (ent e.par 18 6)) d.fwd rfl _ _).trans h
  simp only [Fwd.countWrite] at hfind
  simp only [cmdFwdEntryWrite, hfind]
  rfl

theorem cmdFwdEntryWrite_moves (i : Nat) (rest : List Nat) (hnone : d.fwd.find (ent e.par 16 2) (ent e.par 18 6) = none)
    (hchain : d.fwd.chain (ent e.par 16 2) (ent e.par 18 6) = some (i :: rest)) : cmdFwdEntryWrite.run e d =
      Dev.finish { d with fwd := { d.fwd.countWrite (ent e.par 16 2) (ent e.par 18 6) with
          slots := (moveAlong d.fwd.slots (i :: rest)).put i (d.fwd.newEntry e.par), moves := d.fwd.moves + rest.length } } e .done
        [i, rest.length, 0, (d.fwd.moves + rest.length) % 2 ^ 32] := by
  have hfind := (Fwd.find_congr (d.fwd.countWrite (ent e.par 16 2) (ent e.par 18 6)) d.fwd rfl _ _).trans hnone
  have hpath := (Fwd.chain_congr (d.fwd.countWrite (ent e.par 16 2) (ent e.par 18 6)) d.fwd rfl _ _).trans hchain
  simp only [Fwd.countWrite] at hfind hpath
  simp only [cmdFwdEntryWrite, hfind, hpath]
  rfl

theorem cmdFwdEntryDelete_frees (i : Nat) (y : FwdEntry) (h : d.fwd.find (ent e.par 16 2) (ent e.par 18 6) = some (i, y)) :
    cmdFwdEntryDelete.run e d =
      Dev.finish { d with fwd := { d.fwd with
          slots := d.fwd.slots.del i
          pend := d.fwd.pend.filter fun x => !(x.fid == ent e.par 16 2 && x.mac == ent e.par 18 6) } } e .done [i] := by
  simp only [cmdFwdEntryDelete, h]

/-- The entry that a read names, by its key or by its slot (08 R207). -/
def Fwd.named (w : Fwd) (b : Bytes) : Option (Nat × FwdEntry) :=
  if ent b 16 1 = 0 then w.find (ent b 18 2) (ent b 20 6) else (w.slots.find? (ent b 28 4)).map fun x => (ent b 28 4, x)

theorem cmdFwdEntryRead_entry (i : Nat) (x : FwdEntry) (h : d.fwd.named e.par = some (i, x)) :
    cmdFwdEntryRead.run e d = (d.hostWrite (ent e.par 32 8) (x.bytes i)).finish e .done [i, 1] := by
  unfold Fwd.named at h
  simp only [cmdFwdEntryRead, h]

theorem cmdFwdEntryRead_absent (h : d.fwd.named e.par = none) :
    cmdFwdEntryRead.run e d = (d.hostWrite (ent e.par 32 8) (List.replicate 32 0#8)).finish e .done [0xFFFFFFFF, 0] := by
  unfold Fwd.named at h
  simp only [cmdFwdEntryRead, h]

end

/-! ### The end of a flush (08 R209) -/

/-- The entries that a flush removes: written before it started and matched by its filters, static ones only where it asks for them. -/
def Flush.takes (f : Flush) (x : Nat × FwdEntry) : Bool :=
  decide (x.2.stamp ≤ f.stamp) && x.2.matches f.fid f.dkind f.dest && (f.statics || !x.2.static)

theorem fwdFlushComplete_sweeps (d : Dev) (f : Flush) (e : Exec) (hf : d.fwd.flush = some f) (he : d.exec? f.dom f.seq = some e) :
    fwdFlushComplete d =
      Dev.finish { d with fwd := { d.fwd with slots := d.fwd.slots.filter fun x => !f.takes x, flush := none } } e .done
        [(d.fwd.slots.filter f.takes).length] := by
  have hparked : ∀ w : Fwd, Dev.exec? { d with fwd := w } f.dom f.seq = some e := fun _ => he
  simp only [fwdFlushComplete, hf, Dev.finishId, hparked]
  rfl

theorem exec_fwdFlushComplete (s : State) (h : s.dev.sys.inReset = false) :
    exec .fwdFlushComplete s = .next { s with dev := (fwdFlushComplete s.dev).settle } := live_running _ s h

/-! ### The forwarding commands together (O20) -/

/-- Settles O20: each command's run is the change of its table and its reply, a flush is parked and ends with its sweep, and a write over
a key's entry is found in its slot. -/
theorem forwardingCommandsAct : Obligations.ForwardingCommandsAct := by
  unfold Obligations.ForwardingCommandsAct
  refine ⟨fun p s => ?entries, fun p s => ?reads, fun p s f e => ?tables, fun w x y i h => ?lookups⟩
  case entries =>
    intro d b fid mac pend x
    refine ⟨fun i y h hfind => ?replaced, fun i rest h hnone hchain => ?moved, fun i y h hfind => ?deleted⟩
    case replaced =>
      exact exec_answers _ cmdFwdEntryWrite p s rfl h { d with fwd := (d.fwd.countWrite fid mac).write i x } .done _ rfl
        (cmdFwdEntryWrite_replaces (d.fetch p) (cmdFwdEntryWrite.entry d p) i y hfind)
    case moved =>
      exact exec_answers _ cmdFwdEntryWrite p s rfl h { d with fwd := { d.fwd.countWrite fid mac with
          slots := (moveAlong d.fwd.slots (i :: rest)).put i x, moves := d.fwd.moves + rest.length } } .done _ rfl
        (cmdFwdEntryWrite_moves (d.fetch p) (cmdFwdEntryWrite.entry d p) i rest hnone hchain)
    case deleted =>
      exact exec_answers _ cmdFwdEntryDelete p s rfl h { d with fwd := { d.fwd with slots := d.fwd.slots.del i, pend } } .done [i] rfl
        (cmdFwdEntryDelete_frees (d.fetch p) (cmdFwdEntryDelete.entry d p) i y hfind)
  case reads =>
    intro d b hit start stop found next
    refine ⟨fun i x h hhit => ?entry, fun h hhit => ?absent, fun h => ?search⟩
    case entry =>
      exact exec_answers _ cmdFwdEntryRead p s rfl h (d.hostWrite (ent b 32 8) (x.bytes i)) .done [i, 1] rfl
        (cmdFwdEntryRead_entry (d.fetch p) (cmdFwdEntryRead.entry d p) i x hhit)
    case absent =>
      exact exec_answers _ cmdFwdEntryRead p s rfl h (d.hostWrite (ent b 32 8) (List.replicate 32 0#8)) .done [0xFFFFFFFF, 0] rfl
        (cmdFwdEntryRead_absent (d.fetch p) (cmdFwdEntryRead.entry d p) hhit)
    case search => exact exec_answers _ cmdFwdSearch p s rfl h (d.hostWrite (ent b 32 8) _) .done _ rfl rfl
  case tables =>
    intro d b goes
    refine ⟨exec_accepted _ cmdFwdFlush p s rfl, fun hr hf he => ?swept, fun h => ?source, fun h => ?learn⟩
    case swept =>
      rw [exec_fwdFlushComplete s hr, fwdFlushComplete_sweeps d f e hf he]
      rfl
    case source => exact exec_answers _ cmdFwdSourceSet p s rfl h { d with fwd := { d.fwd with sources := _ } } .done [] rfl rfl
    case learn => exact exec_answers _ cmdLearnSet p s rfl h { d with fwd := _ } .done [] rfl rfl
  case lookups => exact ⟨w.find_write_same x y i h, fun fid mac => w.find_write_other fid mac x y i h⟩

end Sys2Proof.Machine
end

section
/-!
SUPPORT. Learning (08 R211 to R214): what a notice meets at its release, the end of its key's HOLD, and an ageing scan.
-/
namespace Sys2Proof.Machine

/-! ### The events out of reset -/

section
variable (s : State) (h : s.dev.sys.inReset = false)
include h

theorem exec_learnNoticeRelease : exec .learnNoticeRelease s = .next { s with dev := (learnNoticeRelease s.dev).settle } :=
  live_running _ s h

theorem exec_learnHoldExpiry (fid mac : Nat) :
    exec (.learnHoldExpiry fid mac) s = .next { s with dev := (learnHoldExpiry fid mac s.dev).settle } := live_running _ s h

theorem exec_ageingScan : exec .ageingScan s = .next { s with dev := (ageingScan s.dev).settle } := live_running _ s h

end

/-! ### Receive rings (R212) -/

section
variable (d : Dev) (r : Nat) (x : Frame)

/-- A ring that is absent or disabled takes no record. -/
theorem Dev.toRing_refused (h : ∀ q, d.sw.rx.find? r = some q → q.disabled = true) : d.toRing r x = (d, false) := by
  cases hq : d.sw.rx.find? r with
  | none => simp only [Dev.toRing, hq]
  | some q => simp only [Dev.toRing, hq, h q hq, if_true]

theorem Dev.toRing_taken (q : FrameRing) (hq : d.sw.rx.find? r = some q) (hon : q.disabled = false) :
    d.toRing r x = ({ d with sw := { d.sw with rx := d.sw.rx.put r { q with queue := q.queue ++ [x] } } }, true) := by
  simp only [Dev.toRing, hq, hon, Bool.false_eq_true, if_false]

end

/-! ### The learn bucket (R212) -/

/-- The record that a notice is on its ring (08 Table 8-4). -/
def Notice.frame (n : Notice) : Frame := { data := n.bytes, src := n.src, flow := n.flow, itime := n.time, reason := 7 }

/-- The device with its learn bucket of now. -/
def Dev.filled (d : Dev) : Dev := { d with fwd := d.fwd.fill d.now }

/-- A notice takes one from the bucket and enters the pending list. -/
def Dev.enlisted (d : Dev) (n : Notice) : Dev :=
  { d with fwd := { d.fwd with level := d.fwd.level - 1000000000 }.enlist n (d.inNs (d.fwd.hold * 1000000)) }

/-- What a notice for a ring becomes, by the bucket and then by the ring. -/
def Dev.postTo (d : Dev) (r : Nat) (n : Notice) : Dev :=
  if d.fwd.level < 1000000000 then d.count (ctrDev 3)
  else match d.toRing r n.frame with
    | (d, false) => d.count (ctrDev 3)
    | (d, true) => d.enlisted n

section
variable (d : Dev) (n : Notice)

theorem Dev.postNotice_ringless (h : d.fwd.ring = none) : d.postNotice n = d.filled.count (ctrDev 3) := by
  have hring : (d.fwd.fill d.now).ring = none := h
  simp only [Dev.postNotice, hring, Dev.filled]

theorem Dev.postNotice_ring (r : Nat) (h : d.fwd.ring = some r) : d.postNotice n = d.filled.postTo r n := by
  have hring : (d.fwd.fill d.now).ring = some r := h
  simp only [Dev.postNotice, hring]
  rfl

variable (r : Nat)

/-- The bucket is empty, or the ring takes nothing. -/
theorem Dev.postTo_lost (h : d.fwd.level < 1000000000 ∨ ∀ q, d.sw.rx.find? r = some q → q.disabled = true) :
    d.postTo r n = d.count (ctrDev 3) := by
  unfold Dev.postTo
  split
  · rfl
  · next hlevel => rw [d.toRing_refused r n.frame (h.resolve_left hlevel)]

theorem Dev.postTo_taken (q : FrameRing) (hlevel : 1000000000 ≤ d.fwd.level) (hq : d.sw.rx.find? r = some q)
    (hon : q.disabled = false) : d.postTo r n =
      Dev.enlisted { d with sw := { d.sw with rx := d.sw.rx.put r { q with queue := q.queue ++ [n.frame] } } } n := by
  rw [Dev.postTo, if_neg (Nat.not_lt.2 hlevel), d.toRing_taken r n.frame q hq hon]

end

/-! ### The pending list (R211) -/

section
variable (d : Dev) (n : Notice)

theorem Dev.judgeNotice_repeat (q : Pend) (h : d.fwd.pending? n.fid n.mac = some q) (hsrc : q.src = n.src) : d.judgeNotice n = d := by
  simp only [Dev.judgeNotice, h, if_pos hsrc]

theorem Dev.judgeNotice_full (h : d.fwd.pending? n.fid n.mac = none) (hfull : 4096 ≤ d.fwd.pend.length) :
    d.judgeNotice n = d.count (ctrDev 2) := by
  simp only [Dev.judgeNotice, h, if_pos hfull]

/-- The notice `m` that the list lets through: the notice itself where the list has room for its key, and a contested one where another
source holds the key. -/
def Dev.letsThrough (d : Dev) (n m : Notice) : Prop :=
  (d.fwd.pending? n.fid n.mac = none ∧ d.fwd.pend.length < 4096 ∧ m = n)
    ∨ ((∃ q, d.fwd.pending? n.fid n.mac = some q ∧ q.src ≠ n.src) ∧ m = { n with contested := true })

theorem Dev.judgeNotice_passed (m : Notice) (h : d.letsThrough n m) : d.judgeNotice n = d.postNotice m := by
  rcases h with ⟨hnone, hroom, rfl⟩ | ⟨⟨q, hq, hsrc⟩, rfl⟩
  · simp only [Dev.judgeNotice, hnone, if_neg (Nat.not_le.2 hroom)]
  · simp only [Dev.judgeNotice, hq, if_neg hsrc]

/-- A notice let through differs from the one released in its CONTESTED mark at most. -/
theorem Dev.letsThrough_contested (m : Notice) (h : d.letsThrough n m) : m = { n with contested := m.contested } := by
  rcases h with ⟨-, -, rfl⟩ | ⟨-, rfl⟩ <;> rfl

end

/-! ### Releases (R212) -/

theorem learnNoticeRelease_none (d : Dev) (h : d.fwd.notices = []) : learnNoticeRelease d = d := by
  have hsorted : sortBy (fun n : Notice => n.time * 8 + n.pipe) d.fwd.notices = [] := by rw [h]; rfl
  simp only [learnNoticeRelease, hsorted]

theorem learnNoticeRelease_earliest (d : Dev) (n : Notice) (rest : List Notice)
    (h : sortBy (fun n : Notice => n.time * 8 + n.pipe) d.fwd.notices = n :: rest) :
    learnNoticeRelease d = Dev.judgeNotice { d.goTime (n.time + 4000) with fwd := { d.fwd with notices := rest } } n := by
  simp only [learnNoticeRelease, h]
  rfl

/-! ### Holds and ageing scans (R213, R214) -/

theorem learnHoldExpiry_frees (d : Dev) (fid mac : Nat) (q : Pend) (h : (d.fwd.pend.find? fun q => q.fid == fid && q.mac == mac) = some q) :
    learnHoldExpiry fid mac d =
      { d.goCounter q.due with fwd := { d.fwd with pend := d.fwd.pend.filter fun x => !(x.fid == fid && x.mac == mac) } } := by
  simp only [learnHoldExpiry, h]
  rfl

section
variable (x : FwdEntry) (ageMax : Nat)

theorem FwdEntry.scan_static (h : x.static = true) : x.scan ageMax = (x, false) := if_pos h

variable (hs : x.static = false)
include hs

theorem FwdEntry.scan_hit (hh : x.hit = true) : x.scan ageMax = ({ x with hit := false, age := 0, noticed := false }, false) := by
  simp only [FwdEntry.scan, hs, hh, Bool.false_eq_true, if_false, if_true]

/-- An entry that was not hit ages up to the limit, where it makes the one notice that it owes. -/
theorem FwdEntry.scan_unhit (hh : x.hit = false) : x.scan ageMax =
    let due := decide (ageMax ≤ x.age + 1) && !x.noticed
    ({ x with age := min (x.age + 1) ageMax, noticed := x.noticed || due }, due) := by
  have hlimit : min (x.age + 1) ageMax = ageMax ↔ ageMax ≤ x.age + 1 := by omega
  cases hn : x.noticed with
  | true => simp only [FwdEntry.scan, hs, hh, hn, Bool.not_true, Bool.false_eq_true, and_false, if_false, Bool.and_false, Bool.or_false]
  | false =>
    by_cases hage : ageMax ≤ x.age + 1
    · simp only [FwdEntry.scan, hs, hh, hn, hlimit, hage, Bool.not_false, Bool.false_eq_true, and_true, if_true, if_false, decide_true,
        Bool.and_true, Bool.or_true]
    · simp only [FwdEntry.scan, hs, hh, hn, hlimit, hage, Bool.not_false, Bool.false_eq_true, and_true, if_false, decide_false,
        Bool.and_true, Bool.or_false]

end

/-! ### Learning together (O21) -/

/-- Settles O21: the list and the bucket decide what a released notice becomes, a hold ends with its key freed, and a scan treats each
entry by its marks. -/
theorem learningEventsAct : Obligations.LearningEventsAct := by
  unfold Obligations.LearningEventsAct
  refine ⟨fun s n rest => ?releases, fun s fid mac q => ?holds, fun s => ?scans, fun x ageMax => ?ages⟩
  case releases =>
    intro d t w level base filled prior gives lost hr
    have hgives : ∀ x : Dev, learnNoticeRelease d = x → gives x := fun x hx => (exec_learnNoticeRelease s hr).trans (hx ▸ rfl)
    refine ⟨fun hnone => hgives d (learnNoticeRelease_none d hnone), fun hfirst => ?_⟩
    have hjudged : learnNoticeRelease d = base.judgeNotice n := learnNoticeRelease_earliest d n rest hfirst
    refine ⟨fun q hq hsrc => ?again, fun hnone hfull => ?full, fun m hm => ?passed⟩
    case again => exact hgives _ (hjudged.trans (base.judgeNotice_repeat n q hq hsrc))
    case full => exact hgives _ (hjudged.trans (base.judgeNotice_full n hnone hfull))
    case passed =>
      have hpass : base.letsThrough n m := hm
      have hposts : learnNoticeRelease d = base.postNotice m := hjudged.trans (base.judgeNotice_passed n m hpass)
      refine ⟨fun hring => hgives _ (hposts.trans (base.postNotice_ringless m hring)), fun r hring => ?_⟩
      have hmeets : learnNoticeRelease d = base.filled.postTo r m := hposts.trans (base.postNotice_ring m r hring)
      refine ⟨fun hlost => hgives _ (hmeets.trans (base.filled.postTo_lost m r hlost)), fun q hlevel hq hon => ?posted⟩
      case posted =>
        refine hgives _ (hmeets.trans ((base.filled.postTo_taken m r q hlevel hq hon).trans ?_))
        rw [base.letsThrough_contested n m hpass]
        rfl
  case holds =>
    intro d hr hq
    rw [exec_learnHoldExpiry s hr, learnHoldExpiry_frees d fid mac q hq]
  case scans =>
    intro d hr
    refine ⟨_, _, exec_ageingScan s hr, rfl, rfl, rfl, rfl, rfl, ?_⟩
    rw [List.map_map]
    rfl
  case ages =>
    intro y
    refine ⟨x.scan_static ageMax, x.scan_hit ageMax, fun hs hh => ?_⟩
    have hy : y = _ := x.scan_unhit ageMax hs hh
    rw [hy]
    refine ⟨rfl, ?_, rfl⟩
    simp only [Bool.and_eq_true, decide_eq_true_eq, Bool.not_eq_true']

end Sys2Proof.Machine
end

section
/-!
SUPPORT. What a fault recovery keeps of the device (02 R69): the counter and its rate, the greatest version number, the fault log, the
ledger, the chain bits, and of each domain its ring.
-/
namespace Sys2Proof

theorem Tbl.find_mapAll {α : Type} (t : Tbl α) (f : Nat → α → α) (i : Nat) : (t.mapAll f).find? i = (t.find? i).map (f i) := by
  induction t with
  | nil => rfl
  | cons e t ih =>
    obtain ⟨j, v⟩ := e
    show (if i = j then some (f j v) else Tbl.find? (Tbl.mapAll t f) i) = (if i = j then some v else Tbl.find? t i).map (f i)
    split
    · next h => rw [h, Option.map_some]
    · exact ih

/-- A reading that a change of every entry keeps, also where there is no entry. -/
theorem Tbl.getD_mapAll_keeps {α β : Type} (t : Tbl α) (f : Nat → α → α) (g : α → β) (h : ∀ i v, g (f i v) = g v) (i : Nat) (x : α) :
    g ((t.mapAll f).getD i x) = g (t.getD i x) := by
  unfold Tbl.getD
  rw [Tbl.find_mapAll]
  cases t.find? i with
  | none => rfl
  | some v => exact h i v

namespace Machine

/-! ### What lasts -/

/-- What a domain's ring is in force for: whether it is enabled, and how far it has been consumed. -/
def Dom.place (m : Dom) : Bool × BitVec 16 := (m.enable, m.consumer)

/-- What of the device neither the early end of a command, nor a count, nor a recovery changes. -/
structure Lasting where
  c       : Nat
  rate    : Int
  highest : Nat
  log     : List FaultRec
  ledger  : Ledger
  chain   : Tbl Bool
  place   : Nat → Bool × BitVec 16

/-- See `Lasting`. -/
def Dev.lasting (d : Dev) : Lasting where
  c := d.time.c
  rate := d.time.rate
  highest := d.vers.highest
  log := d.health.log
  ledger := d.health.ledger
  chain := d.health.chain
  place := fun n => (d.dom n).place

section
variable (d : Dev)

theorem Dev.setDom_lasting (n : Nat) (f : Dom → Dom) (hf : ∀ m, (f m).place = m.place) : (d.setDom n f).lasting = d.lasting := by
  have hplace : (fun k => ((d.setDom n f).dom k).place) = fun k => (d.dom k).place := by
    funext k
    by_cases hk : k = n
    · rw [hk, Dev.dom_setDom, hf]
    · rw [Dev.dom_setDom_ne d n k f hk]
  exact congrArg (fun r : Nat → Bool × BitVec 16 => { d.lasting with place := r }) hplace

theorem Dev.alarm_lasting (b : Nat) : (d.alarm b).lasting = d.lasting :=
  d.setDom_lasting 0 _ fun m => by split <;> rfl

theorem Dev.countBy_lasting (a n : Nat) : (d.countBy a n).lasting = d.lasting := by
  unfold Dev.countBy
  dsimp only
  split
  · exact Dev.alarm_lasting _ _
  · rfl

theorem Dev.finish_lasting (e : Exec) (st : Status) (res : List Nat) : (d.finish e st res).lasting = d.lasting :=
  Dev.setDom_lasting _ _ _ fun _ => rfl

theorem Dev.rearm_lasting (b : Nat) : (d.rearm b).lasting = d.lasting := by
  unfold Dev.rearm
  dsimp only
  split <;> rfl

theorem Dev.dropWork_lasting (e : Exec) : (d.dropWork e).lasting = d.lasting := by
  unfold Dev.dropWork
  dsimp only
  split
  case h_1 =>
    split
    · rfl
    · split <;> rfl
  all_goals rfl

theorem Dev.endEarly_lasting (e : Exec) (st : Status) : (d.endEarly e st).lasting = d.lasting := by
  have hended : ((d.dropWork e).finish e st []).lasting = d.lasting := (Dev.finish_lasting _ e st []).trans (d.dropWork_lasting e)
  unfold Dev.endEarly
  dsimp only
  split
  · exact (Dev.rearm_lasting _ _).trans hended
  · exact hended

theorem Dev.endAll_lasting (p : Exec → Bool) (st : Status) : (d.endAll p st).lasting = d.lasting :=
  foldl_keeps Dev.lasting _ (fun e x => e.endEarly_lasting x st) (d.execs.filter p) d

theorem Dev.cleared_lasting : d.cleared.lasting = d.lasting := by
  have hplace : (fun k => (d.cleared.dom k).place) = fun k => (d.dom k).place :=
    funext fun k => Tbl.getD_mapAll_keeps d.doms (fun n m => m.recovered (d.draining (.domain n))) Dom.place (fun _ _ => rfl) k {}
  exact congrArg (fun r : Nat → Bool × BitVec 16 => { d.lasting with place := r }) hplace

/-! ### The recovery -/

/-- A recovery clears the device that the ended commands and the counted frames leave, of which what lasts is unchanged. -/
theorem Dev.recover_eq_cleared : ∃ e : Dev, d.recover = e.cleared ∧ e.lasting = d.lasting := by
  refine ⟨_, rfl, ?_⟩
  split
  · exact d.endAll_lasting _ _
  · exact (Dev.countBy_lasting _ _ _).trans (d.endAll_lasting _ _)

end

end Machine
end Sys2Proof
end

section
/-!
SUPPORT. Memory faults by their class, the readings of a second and the thermal trip (16 R396 to R398, Table 16-6; 09 R236).
-/
namespace Sys2Proof.Machine

/-! ### The events out of reset -/

section
variable (s : State) (h : s.dev.sys.inReset = false)
include h

theorem exec_ledgerTick (readings : List Int) :
    exec (.ledgerTick readings) s = .next { s with dev := (ledgerTick readings s.dev).settle } := live_running _ s h

theorem exec_correctedMemoryError : exec .correctedMemoryError s = .next { s with dev := (correctedError s.dev).settle } :=
  live_running _ s h

theorem exec_containedFault (detail : Byte) (index : Nat) :
    exec (.containedFault detail index) s = .next { s with dev := (containedFault detail index s.dev).settle } := live_running _ s h

theorem exec_recoverableFault (detail : Byte) (index : Nat) :
    exec (.recoverableFault detail index) s = .next { s with dev := (recoverableFault detail index s.dev).settle } := live_running _ s h

theorem exec_deepBufferReadLate (stack : Nat) :
    exec (.deepBufferReadLate stack) s = .next { s with dev := (deepReadLate stack s.dev).settle } := live_running _ s h

theorem exec_fatalFault (thermal : Bool) :
    exec (.fatalFault thermal) s = .next { s with dev := (fatalFault thermal s.dev).settle } := live_running _ s h

end

/-! ### The readings of a second (R397, R398) -/

/-- A second's readings on the sensors, and its hottest junction in the ledger. -/
def Health.second (h : Health) (readings : List Int) (hot : Int) : Health :=
  { h with
    sensors := ((List.range 14).zip readings).foldl (fun t r => Tbl.put t r.1 r.2) h.sensors
    highs := ((List.range 14).zip readings).foldl (fun t r => Tbl.put t r.1 (max (Tbl.getD t r.1 r.2) r.2)) h.highs
    ledger := h.ledger.second hot }

theorem b2n_decide (p : Prop) [Decidable p] : b2n (decide p) = if p then 1 else 0 := by
  unfold b2n
  simp only [decide_eq_true_eq]

theorem Ledger.second_eq (l : Ledger) (hot : Int) : l.second hot =
    { l with equiv := l.equiv + accelFactor hot, powered := l.powered + 1, hot95 := l.hot95 + (if 1520 ≤ hot then 1 else 0)
             hot100 := l.hot100 + (if 1600 ≤ hot then 1 else 0), highest := max l.highest hot } := by
  simp only [Ledger.second, b2n_decide]

section
variable (d : Dev)

/-- The first trip of a device that has not stopped counts in the ledger and is fatal. -/
theorem Dev.trip_running (h : d.sys.fatal = false) :
    d.trip = Dev.fatal { d with health := { d.health with ledger := { d.health.ledger with trips := d.health.ledger.trips + 1 } } } :=
  if_neg (Bool.eq_false_iff.1 h)

section
variable (readings : List Int) (hot : Int) (hmax : (readings.take 8).max? = some hot)
include hmax

theorem ledgerTick_eq : ledgerTick readings d =
    if 1680 ≤ hot then Dev.trip { d with health := d.health.second readings hot } else { d with health := d.health.second readings hot } := by
  simp only [ledgerTick, hmax]
  rfl

theorem ledgerTick_cool (hcool : hot < 1680) : ledgerTick readings d = { d with health := d.health.second readings hot } := by
  rw [ledgerTick_eq d readings hot hmax, if_neg (Int.not_le.2 hcool)]

theorem ledgerTick_trips (htrip : 1680 ≤ hot) : ledgerTick readings d = Dev.trip { d with health := d.health.second readings hot } := by
  rw [ledgerTick_eq d readings hot hmax, if_pos htrip]

end

/-! ### Faults by class (Table 16-6) -/

/-- Appending to the fault log keeps its last 64 records. -/
theorem Dev.logFault_eq (cls : Nat) (detail : Byte) (index : Nat) : d.logFault cls detail index =
    { d with health := { d.health with
        log := (d.health.log ++ [(⟨index % 2 ^ 32, cls, detail, d.now⟩ : FaultRec)]).drop (d.health.log.length + 1 - 64)
        logged := d.health.logged + 1 } } := by
  simp only [Dev.logFault, List.length_append, List.length_singleton]

variable (detail : Byte) (index : Nat)

theorem containedFault_some (u : Dev) (h : d.contained? detail index = some u) :
    containedFault detail index d = ((u.logFault 2 detail index).count (ctrDev 42)).alarm alContained := by
  simp only [containedFault, h]

theorem containedFault_none (h : d.contained? detail index = none) : containedFault detail index d = d := by
  simp only [containedFault, h]

section
variable (hrun : d.sys.fatal = false) (hlo : 0x30 ≤ detail.toNat) (hhi : detail.toNat ≤ 0x35)
include hrun hlo hhi

/-- A class 3 fault of a device that has not stopped: the last recovery decides. -/
theorem recoverableFault_running :
    recoverableFault detail index d = if d.soonAgain then d.fatal else (d.logFault 3 detail index).recover := by
  have hclass : ¬(d.sys.fatal = true ∨ (!within detail.toNat 0x30 0x35) = true) := by
    simp [hrun, within, hlo, hhi]
  exact if_neg hclass

theorem recoverableFault_soon (hsoon : d.soonAgain = true) : recoverableFault detail index d = d.fatal := by
  rw [recoverableFault_running d detail index hrun hlo hhi, if_pos hsoon]

theorem recoverableFault_recovers (hsoon : d.soonAgain = false) :
    recoverableFault detail index d = (d.logFault 3 detail index).recover := by
  rw [recoverableFault_running d detail index hrun hlo hhi, if_neg (Bool.eq_false_iff.1 hsoon)]

end

theorem deepReadLate_reading (stack : Nat) (h : d.reading = true) :
    deepReadLate stack d = recoverableFault 0x34#8 (stack % 2 * 2 ^ 31) d := if_pos h

theorem deepReadLate_quiet (stack : Nat) (h : d.reading = false) : deepReadLate stack d = d := if_neg (Bool.eq_false_iff.1 h)

theorem fatalFault_soon (hsoon : d.soonAgain = true) : fatalFault false d = d.fatal := if_pos hsoon

end

/-! ### The classes together (O45) -/

/-- Settles O45: each event is its effect out of reset, and what outlives a recovery is what no step of it touches. -/
theorem faultsAreHandledByClass : Obligations.FaultsAreHandledByClass := by
  unfold Obligations.FaultsAreHandledByClass
  intro s readings hot detail index stack thermal d h l shown n counted tripped soon logged hr
  have hshown : shown = h.second readings hot := by
    rw [Health.second, Ledger.second_eq]
  have htripped : ∀ e : Dev, e.sys.fatal = false → e.trip = tripped e := fun e he => e.trip_running he
  have hlogged : ∀ (e : Dev) (cls : Nat), e.logFault cls detail index = logged e cls := fun e cls => e.logFault_eq cls detail index
  refine ⟨fun hmax hcool => ?cool, fun hmax htrip hrun => ?trips, exec_correctedMemoryError s hr, fun u hu => ?contained,
    ⟨rfl, rfl, rfl, rfl, rfl⟩, fun hu => ?unknown, fun hrun hlo hhi hsoon => ?again, fun hrun hlo hhi hsoon => ?recovered,
    fun hread => ⟨_, exec_deepBufferReadLate s hr stack, ?late⟩, fun hread => ?quiet, fun ht hrun => ?trip, fun ht hsoon => ?fatal⟩
  case cool => rw [exec_ledgerTick s hr, ledgerTick_cool d readings hot hmax hcool, hshown]
  case trips =>
    rw [exec_ledgerTick s hr, ledgerTick_trips d readings hot hmax htrip, hshown]
    rw [htripped { d with health := h.second readings hot } hrun]
  case contained =>
    rw [exec_containedFault s hr, containedFault_some d detail index u hu, hlogged]
    rfl
  case unknown => rw [exec_containedFault s hr, containedFault_none d detail index hu]
  case again =>
    rw [exec_recoverableFault s hr, recoverableFault_soon d detail index hrun hlo hhi hsoon]
    rfl
  case recovered =>
    obtain ⟨e, hcleared, hsame⟩ := (d.logFault 3 detail index).recover_eq_cleared
    have hkept : e.cleared.lasting = (logged d 3).lasting := by
      rw [Dev.cleared_lasting, hsame, hlogged]
    have hinstant : e.time.c = d.time.c := congrArg Lasting.c hsame
    have hplace : ∀ k, (e.cleared.dom k).place = (d.dom k).place := fun k => congrArg (fun x : Lasting => x.place k) hkept
    refine ⟨_, exec_recoverableFault s hr detail index, ?_⟩
    rw [recoverableFault_recovers d detail index hrun hlo hhi hsoon, hcleared]
    exact ⟨rfl, rfl, congrArg some hinstant, congrArg Lasting.log hkept, congrArg Lasting.chain hkept, congrArg Lasting.ledger hkept,
      rfl, rfl, rfl, rfl, congrArg Lasting.highest hkept, congrArg Lasting.rate hkept, congrArg Lasting.c hkept,
      fun k => ⟨(congrArg Prod.fst (hplace k)).symm, congrArg Prod.snd (hplace k)⟩⟩
  case late => rw [exec_recoverableFault s hr, deepReadLate_reading d stack hread]
  case quiet => rw [exec_deepBufferReadLate s hr, deepReadLate_quiet d stack hread]
  case trip =>
    subst ht
    rw [exec_fatalFault s hr, show fatalFault true d = d.trip from rfl, htripped d hrun]
  case fatal =>
    subst ht
    rw [exec_fatalFault s hr, fatalFault_soon d hsoon]
    rfl

end Sys2Proof.Machine
end

section
/-!
SUPPORT. Flow contexts, shapers, meters and sampling windows (10 R243, R244, R247, R249, R258, R267): the run of each command in each
case, and what a discard leaves of the flow contexts.
-/
namespace Sys2Proof

theorem Tbl.find_del {α : Type} (t : Tbl α) (i : Nat) : (t.del i).find? i = none := by
  induction t with
  | nil => rfl
  | cons e t ih =>
    by_cases h : e.1 = i
    · have hskip : Tbl.del (e :: t) i = Tbl.del t i := by simp [Tbl.del, h]
      rw [hskip, ih]
    · have hkeep : Tbl.del (e :: t) i = e :: Tbl.del t i := by simp [Tbl.del, h]
      rw [hkeep, Tbl.find?, if_neg (Ne.symm h), ih]

theorem Tbl.find_del_ne {α : Type} (t : Tbl α) (i j : Nat) (h : j ≠ i) : (t.del i).find? j = t.find? j := by
  induction t with
  | nil => rfl
  | cons e t ih =>
    by_cases hi : e.1 = i
    · have hskip : Tbl.del (e :: t) i = Tbl.del t i := by simp [Tbl.del, hi]
      have hother : ¬j = e.1 := fun hj => h (hj.trans hi)
      rw [hskip, ih, Tbl.find?, if_neg hother]
    · have hkeep : Tbl.del (e :: t) i = e :: Tbl.del t i := by simp [Tbl.del, hi]
      rw [hkeep, Tbl.find?, Tbl.find?, ih]

namespace Machine

/-! ### What a discard leaves of the flow contexts (R244) -/

section
variable (d : Dev)

@[simp] theorem Dev.freeSeg_flows (owner : Byte) (a : Nat) : (d.freeSeg owner a).flows = d.flows := by
  unfold Dev.freeSeg
  split
  · rfl
  · split
    · dsimp only
      split <;> rfl
    · rw [Dev.rejectFree, Dev.count, Dev.countBy_frame]
      rfl

@[simp] theorem Dev.freeFrame_flows (f : Frame) : (d.freeFrame f).flows = d.flows :=
  foldl_keeps Dev.flows _ (fun e i => e.freeSeg_flows _ i) f.segs d

@[simp] theorem Dev.freeFrames_flows (fs : List Frame) : (d.freeFrames fs).flows = d.flows :=
  foldl_keeps Dev.flows _ Dev.freeFrame_flows fs d

theorem Dev.discardFlows_flows (p : Nat → Bool) : (d.discardFlows p).1.flows =
    d.flows.mapAll fun i (f : Flow) => if p i then { f with queue := f.queue.empty } else f := by
  simp only [Dev.discardFlows, Dev.freeFrames_flows]

/-- A flow that fails the test keeps its context. -/
theorem Dev.discardFlows_flow (p : Nat → Bool) (k : Nat) (hk : p k = false) : (d.discardFlows p).1.flow? k = d.flow? k := by
  have hsame : (fun f : Flow => if p k = true then { f with queue := f.queue.empty } else f) = id := by
    funext f
    rw [hk]
    rfl
  rw [Dev.flow?, Dev.discardFlows_flows, Tbl.find_mapAll, hsame, Option.map_id, id, Dev.flow?]

/-- A final reply and the pins concern no flow context. -/
theorem Dev.replied_flow (e : Exec) (st : Status) (res : List Nat) (k : Nat) : (d.finish e st res).settle.flow? k = d.flow? k := rfl

/-- The device without a flow context, the flow's queued frames discarded. -/
def Dev.removeFlow (h : Nat) : Dev :=
  { (d.discardFlows fun i => i == h).1 with flows := (d.discardFlows fun i => i == h).1.flows.del h }

theorem Dev.removeFlow_same (h : Nat) : (d.removeFlow h).flow? h = none := Tbl.find_del _ h

theorem Dev.removeFlow_other (h k : Nat) (hk : k ≠ h) : (d.removeFlow h).flow? k = d.flow? k :=
  (Tbl.find_del_ne _ h k hk).trans (d.discardFlows_flow _ k (beq_false_of_ne hk))

theorem Dev.removeFlow_terms (h : Nat) : (d.removeFlow h).terms = d.terms := d.discardFlows_terms fun i => i == h

end

/-! ### The run of each command -/

section
variable (d : Dev) (e : Exec)

theorem cmdFlowSet_new (hw : bit (ent e.par 25 1) 1 = false) (hf : d.flow? (ent e.par 16 2) = none) : cmdFlowSet.run e d =
    Dev.finish { d with flows := d.flows.put (ent e.par 16 2) ((flowOf none e.par).fill d.objs d.now) } e .done [] := by
  simp only [cmdFlowSet, hw, hf, Bool.false_eq_true, if_false, Option.map_none, Dev.ok]

theorem cmdFlowSet_rewrites (f : Flow) (hw : bit (ent e.par 25 1) 1 = false) (hf : d.flow? (ent e.par 16 2) = some f) :
    cmdFlowSet.run e d = Dev.finish { d with
      flows := d.flows.put (ent e.par 16 2) ((flowOf (some (f.fill d.objs d.now)) e.par).fill d.objs d.now) } e .done [] := by
  simp only [cmdFlowSet, hw, hf, Bool.false_eq_true, if_false, Option.map_some, Dev.ok]

theorem cmdFlowSet_removes (hr : bit (ent e.par 25 1) 1 = true) :
    cmdFlowSet.run e d = (d.removeFlow (ent e.par 16 2)).finish e .done [] := if_pos hr

theorem cmdMeterSet_removes (h0 : ent e.par 18 1 = 0) :
    cmdMeterSet.run e d = Dev.finish { d with meters := d.meters.del (ent e.par 16 2) } e .done [] := if_pos h0

theorem cmdMeterSet_new (h0 : ent e.par 18 1 ≠ 0) (hm : d.meters.find? (ent e.par 16 2) = none) : cmdMeterSet.run e d =
    Dev.finish { d with meters := d.meters.put (ent e.par 16 2) (meterOf e.par d.now) } e .done [] := by
  simp only [cmdMeterSet, if_neg h0, hm, Dev.ok]

theorem cmdMeterSet_rewrites (old : Meter) (h0 : ent e.par 18 1 ≠ 0) (hm : d.meters.find? (ent e.par 16 2) = some old) :
    cmdMeterSet.run e d =
    Dev.finish { d with meters := d.meters.put (ent e.par 16 2) ((meterOf e.par d.now).keep old) } e .done [] := by
  simp only [cmdMeterSet, if_neg h0, hm, Dev.ok]

end

/-- Settles O25: each command's run is the change of its table that the statement writes out, and the reply; a rewrite keeps what a write
does not name, and a removal takes one entry of the flow contexts. -/
theorem flowCommandsAct : Obligations.FlowCommandsAct := by
  unfold Obligations.FlowCommandsAct
  intro p s f d b h x full m
  refine ⟨fun ha hw hf => ?writes, fun ha hw hf => ?rewrites, fun ha hr => ?removes, fun ha => exec_accepted _ cmdFlowDisable p s rfl ha,
    fun ha => ?enables, fun ha => ?shapes, fun ha h0 => ?unmeters, fun ha h0 hm => ?meters, fun old ha h0 hm => ?remeters,
    fun ha => ?samples⟩
  case writes =>
    exact exec_answers _ cmdFlowSet p s rfl ha { d with flows := d.flows.put h (x.fill d.objs d.now) } .done [] rfl
      (cmdFlowSet_new (d.fetch p) (cmdFlowSet.entry d p) hw hf)
  case rewrites =>
    have hrun := exec_answers (.flowSet p) cmdFlowSet p s rfl ha
      { d with flows := d.flows.put h ((flowOf (some (f.fill d.objs d.now)) b).fill d.objs d.now) } .done [] rfl
      (cmdFlowSet_rewrites (d.fetch p) (cmdFlowSet.entry d p) f hw hf)
    exact ⟨_, _, hrun, Tbl.find_put _ _ _, rfl, rfl, rfl, rfl, rfl, rfl, rfl, rfl, fun k hk => Tbl.find_put_ne _ _ _ _ hk⟩
  case removes =>
    have hrun := exec_accepted (.flowSet p) cmdFlowSet p s rfl ha
    rw [cmdFlowSet_removes (d.fetch p) (cmdFlowSet.entry d p) hr] at hrun
    have hshown := ((d.fetch p).removeFlow h).replied_flow (cmdFlowSet.entry d p) .done []
    exact ⟨_, hrun, (hshown h).trans ((d.fetch p).removeFlow_same h), (d.fetch p).removeFlow_terms h,
      fun k hk => (hshown k).trans ((d.fetch p).removeFlow_other h k hk)⟩
  case enables => exact exec_answers _ cmdFlowEnable p s rfl ha (d.setFlow h _) .done [] rfl rfl
  case shapes => exact exec_answers _ cmdTerminalShapeSet p s rfl ha (d.setTerm h _) .done [] rfl rfl
  case unmeters =>
    exact exec_answers _ cmdMeterSet p s rfl ha { d with meters := d.meters.del h } .done [] rfl
      (cmdMeterSet_removes (d.fetch p) (cmdMeterSet.entry d p) h0)
  case meters =>
    exact exec_answers _ cmdMeterSet p s rfl ha { d with meters := d.meters.put h m } .done [] rfl
      (cmdMeterSet_new (d.fetch p) (cmdMeterSet.entry d p) h0 hm)
  case remeters =>
    exact exec_answers _ cmdMeterSet p s rfl ha { d with meters := d.meters.put h (m.keep old) } .done [] rfl
      (cmdMeterSet_rewrites (d.fetch p) (cmdMeterSet.entry d p) old h0 hm)
  case samples =>
    exact exec_answers _ cmdSampleSet p s rfl ha { d with windowNext := orZero (ent b 16 4) 1000 } .done [] rfl rfl

end Machine
end Sys2Proof
end

section
/-!
SUPPORT. Gate lists, sampling windows and link-down holds (10 R262, R264, R265, R267, R268): the list that a gate's status shows, the queue
that a sample reads, and the events that end a wait, a window and a hold.
-/
namespace Sys2Proof.Machine

/-! ### The events out of reset -/

section
variable (s : State) (h : s.dev.sys.inReset = false)
include h

theorem exec_gateListStart (kind target : Nat) :
    exec (.gateListStart kind target) s = .next { s with dev := (gateListStart kind target s.dev).settle } := live_running _ s h

theorem exec_sampleWindowEnd : exec .sampleWindowEnd s = .next { s with dev := (sampleWindowEnd s.dev).settle } := live_running _ s h

theorem exec_linkDownHoldExpiry (kind target : Nat) :
    exec (.linkDownHoldExpiry kind target) s = .next { s with dev := (linkDownHoldExpiry kind target s.dev).settle } := live_running _ s h

end

/-! ### The list that governs a gate (R262) -/

/-- The list that still waits for its start at a time. -/
def Gate.pending (q : Gate) (now : Nat) : Option GateList := q.waiting.filter fun w => decide (now < w.start)

section
variable (q : Gate) (now : Nat)

theorem Gate.pending_early (w : GateList) (hw : q.waiting = some w) (ht : now < w.start) : q.pending now = some w := by
  rw [Gate.pending, hw, Option.filter_some, if_pos (decide_eq_true ht)]

theorem Gate.pending_started (w : GateList) (hw : q.waiting = some w) (ht : w.start ≤ now) : q.pending now = none := by
  have hpast : ¬decide (now < w.start) = true := by simpa using ht
  rw [Gate.pending, hw, Option.filter_some, if_neg hpast]

theorem Gate.pending_none (hw : q.waiting = none) : q.pending now = none := by rw [Gate.pending, hw, Option.filter_none]

theorem Gate.current_started (w : GateList) (hw : q.waiting = some w) (ht : w.start ≤ now) : q.current now = some w := by
  simp only [Gate.current, hw, if_pos ht]

theorem Gate.current_alone (hw : q.waiting = none) : q.current now = q.inForce := by simp only [Gate.current, hw]

end

/-! ### GATE_STATUS (R264) -/

section
variable (d : Dev) (e : Exec) (q : Gate) (hq : d.gate (ent e.par 16 1) (ent e.par 18 2) = q)
include hq

theorem cmdGateStatus_pending (w : GateList) (hw : q.pending d.now = some w) :
    cmdGateStatus.run e d = d.finish e .done [2, w.start / 2 ^ 32, w.start % 2 ^ 32, 0xFFFFFFFF] := by
  rw [Gate.pending] at hw
  simp only [cmdGateStatus, hq, hw]

variable (hw : q.pending d.now = none)
include hw

theorem cmdGateStatus_governed (l : GateList) (hl : q.current d.now = some l) :
    cmdGateStatus.run e d = d.finish e .done [1, l.start / 2 ^ 32, l.start % 2 ^ 32, l.entryAt d.now] := by
  rw [Gate.pending] at hw
  simp only [cmdGateStatus, hq, hw, hl]

theorem cmdGateStatus_none (hl : q.current d.now = none) :
    cmdGateStatus.run e d = d.finish e .done [0, 0, 0, 0xFFFFFFFF] := by
  rw [Gate.pending] at hw
  simp only [cmdGateStatus, hq, hw, hl]

end

/-! ### QUEUE_SAMPLE_READ (R268) -/

section
variable (d : Dev) (e : Exec)

/-- The reply of a sample: depth, the last window's two extremes, and its end, each in one word. -/
def Dev.sampled (d : Dev) (e : Exec) (depth last sojourn : Nat) : Dev :=
  d.finish e .done [sat 32 depth, sat 32 last, sat 32 sojourn, d.windowEnd % 2 ^ 32]

theorem cmdQueueSampleRead_flow (f : Flow) (hk : ent e.par 16 1 = 0) (hf : d.flow? (ent e.par 18 2) = some f) :
    cmdQueueSampleRead.run e d = d.sampled e f.queue.depth f.queue.lastDepth f.queue.lastSojourn := by
  simp only [cmdQueueSampleRead, hk, hf, Dev.sampled]

theorem cmdQueueSampleRead_port (hk : ent e.par 16 1 = 1) : cmdQueueSampleRead.run e d =
    let u := (d.port (ent e.par 18 2)).queue (ent e.par 17 1)
    d.sampled e u.depth u.lastDepth u.lastSojourn := by
  simp only [cmdQueueSampleRead, hk, Dev.sampled]

theorem cmdQueueSampleRead_chan (hk : ent e.par 16 1 = 2) : cmdQueueSampleRead.run e d =
    let c := d.chan (ent e.par 18 2)
    d.sampled e (bytesOf c.lantern) c.lastDepth c.lastSojourn := by
  simp only [cmdQueueSampleRead, hk, Dev.sampled]

end

/-! ### Starts and ends (R262, R265, R267) -/

section
variable (d : Dev)

theorem gateListStart_waiting (kind target : Nat) (w : GateList) (hw : (d.gate kind target).waiting = some w) : gateListStart kind target d =
    { d.goTime w.start with gates := d.gates.put (kind * 1024 + target) { inForce := some w } } := by
  simp only [gateListStart, hw]

theorem gateListStart_none (kind target : Nat) (hw : (d.gate kind target).waiting = none) : gateListStart kind target d = d := by
  simp only [gateListStart, hw]

theorem roundDown_mod (a m : Nat) : roundDown a m % m = 0 := Nat.mul_mod_left _ _

/-- A window ends on a multiple of its length. -/
theorem sampleWindowEnd_windowEnd : (sampleWindowEnd d).windowEnd % (d.window * 1000000) = 0 := by
  have hpassed := roundDown_mod d.now (d.window * 1000000)
  unfold sampleWindowEnd
  dsimp only
  split
  · exact hpassed
  · rw [Nat.add_mod_right, hpassed]

theorem sampleWindowEnd_flow (h : Nat) (f : Flow) (hf : d.flow? h = some f) :
    (sampleWindowEnd d).flow? h = some { f with queue := f.queue.endWindow } := by
  rw [Dev.flow?] at hf
  simp only [sampleWindowEnd, Dev.flow?, Dev.goTime, Dev.goCounter_flows, Tbl.find_mapAll, hf, Option.map_some]

theorem linkDownHoldExpiry_chan (target due : Nat) (h : (d.chan target).hold = some due) :
    linkDownHoldExpiry 0 target d = (d.goCounter due).flushChan target := by
  simp only [linkDownHoldExpiry, if_true, h]

theorem linkDownHoldExpiry_port (target due : Nat) (h : (d.port target).hold = some due) :
    linkDownHoldExpiry 1 target d = (d.goCounter due).flushPort target := by
  simp only [linkDownHoldExpiry, Nat.one_ne_zero, if_false, h]

end

/-- Settles O26: a gate's status follows the list that waits or the one that governs, a sample the queue that it names, and each event is
its effect out of reset. -/
theorem trafficReadsAndEvents : Obligations.TrafficReadsAndEvents := by
  unfold Obligations.TrafficReadsAndEvents
  refine ⟨fun p s => ?reads, fun s kind target w => ?events⟩
  case reads =>
    intro d b i q word sample
    refine ⟨fun w ha hw ht => ?waits, fun w ha hw ht => ?started, fun l ha hw hl => ?governed, fun ha hw hl => ?ungated,
      fun f ha hk hf => ?flow, fun ha hk => ?port, fun ha hk => ?lantern⟩
    case waits =>
      exact exec_reads _ cmdGateStatus p s rfl ha .done _
        (cmdGateStatus_pending (d.fetch p) (cmdGateStatus.entry d p) q rfl w (q.pending_early d.now w hw ht))
    case started =>
      exact exec_reads _ cmdGateStatus p s rfl ha .done _
        (cmdGateStatus_governed (d.fetch p) (cmdGateStatus.entry d p) q rfl (q.pending_started d.now w hw ht) w
          (q.current_started d.now w hw ht))
    case governed =>
      exact exec_reads _ cmdGateStatus p s rfl ha .done _
        (cmdGateStatus_governed (d.fetch p) (cmdGateStatus.entry d p) q rfl (q.pending_none d.now hw) l ((q.current_alone d.now hw).trans hl))
    case ungated =>
      exact exec_reads _ cmdGateStatus p s rfl ha .done _
        (cmdGateStatus_none (d.fetch p) (cmdGateStatus.entry d p) q rfl (q.pending_none d.now hw) ((q.current_alone d.now hw).trans hl))
    case flow =>
      exact exec_reads _ cmdQueueSampleRead p s rfl ha .done _
        (cmdQueueSampleRead_flow (d.fetch p) (cmdQueueSampleRead.entry d p) f hk hf)
    case port =>
      exact exec_reads _ cmdQueueSampleRead p s rfl ha .done _ (cmdQueueSampleRead_port (d.fetch p) (cmdQueueSampleRead.entry d p) hk)
    case lantern =>
      exact exec_reads _ cmdQueueSampleRead p s rfl ha .done _ (cmdQueueSampleRead_chan (d.fetch p) (cmdQueueSampleRead.entry d p) hk)
  case events =>
    intro d hr
    rw [exec_gateListStart s hr, exec_linkDownHoldExpiry s hr, exec_linkDownHoldExpiry s hr]
    refine ⟨fun hw => ?starts, fun hw => ?idle, ⟨_, exec_sampleWindowEnd s hr, rfl, sampleWindowEnd_windowEnd d, sampleWindowEnd_flow d,
      rfl, rfl, rfl, rfl⟩, fun due hdue => ?chan, fun due hdue => ?port⟩
    case starts => rw [gateListStart_waiting d kind target w hw]
    case idle => rw [gateListStart_none d kind target hw]
    case chan => rw [linkDownHoldExpiry_chan d target due hdue]
    case port => rw [linkDownHoldExpiry_port d target due hdue]

end Sys2Proof.Machine
end

section
/-!
SUPPORT. The replay check of sealed frames upstream (11 R279): which INVs are not fresh, and the INVs that an accepted frame leaves seen.
-/
namespace Sys2Proof.Machine

/-- A slot's highest INV stands among the INVs seen. -/
def KeySlot.KeepsTop (k : KeySlot) : Prop := ∀ top, k.invUp = some top → k.seen.contains top = true

theorem KeySlot.keepsTop_empty : ({} : KeySlot).KeepsTop := fun _ h => nomatch h

section
variable (k : KeySlot) (inv top : Nat)

theorem KeySlot.fresh_first (h : k.invUp = none) : k.fresh inv = true := by simp only [KeySlot.fresh, h]

/-- An INV is not fresh when it is the highest, more than 64 below the highest, or seen. -/
theorem KeySlot.fresh_eq_false_iff (h : k.invUp = some top) :
    k.fresh inv = false ↔ inv ≤ top ∧ (inv + 64 < top ∨ inv = top ∨ k.seen.contains inv = true) := by
  simp only [KeySlot.fresh, h, Bool.or_eq_false_iff, Bool.and_eq_false_iff, decide_eq_false_iff_not, Bool.not_eq_false']
  cases k.seen.contains inv with
  | true => simp only [or_true, and_true, Nat.not_lt]
  | false =>
    simp only [Bool.false_eq_true, or_false]
    omega

theorem KeySlot.fresh_above (h : k.invUp = some top) (hi : top < inv) : k.fresh inv = true := by
  simp only [KeySlot.fresh, h, hi, decide_true, Bool.true_or]

end

section
variable (k : KeySlot) (inv frame : Nat)

theorem KeySlot.accept_invUp : (k.accept inv frame).invUp = some (max inv (k.invUp.getD 0)) := rfl

/-- The INVs seen after an accepted frame are its own and those before, without those more than 64 below the highest. -/
theorem KeySlot.accept_seen (i : Nat) : (k.accept inv frame).seen.contains i = true ↔
    (i = inv ∨ k.seen.contains i = true) ∧ max inv (k.invUp.getD 0) ≤ i + 64 := by
  simp only [KeySlot.accept, List.contains_iff_mem, List.mem_filter, List.mem_cons, decide_eq_true_iff]

/-- The new highest INV is the accepted one or the highest before, and neither is too old to be kept. -/
theorem KeySlot.keepsTop_accept (hk : k.KeepsTop) : (k.accept inv frame).KeepsTop := by
  intro top htop
  rw [k.accept_invUp, Option.some_inj] at htop
  rw [k.accept_seen]
  refine ⟨?_, by omega⟩
  cases hold : k.invUp with
  | none =>
    rw [hold, Option.getD_none] at htop
    omega
  | some old =>
    rw [hold, Option.getD_some] at htop
    obtain h | h : top = inv ∨ top = old := by omega
    · exact .inl h
    · exact .inr (h ▸ hk old hold)

/-- An accepted INV is seen, unless it is more than 64 below the highest. -/
theorem KeySlot.accept_not_fresh : (k.accept inv frame).fresh inv = false := by
  rw [KeySlot.fresh_eq_false_iff _ _ _ (k.accept_invUp inv frame), k.accept_seen]
  omega

/-- The highest INV never falls, and an INV that was seen stays so until it is more than 64 below the highest. -/
theorem KeySlot.accept_keeps_not_fresh (old : Nat) (hk : k.KeepsTop) (hf : k.fresh old = false) :
    (k.accept inv frame).fresh old = false := by
  cases htop : k.invUp with
  | none => rw [k.fresh_first old htop] at hf; cases hf
  | some top =>
    obtain ⟨hle, hcase⟩ := (k.fresh_eq_false_iff old top htop).1 hf
    have hseen : old + 64 < top ∨ k.seen.contains old = true := by
      obtain h | h | h := hcase
      · exact .inl h
      · exact .inr (h ▸ hk top htop)
      · exact .inr h
    rw [KeySlot.fresh_eq_false_iff _ _ _ (k.accept_invUp inv frame), k.accept_seen, htop, Option.getD_some]
    refine ⟨by omega, ?_⟩
    obtain h | h := hseen
    · exact .inl (by omega)
    · by_cases hnear : max inv top ≤ old + 64
      · exact .inr (.inr ⟨.inr h, hnear⟩)
      · exact .inl (by omega)

end

/-- Settles O30: what makes an INV stale is either its age or its place among the INVs seen, and both outlast every accepted frame. -/
theorem sealedFramesAreNotReplayed : Obligations.SealedFramesAreNotReplayed := by
  unfold Obligations.SealedFramesAreNotReplayed
  intro k inv old frame top good
  exact ⟨KeySlot.keepsTop_empty, k.keepsTop_accept inv frame, k.accept_not_fresh inv frame,
    k.accept_keeps_not_fresh inv frame old, k.fresh_above inv top,
    fun ht hi => (k.fresh_eq_false_iff inv top ht).2 ⟨by omega, .inl hi⟩⟩

end Sys2Proof.Machine
end

section
/-!
SUPPORT. Commands on key slots (11 R271, R276, R277, R284): the slot that a key write makes, and the record that a read shows.
-/
namespace Sys2Proof.Machine

/-! ### KEY_WRITE (11 Table 11-3) -/

/-- The GCM part that a key write makes anew, in a slot without a CTR part. -/
def KeySlot.gcmWritten (b : Bytes) : KeySlot := { gcm := bit (field b 4 1) 1, gcmKey := slice b 32 32, salt := field b 8 4 }

/-- The slot with both parts made anew. -/
def KeySlot.written (b : Bytes) : KeySlot := { KeySlot.gcmWritten b with ctr := bit (field b 4 1) 0, ctrKey := slice b 16 16 }

/-- The slot with its CTR part and that part's counts left as they are. -/
def KeySlot.rewritten (k : KeySlot) (b : Bytes) : KeySlot :=
  { KeySlot.gcmWritten b with
    ctr := k.ctr, ctrKey := k.ctrKey, exchanged := k.exchanged, ctrCount := k.ctrCount
    lastUp := k.lastUp, countedDn := k.countedDn, countedUp := k.countedUp }

section
variable (d : Dev) (e : Exec)

theorem cmdKeyWrite_anew (h : bit (field e.par 4 1) 4 = false) :
    cmdKeyWrite.run e d = (d.setKey (field e.par 0 4) fun _ => .written e.par).finish e .done [] := by
  simp only [cmdKeyWrite, h, Bool.false_eq_true, if_false, Dev.ok, KeySlot.written, KeySlot.gcmWritten]

theorem cmdKeyWrite_keeps (h : bit (field e.par 4 1) 4 = true) :
    cmdKeyWrite.run e d = (d.setKey (field e.par 0 4) fun k => k.rewritten e.par).finish e .done [] := by
  simp only [cmdKeyWrite, h, if_true, Dev.ok, KeySlot.rewritten, KeySlot.gcmWritten]

end

/-! ### KEY_READ (11 R271) -/

/-- The bytes between a head and a tail are the slice at the head's length. -/
theorem slice_middle (head mid tail : Bytes) (off len : Nat) (ho : head.length = off) (hl : mid.length = len) :
    slice (head ++ mid ++ tail) off len = mid := by
  subst ho hl
  simp only [slice, List.append_assoc, List.drop_left, List.take_left, Nat.sub_self, List.replicate_zero, List.append_nil]

/-- Bytes 16 to 31 of a slot's record are 0 in place of a key that an exchange has brought. -/
theorem KeySlot.bytes_exchanged (k : KeySlot) (i : Nat) (h : k.exchanged = true) :
    slice (k.bytes i) 16 16 = List.replicate 16 0#8 := by
  have hkey : slice (if k.exchanged then [] else k.ctrKey) 0 16 = List.replicate 16 0#8 := by rw [if_pos h]; rfl
  rw [KeySlot.bytes, hkey]
  exact slice_middle _ _ _ 16 16 (by simp only [List.length_append, length_beBytes, List.length_cons, List.length_nil]) List.length_replicate

/-- Settles O28: each command's run is the change of its slot, flow or terminal, or the words or the record that it reads, and the reply. -/
theorem keyCommandsAct : Obligations.KeyCommandsAct := by
  unfold Obligations.KeyCommandsAct
  refine ⟨fun p s => ?sets, fun p s => ?reads⟩
  case sets =>
    intro d b flags gcm
    refine ⟨fun ha hkeep => ?writes, fun ha hkeep => ?rewrites, fun ha => ?erases, fun ha => ?binds, fun ha => ?session⟩
    case writes =>
      exact exec_answers _ cmdKeyWrite p s rfl ha (d.setKey (field b 0 4) fun _ => .written b) .done [] rfl
        (cmdKeyWrite_anew (d.fetch p) (cmdKeyWrite.entry d p) hkeep)
    case rewrites =>
      exact exec_answers _ cmdKeyWrite p s rfl ha (d.setKey (field b 0 4) fun k => k.rewritten b) .done [] rfl
        (cmdKeyWrite_keeps (d.fetch p) (cmdKeyWrite.entry d p) hkeep)
    case erases => exact exec_answers _ cmdKeyErase p s rfl ha { d with keys := d.keys.del (ent b 16 4) } .done [] rfl rfl
    case binds => exact exec_answers _ cmdKeyBindSet p s rfl ha (d.setFlow (ent b 16 2) _) .done [] rfl rfl
    case session => exact exec_answers _ cmdSessionKeySet p s rfl ha (d.setTerm (ent b 16 2) _) .done [] rfl rfl
  case reads =>
    intro d b i k recent
    refine ⟨fun ha => ?status, fun ha => ?record, fun hx => k.bytes_exchanged i hx⟩
    case status => exact exec_reads _ cmdKeyStatus p s rfl ha .done _ rfl
    case record => exact exec_answers _ cmdKeyRead p s rfl ha (d.hostWrite (ent b 20 8) (k.bytes i)) .done [] rfl rfl

end Sys2Proof.Machine
end

section
/-!
SUPPORT. The checks of a packet that names no object, no version and no beacon (02 R45): they are its form and its command's own rules.
-/
namespace Sys2Proof.Machine

section
variable (c : CmdDef) (d : Dev) (e : Exec)

/-- An entry in its form, read from memory where it is indirect, for which no version, beacon or named object counts. -/
structure CmdDef.Simple : Prop where
  entry : entryForm e.pkt c.buffer (c.inlineOk e.par) = true
  read : Packet.indirect e.pkt = true → e.pkt.buf ≠ none
  tver : e.pkt.tver = 0#32
  beacon : Packet.atBeacon e.pkt = false
  kind : c.kind d e.pkt e.par = .immediate
  names : c.names d e.par = []
  guarded : c.guarded = false

/-- Domain 0 may send any command in boot state 3, and the boot commands in every state (02 R45, 17 R401). -/
theorem CmdDef.privilege_ring0 (hring : e.dom = 0) (hdom : e.pkt.domain = 0#8) (hboot : d.sys.boot = 3 ∨ c.boot = true) :
    c.privilege d e = none := by
  have hbooted : ¬d.sys.boot = 3 → c.boot = true := hboot.resolve_left
  simpa [CmdDef.privilege, hdom, hring] using hbooted

end

section
variable {c : CmdDef} {d : Dev} {e : Exec} (h : c.Simple d e)
include h

theorem CmdDef.Simple.invalid_malformed (hform : c.form e.par = false) : c.invalid d e = some [] := by
  obtain ⟨hentry, hread, htver, _, hkind, _, _⟩ := h
  simpa [CmdDef.invalid, hentry, htver, hkind, hform] using hread

theorem CmdDef.Simple.invalid_formed (hform : c.form e.par = true) : c.invalid d e = c.bad d e := by
  obtain ⟨hentry, hread, htver, hbeacon, hkind, _, _⟩ := h
  have hbuf : ¬(Packet.indirect e.pkt = true ∧ e.pkt.buf.isNone = true) := fun hi => hread hi.1 (Option.isNone_iff_eq_none.1 hi.2)
  simp only [CmdDef.invalid, hentry, if_neg hbuf, htver, hbeacon, hkind, hform]
  cases c.bad d e <;> simp

theorem CmdDef.Simple.forbidden_eq : c.forbidden d e = c.forbid d e := by
  obtain ⟨_, _, _, hbeacon, hkind, hnames, hguarded⟩ := h
  simp only [CmdDef.forbidden, CmdDef.drainsOf, CmdDef.versionForbids, CmdDef.stateForbids, hbeacon, hkind, hnames, hguarded]
  cases c.forbid d e <;> simp

variable (hp : c.privilege d e = none)
include hp

theorem CmdDef.Simple.refuse_malformed (hform : c.form e.par = false) : c.refuse d e = some (.badParam, []) := by
  simp only [CmdDef.refuse, hp, h.invalid_malformed hform]

theorem CmdDef.Simple.refuse_bad (r : List Nat) (hform : c.form e.par = true) (hbad : c.bad d e = some r) :
    c.refuse d e = some (.badParam, r) := by
  simp only [CmdDef.refuse, hp, h.invalid_formed hform, hbad]

/-- A simple packet in its form is refused by its command's own rules of step 6 alone. -/
theorem CmdDef.Simple.refuse_formed (hform : c.form e.par = true) (hbad : c.bad d e = none) : c.refuse d e = c.forbid d e := by
  simp only [CmdDef.refuse, hp, h.invalid_formed hform, hbad, h.forbidden_eq]

end

end Sys2Proof.Machine
end

section
/-!
SUPPORT. The time base (12 R285, R286, R292, R304): its reading as one multiple of its slope, the edge at which it reaches an instant, and
a change of RATE.
-/
namespace Sys2Proof.Machine

/-! ### The reading -/

section
variable (t : Time)

/-- What the time base gains in one edge, in units of 2^-44 ns. -/
def Time.slope : Int := 2 ^ 44 + t.rate

theorem Time.raw_eq (c : Nat) : t.raw c = t.t0 + ((c : Int) - t.c0) * t.slope / 4096 := by
  have hsplit : ((c : Int) - t.c0) * t.slope = ((c : Int) - t.c0) * t.rate + ((c : Int) - t.c0) * 4294967296 * 4096 := by
    have hunits : t.slope = t.rate + 4294967296 * 4096 := Int.add_comm _ _
    rw [hunits, Int.mul_add, Int.mul_assoc]
  rw [Time.raw, hsplit, Int.add_mul_ediv_right _ _ (by decide), Int.add_assoc, Int.add_comm (((c : Int) - t.c0) * t.rate / 4096)]

/-- The time base reaches a value once the edges since its origin give what is missing. -/
theorem Time.le_raw_iff (v : Int) (c : Nat) : v ≤ t.raw c ↔ (v - t.t0) * 4096 ≤ ((c : Int) - t.c0) * t.slope := by
  rw [Time.raw_eq, ← Int.le_ediv_iff_mul_le (by decide)]
  omega

/-- A change of RATE leaves the reading of its own edge as it is (R286). -/
theorem Time.raw_setRate (rate : Int) : (t.setRate rate).raw t.c = t.raw t.c := by
  have horigin : (t.setRate rate).raw t.c = t.raw t.c + ((t.c : Int) - t.c) * 4294967296 + ((t.c : Int) - t.c) * rate / 4096 := rfl
  rw [horigin, Int.sub_self, Int.zero_mul, Int.zero_mul, Int.zero_ediv, Int.add_zero, Int.add_zero]

/-! ### Within 100 ppm -/

theorem ceil_le_iff (a n s : Int) (hs : 0 < s) : (a + s - 1) / s ≤ n ↔ a ≤ n * s := by
  rw [← Int.lt_add_one_iff, Int.ediv_lt_iff_lt_mul hs, Int.add_mul, Int.one_mul]
  omega

variable (hlow : -1759218604 ≤ t.rate)
include hlow

theorem Time.slope_pos : 0 < t.slope := by
  unfold Time.slope
  omega

/-- Every edge moves the time base on. -/
theorem Time.raw_lt_succ (c : Nat) : t.raw c < t.raw (c + 1) := by
  have hedge : ((c + 1 : Nat) - t.c0 : Int) * t.slope = ((c : Int) - t.c0) * t.slope + t.slope := by
    have hnext : ((c + 1 : Nat) - t.c0 : Int) = ((c : Int) - t.c0) + 1 := by omega
    rw [hnext, Int.add_mul, Int.one_mul]
  rw [Time.raw_eq, Time.raw_eq, hedge]
  unfold Time.slope
  omega

/-- `edgeAt` is the first edge at which the time base reads at least the instant (R304). -/
theorem Time.edgeAt_le_iff (x : Int) (c : Nat) : t.edgeAt x ≤ c ↔ x * 4294967296 ≤ t.raw c := by
  have hceil : t.edgeAt x = (t.c0 + ((x * 4294967296 - t.t0) * 4096 + t.slope - 1) / t.slope).toNat := rfl
  rw [hceil, Int.toNat_le, Time.le_raw_iff, ← ceil_le_iff _ _ _ (t.slope_pos hlow)]
  omega

end

/-- Settles O31: the reading is a floor of a rising line through the origin that a change of RATE moves to its own edge. -/
theorem timeBaseRunsWithoutJumps : Obligations.TimeBaseRunsWithoutJumps := by
  unfold Obligations.TimeBaseRunsWithoutJumps
  intro t rate c x hlow _
  exact ⟨rfl, t.raw_setRate rate, t.raw_lt_succ hlow c, (t.edgeAt_le_iff hlow x c).symm⟩

/-! ### One clock edge (R285) -/

/-- Settles O49: on an empty queue the step is a clock edge, which reset holds back. -/
theorem idleStepIsOneClockEdge : Obligations.IdleStepIsOneClockEdge := by
  unfold Obligations.IdleStepIsOneClockEdge
  intro d
  have hidle : step { dev := d, pending := [] } = .next { dev := d.tick, pending := [] } := rfl
  rw [hidle]
  exact ⟨fun h => by rw [Dev.tick, h]; rfl, fun h => by rw [Dev.tick, if_pos h]⟩

end Sys2Proof.Machine
end

section
/-!
SUPPORT. The commands of the time base (12 R288, R291, R292, R295, R297, R298, R300, R301, R306, R309).
-/
namespace Sys2Proof.Machine

/-! ### RATE (R292) -/

/-- The form of `TIME_RATE_SET`: RATE is within 100 ppm. -/
theorem cmdTimeRateSet_form (b : Bytes) (hz : zeros 16 b [(20, 63)] = true) :
    cmdTimeRateSet.form b = true ↔ -1759218604 ≤ signed 32 (ent b 16 4) ∧ signed 32 (ent b 16 4) ≤ 1759218604 := by
  have hfields : cmdTimeRateSet.form b = (decide ((signed 32 (ent b 16 4)).natAbs ≤ 1759218604) && zeros 16 b [(20, 63)]) := rfl
  rw [hfields, hz, Bool.and_true, decide_eq_true_eq]
  omega

theorem cmdTimeRateSet_forbid (d : Dev) (e : Exec) :
    cmdTimeRateSet.forbid d e = if d.time.role ≠ 2 ∧ d.time.role ≠ 4 then some (.conflict, []) else none := rfl

/-- Settles O58: the packet is refused by its form or by the role, or its RATE is in force from the present edge on. -/
theorem rateIsSetInRoles2And4 : Obligations.RateIsSetInRoles2And4 := by
  unfold Obligations.RateIsSetInRoles2And4
  intro p s d b rate hs hplain hring hdom hboot htver hentry hbuf hz
  obtain ⟨hlast, hfence, hbeacon, _⟩ := id hplain
  have hsimple : cmdTimeRateSet.Simple (d.fetch p) (cmdTimeRateSet.entry d p) := ⟨hentry, hbuf, htver, hbeacon, rfl, rfl, rfl⟩
  have hpriv : cmdTimeRateSet.privilege (d.fetch p) (cmdTimeRateSet.entry d p) = none :=
    cmdTimeRateSet.privilege_ring0 _ _ hring hdom (.inl hboot)
  have hform := cmdTimeRateSet_form b hz
  have hrefuse : -1759218604 ≤ rate → rate ≤ 1759218604 → cmdTimeRateSet.refuse (d.fetch p) (cmdTimeRateSet.entry d p) =
      if d.time.role ≠ 2 ∧ d.time.role ≠ 4 then some (.conflict, []) else none := fun hlow hhigh =>
    (hsimple.refuse_formed hpriv (hform.2 ⟨hlow, hhigh⟩) rfl).trans (cmdTimeRateSet_forbid _ _)
  refine ⟨fun hlow hhigh hrole => ?sets, fun hlow hhigh h2 h4 => ?conflict, fun hfar => ?badParam⟩
  case sets =>
    have haccepts : cmdTimeRateSet.accepts d p := ⟨hs, hplain, (hrefuse hlow hhigh).trans (if_neg fun hn => hrole.elim hn.1 hn.2)⟩
    exact ⟨d.time.setRate rate, rfl, rfl, d.time.raw_setRate rate, exec_accepted _ cmdTimeRateSet p s rfl haccepts⟩
  case conflict =>
    exact exec_refused _ cmdTimeRateSet p s rfl hs hlast hfence .conflict [] ((hrefuse hlow hhigh).trans (if_pos ⟨h2, h4⟩)) (.inl (by decide))
  case badParam =>
    have hmalformed : cmdTimeRateSet.form b = false := by
      rw [Bool.eq_false_iff, ne_eq, hform]
      omega
    exact exec_refused _ cmdTimeRateSet p s rfl hs hlast hfence .badParam [] (hsimple.refuse_malformed hpriv hmalformed) (.inl (by decide))

/-! ### Settings and reads -/

section
variable (d : Dev) (e : Exec)

theorem cmdTimeSet_atOnce (h : ent e.par 24 1 = 1) :
    cmdTimeSet.run e d = ((d.setStep (ent e.par 16 8)).setTime fun t => { t with stepped := true }).finish e .done [] := if_pos h

/-- MODE 0 waits for PPS_IN, for 2 s at the most (R291). -/
theorem cmdTimeSet_waits (h : ent e.par 24 1 = 0) : cmdTimeSet.run e d =
    (d.setTime fun t => { t with waiting := some (e.dom, e.seq, ent e.par 16 8, d.time.c + 2000000000) }).park e := by
  refine if_neg ?_
  rw [h]
  decide

theorem exec_timeSetTimeout (s : State) (h : s.dev.sys.inReset = false) :
    exec .timeSetTimeout s = .next { s with dev := (timeSetTimeout s.dev).settle } := live_running _ s h

theorem timeSetTimeout_waiting (dom seq v due : Nat) (hw : d.time.waiting = some (dom, seq, v, due)) (he : d.exec? dom seq = some e) :
    timeSetTimeout d = ((d.goCounter due).setTime fun t => { t with waiting := none }).finish e .late [] := by
  have hexec : ((d.goCounter due).setTime fun t => { t with waiting := none }).exec? dom seq = some e := he
  simp only [timeSetTimeout, hw, Dev.finishId, hexec]

theorem timeSetTimeout_idle (hw : d.time.waiting = none) : timeSetTimeout d = d := by simp only [timeSetTimeout, hw]

theorem launchNs_cast (mode : Nat) : (launchNs mode : Int) = if mode = 2 then 1728 else 1344 := by
  unfold launchNs
  split <;> rfl

/-- `TOD_QUERY`: the launch of the frame with the superframe count asked for (R301). -/
theorem cmdTodQuery_run (n : Int) (at' : Nat) (hn : n = (d.time.frame : Int) + d.sfDiff (ent e.par 20 4))
    (hat : at' = wrap 64 (n * 125000 + (if d.mode (ent e.par 16 2) = 2 then 1728 else 1344) - d.launchAdvance (ent e.par 16 2 / 4))) :
    cmdTodQuery.run e d = d.finish e .done [at' / 2 ^ 32, at' % 2 ^ 32, 0, wrap 32 n] := by
  rw [hat, hn, ← launchNs_cast]
  rfl

/-- A capture read that is not DRY empties the input's list (R309). -/
theorem cmdTeCaptureRead_run (h : Packet.dry e.pkt = false) : cmdTeCaptureRead.run e d =
    ((d.hostWrite (ent e.par 24 8) ((d.time.inputs.getD (ent e.par 16 1) {}).caps.flatMap (Capture.bytes (ent e.par 16 1))
      ++ List.replicate 16 0#8)).setTime fun t =>
        { t with inputs := t.inputs.adjust (ent e.par 16 1) fun (q : TeInput) => { q with caps := [] } }).finish e .done
      [(d.time.inputs.getD (ent e.par 16 1) {}).caps.length] := by
  simp only [cmdTeCaptureRead, h, Bool.false_eq_true, if_false]

end

/-- Settles O32: each command's run is the change of the time base that the statement writes out, or the words that it reads. -/
theorem timeCommandsAct : Obligations.TimeCommandsAct := by
  unfold Obligations.TimeCommandsAct
  refine ⟨fun p s dom seq v due e => ?sets, fun p s => ?reads⟩
  case sets =>
    intro d b other fresh port synce
    refine ⟨fun ha => exec_accepted _ cmdTimeSourceSet p s rfl ha, fun ha hm => ?atOnce, fun ha hm => ?waits, fun hr hw he => ?timeout,
      fun hr hw => ?idle, fun ha => ?input, fun ha => ?ring, fun ha => ?ptp, fun ha => exec_accepted _ cmdSyncePortSet p s rfl ha⟩
    case atOnce => rw [exec_accepted _ cmdTimeSet p s rfl ha, cmdTimeSet_atOnce (d.fetch p) (cmdTimeSet.entry d p) hm]; rfl
    case waits => rw [exec_accepted _ cmdTimeSet p s rfl ha, cmdTimeSet_waits (d.fetch p) (cmdTimeSet.entry d p) hm]; rfl
    case timeout => rw [exec_timeSetTimeout s hr, timeSetTimeout_waiting d e dom seq v due hw he]
    case idle => rw [exec_timeSetTimeout s hr, timeSetTimeout_idle d hw]
    case input => exact exec_answers _ cmdTeInputSet p s rfl ha (d.setTime _) .done [] rfl rfl
    case ring => exact exec_answers _ cmdTsRingSet p s rfl ha (d.setTime _) .done [] rfl rfl
    case ptp => exact exec_answers _ cmdPtpPortSet p s rfl ha (d.setTime _) .done [] rfl rfl
  case reads =>
    intro d b t x n at' pin caps
    refine ⟨fun ha => exec_reads _ cmdTimeStatus p s rfl ha .done _ rfl, fun ha => exec_reads _ cmdBeaconStatus p s rfl ha .done _ rfl,
      fun ha => ?tod, fun ha => ?captures⟩
    case tod =>
      exact exec_reads _ cmdTodQuery p s rfl ha .done _ (cmdTodQuery_run (d.fetch p) (cmdTodQuery.entry d p) n at' rfl rfl)
    case captures =>
      obtain ⟨_, ⟨_, _, _, hdry⟩, _⟩ := id ha
      exact exec_answers _ cmdTeCaptureRead p s rfl ha ((d.hostWrite _ _).setTime _) .done _ rfl
        (cmdTeCaptureRead_run (d.fetch p) (cmdTeCaptureRead.entry d p) hdry)

end Sys2Proof.Machine
end

section
/-!
SUPPORT. The events of the time base (12 R289, R290, R293, R302 to R306, R310, R436; 17 R409): re-bases, beacons and pulses, PPS_OUT, a
follower's master, and sources that lock or are lost.
-/
namespace Sys2Proof.Machine

/-! ### The events out of reset -/

section
variable (s : State) (h : s.dev.sys.inReset = false)
include h

theorem exec_rebaseStep : exec .rebaseStep s = .next { s with dev := (rebaseStep s.dev).settle } := live_running _ s h

theorem exec_pulseEnd (pin : Nat) : exec (.pulseEnd pin) s = .next { s with dev := (pulseEnd pin s.dev).settle } := live_running _ s h

theorem exec_ppsOutRise : exec .ppsOutRise s = .next { s with dev := (ppsOutRise s.dev).settle } := live_running _ s h

theorem exec_ppsOutFall : exec .ppsOutFall s = .next { s with dev := (ppsOutFall s.dev).settle } := live_running _ s h

theorem exec_timeWord (rx : TimeWordRx) : exec (.timeWord rx) s = .next { s with dev := (timeWord rx s.dev).settle } := live_running _ s h

theorem exec_followerLock (v : Nat) : exec (.followerLock v) s = .next { s with dev := (followerLock v s.dev).settle } :=
  live_running _ s h

theorem exec_timeBasePllLock : exec .timeBasePllLock s = .next { s with dev := (timeBasePllLock s.dev).settle } := live_running _ s h

theorem exec_timeSourceLoss (cause : TimeLoss) (avg : Int) :
    exec (.timeSourceLoss cause avg) s = .next { s with dev := (timeSourceLoss cause avg s.dev).settle } := live_running _ s h

end

section
variable (d : Dev)

/-- Only what a change makes of the present time base counts. -/
theorem Dev.setTime_congr (f g : Time → Time) (h : f d.time = g d.time) : d.setTime f = d.setTime g := by
  simp only [Dev.setTime, h]

/-! ### Re-bases (R293) -/

/-- The device at the instant of a re-base, which no longer waits. -/
def Dev.atRebase (r : Rebase) : Dev := (d.goTime r.at_).setTime fun t => { t with rebases := t.rebases.erase r }

section
variable (r : Rebase) (hnext : d.time.nextRebase = some r)
include hnext

theorem rebaseStep_remote (h : r.remote = true) : rebaseStep d = ((d.atRebase r).rebaseNow r.step).1 := by
  simp only [rebaseStep, hnext, h, if_true]
  rfl

theorem rebaseStep_own (h : r.remote = false) : rebaseStep d = ((d.atRebase r).rebaseNow r.step).1.finishId r.dom r.seq .done
    [r.at_ / 2 ^ 32, r.at_ % 2 ^ 32, ((d.atRebase r).rebaseNow r.step).2, 0] := by
  simp only [rebaseStep, hnext, h, Bool.false_eq_true, if_false]
  rfl

end

/-! ### Pulses and PPS_OUT (R305, R310) -/

theorem pulseEnd_running (pin : Nat) (q : Nat × Nat × Nat) (h : (d.time.pulses.find? fun x => x.1 == pin) = some q) : pulseEnd pin d =
    (d.goCounter q.2.2).setTime fun t => { t with pulses := t.pulses.erase q, teHigh := t.teHigh.filter fun n => n != pin } := by
  simp only [pulseEnd, h]

theorem ppsOutRise_set (hlow : d.time.ppsHigh = false) (hset : d.time.isSet = true) : ppsOutRise d =
    (d.goTime (roundUp d.now 1000000000)).setTime fun t => { t with ppsHigh := true, ppsFall := t.c + 100000000 } := by
  refine if_neg ?_
  rw [hlow, hset]
  decide

theorem ppsOutRise_unset (hset : d.time.isSet = false) : ppsOutRise d = d := if_pos (.inr (by rw [hset]; rfl))

theorem ppsOutFall_high (h : d.time.ppsHigh = true) :
    ppsOutFall d = (d.goCounter d.time.ppsFall).setTime fun t => { t with ppsHigh := false } := if_pos h

/-! ### A follower and its master (R289, 17 R409) -/

/-- A follower that has noted the path of a time word. -/
def Dev.heardWord (rx : TimeWordRx) : Dev :=
  d.setTime fun t => Time.reselect { t with paths := (t.paths.filter fun p => p.1 != rx.lane) ++ [(rx.lane, rx.hops, rx.master)] }

/-- A follower steered by the word of its source. -/
def Dev.steered (rx : TimeWordRx) : Dev :=
  d.setTime fun t =>
    { t.setRate (clampRate rx.rate) with
      offset := rx.offset
      good := if rx.offset.natAbs ≤ 128 * d.time.hops then t.good + 1 else 0
      folLocked := t.folLocked && decide (rx.offset.natAbs ≤ 128 * d.time.hops) }

/-- The other links that an announced re-base is passed on to. -/
def Dev.relayed (rx : TimeWordRx) (f : Nat) (step : Int) : Dev :=
  (d.timeLinks.filter fun l => l != rx.lane).foldl (fun (d : Dev) l => d.sendControl l 4 [(f : Int), step]) d

section
variable (rx : TimeWordRx) (hrole : d.time.role = 3) (hlink : d.isGroup rx.lane [2, 3] = true) (hup : d.portUp rx.lane = true)
include hrole hlink hup

theorem timeWord_heard :
    timeWord rx d = if (d.heardWord rx).time.source ≠ some rx.lane then d.heardWord rx
      else match rx.step with
        | some (f, step) => (((d.heardWord rx).steered rx).relayed rx f step).setTime fun t =>
          { t with rebases := t.rebases ++ [(⟨0, 0, f, step, true⟩ : Rebase)] }
        | none => (d.heardWord rx).steered rx := by
  have hfollows : ¬(d.time.role ≠ 3 ∨ (!d.isGroup rx.lane [2, 3]) = true ∨ (!d.portUp rx.lane) = true) := by
    rw [hrole, hlink, hup]
    decide
  refine (if_neg hfollows).trans ?_
  rfl

theorem timeWord_otherPath (hs : (d.heardWord rx).time.source ≠ some rx.lane) : timeWord rx d = d.heardWord rx := by
  rw [timeWord_heard d rx hrole hlink hup, if_pos hs]

theorem timeWord_source (hs : (d.heardWord rx).time.source = some rx.lane) (hstep : rx.step = none) :
    timeWord rx d = (d.heardWord rx).steered rx := by
  rw [timeWord_heard d rx hrole hlink hup, if_neg (not_not_intro hs), hstep]

theorem timeWord_rebase (f : Nat) (step : Int) (hs : (d.heardWord rx).time.source = some rx.lane) (hstep : rx.step = some (f, step)) :
    timeWord rx d = (((d.heardWord rx).steered rx).relayed rx f step).setTime fun t =>
      { t with rebases := t.rebases ++ [(⟨0, 0, f, step, true⟩ : Rebase)] } := by
  rw [timeWord_heard d rx hrole hlink hup, if_neg (not_not_intro hs), hstep]

end

/-- A follower that has locked. -/
def Dev.lockedFollower : Dev :=
  (d.setTime fun t => { t with folLocked := true, folEver := true, wasLocked := true, isSet := true }).esmcUpdate

/-- The first lock since reset steps to the master's time. -/
theorem followerLock_locks (v : Nat) (hrole : d.time.role = 3) (hgood : 1000 ≤ d.time.good) (hlocked : d.time.folLocked = false) :
    followerLock v d = (if d.time.folEver then d else d.setStep v).lockedFollower := by
  refine if_neg ?_
  rw [hrole, hlocked]
  simp
  omega

/-! ### Sources that lock and are lost (R290, R436) -/

theorem timeBasePllLock_master (hrole : d.time.role ≠ 3) (hsource : d.time.freq ≠ 2 ∨ d.synceSource.isSome = true) : timeBasePllLock d =
    (d.setTime fun t => Time.noteLock { t with pllLocked := true, pllLost := false }).esmcUpdate := by
  refine if_neg ?_
  rintro (h3 | ⟨hfreq, hnone⟩)
  · exact hrole h3
  · rcases hsource with h2 | hsome
    · exact h2 hfreq
    · rw [Option.isNone_iff_eq_none.1 hnone] at hsome
      cases hsome

theorem Time.holdover_steered (t : Time) (avg : Int) (h0 : t.role ≠ 0) (h4 : t.role ≠ 4) : t.holdover avg = t.setRate (clampRate avg) :=
  if_neg (not_or.2 ⟨h0, h4⟩)

variable (avg : Int)

theorem timeSourceLoss_frequency (h : d.time.pllLocked = true) : timeSourceLoss .frequency avg d =
    (d.setTime fun t => { t.holdover avg with pllLocked := false, pllLost := true }).esmcUpdate :=
  congrArg Dev.esmcUpdate (d.setTime_congr _ _ (if_pos h))

theorem timeSourceLoss_pps (hrole : d.time.role = 2) (h : d.time.ppsLocked = true) : timeSourceLoss .pps avg d =
    (d.setTime fun t => { t.setRate (clampRate avg) with ppsLocked := false, ppsLost := true }).esmcUpdate := by
  have hheld : d.time.holdover avg = d.time.setRate (clampRate avg) := d.time.holdover_steered avg (by omega) (by omega)
  refine congrArg Dev.esmcUpdate (d.setTime_congr _ _ ((if_pos ⟨hrole, h⟩).trans ?_))
  rw [hheld]

theorem timeSourceLoss_ptpMaster (hrole : d.time.role = 1) (h : d.time.ptpLocked = true) : timeSourceLoss .ptpMaster avg d =
    (d.setTime fun t => { t.setRate (clampRate avg) with ptpLocked := false, ptpLost := true }).esmcUpdate := by
  have hheld : d.time.holdover avg = d.time.setRate (clampRate avg) := d.time.holdover_steered avg (by omega) (by omega)
  refine congrArg Dev.esmcUpdate (d.setTime_congr _ _ ((if_pos ⟨hrole, h⟩).trans ?_))
  rw [hheld]

/-- The time base of a follower that has lost the path of a lane. -/
def Time.withoutPath (t : Time) (l : Nat) : Time := Time.reselect { t with paths := t.paths.filter fun p => p.1 != l }

theorem Time.reselect_role (t : Time) : t.reselect.role = t.role := by
  unfold Time.reselect
  split <;> rfl

variable (l : Nat) (hrole : d.time.role = 3)
include hrole

theorem timeSourceLoss_lastPath (hnone : (d.time.withoutPath l).source = none) (hsome : d.time.source.isSome = true) :
    timeSourceLoss (.path l) avg d = (d.setTime fun _ => (d.time.withoutPath l).setRate (clampRate avg)).esmcUpdate := by
  have hsame : (d.time.withoutPath l).role = 3 := (Time.reselect_role _).trans hrole
  have hheld : (d.time.withoutPath l).holdover avg = (d.time.withoutPath l).setRate (clampRate avg) :=
    Time.holdover_steered _ avg (by omega) (by omega)
  refine congrArg Dev.esmcUpdate (d.setTime_congr _ _ ?_)
  refine (if_neg (not_not_intro hrole)).trans ((if_pos ⟨?_, hsome⟩).trans hheld)
  exact Option.isNone_iff_eq_none.2 hnone

theorem timeSourceLoss_otherPath (hsome : (d.time.withoutPath l).source.isSome = true) :
    timeSourceLoss (.path l) avg d = (d.setTime fun _ => d.time.withoutPath l).esmcUpdate := by
  refine congrArg Dev.esmcUpdate (d.setTime_congr _ _ ((if_neg (not_not_intro hrole)).trans (if_neg fun h => ?_)))
  have hnone : (d.time.withoutPath l).source = none := Option.isNone_iff_eq_none.1 h.1
  rw [hnone] at hsome
  cases hsome

end

/-- Settles O33: each command by its run, and each event by the step that it takes in the case that the statement names. -/
theorem timeEventsAct : Obligations.TimeEventsAct := by
  unfold Obligations.TimeEventsAct
  refine ⟨fun p s r q pin => ?scheduled, fun s rx avg v => ?followed⟩
  case scheduled =>
    intro d b f step told t beacon
    refine ⟨fun ha => exec_accepted _ cmdTimeRebase p s rfl ha, fun hr hnext => ⟨fun hremote => ?remote, fun hown => ?own⟩,
      fun ha => exec_answers _ cmdBeaconSet p s rfl ha (d.setTime _) .done [] rfl rfl,
      fun ha => exec_accepted _ cmdBeaconClear p s rfl ha,
      fun hr => ⟨fun hq => ?pulse, fun hlow hset => ?rise, fun hset => ?unset, fun hhigh => ?fall⟩⟩
    case remote => rw [exec_rebaseStep s hr, rebaseStep_remote d r hnext hremote]; rfl
    case own => rw [exec_rebaseStep s hr, rebaseStep_own d r hnext hown]; rfl
    case pulse => rw [exec_pulseEnd s hr, pulseEnd_running d pin q hq]
    case rise => rw [exec_ppsOutRise s hr, ppsOutRise_set d hlow hset]
    case unset => rw [exec_ppsOutRise s hr, ppsOutRise_unset d hset]
    case fall => rw [exec_ppsOutFall s hr, ppsOutFall_high d hhigh]
  case followed =>
    intro d heard inside clamp locked steered relayed kept lost hr
    have hsteered : steered = heard.steered rx := by
      simp only [steered, Dev.steered, inside, decide_eq_true_eq]
      rfl
    refine ⟨fun hrole hlink hup => ⟨fun hs => ?otherPath, fun hs hstep => ?source, fun f step hs hstep => ?rebase⟩,
      fun hrole hgood hlocked => ⟨fun hever => ?first, fun hever => ?again⟩, fun hrole hfreq => ?pll, fun hrole _ hsource => ?synce,
      fun h => ?frequency, fun hrole h => ?pps, fun hrole h => ?ptp, fun l hrole => ⟨fun hnone hsome => ?lastPath, fun hsome => ?kept⟩⟩
    case otherPath => rw [exec_timeWord s hr, timeWord_otherPath d rx hrole hlink hup hs]; rfl
    case source => rw [exec_timeWord s hr, timeWord_source d rx hrole hlink hup hs hstep, hsteered]; rfl
    case rebase =>
      rw [exec_timeWord s hr, timeWord_rebase d rx hrole hlink hup f step hs hstep]
      simp only [relayed, hsteered]
      rfl
    case first => rw [exec_followerLock s hr, followerLock_locks d v hrole hgood hlocked, if_neg (Bool.eq_false_iff.1 hever)]; rfl
    case again => rw [exec_followerLock s hr, followerLock_locks d v hrole hgood hlocked, if_pos hever]; rfl
    case pll => rw [exec_timeBasePllLock s hr, timeBasePllLock_master d hrole (.inl hfreq)]
    case synce => rw [exec_timeBasePllLock s hr, timeBasePllLock_master d hrole (.inr hsource)]
    case frequency => rw [exec_timeSourceLoss s hr, timeSourceLoss_frequency d avg h]; rfl
    case pps => rw [exec_timeSourceLoss s hr, timeSourceLoss_pps d avg hrole h]; rfl
    case ptp => rw [exec_timeSourceLoss s hr, timeSourceLoss_ptpMaster d avg hrole h]; rfl
    case lastPath => rw [exec_timeSourceLoss s hr, timeSourceLoss_lastPath d avg l hrole hnone hsome]; rfl
    case kept => rw [exec_timeSourceLoss s hr, timeSourceLoss_otherPath d avg l hrole hsome]; rfl

end Sys2Proof.Machine
end

section
/-!
SUPPORT. Edges of the time-event inputs and PPS_IN (12 R291, R292, R295, R309), PTP (R296, R298, R299) and ESMC (R300).
-/
namespace Sys2Proof.Machine

/-! ### The events out of reset -/

section
variable (s : State) (h : s.dev.sys.inReset = false)
include h

theorem exec_teInEdge (pin : Nat) (rising : Bool) (frac : Nat) :
    exec (.teInEdge pin rising frac) s = .next { s with dev := (teInEdge pin rising frac s.dev).settle } := live_running _ s h

theorem exec_ppsInEdge (rising : Bool) (frac : Nat) (rate offset : Int) (locked : Bool) :
    exec (.ppsInEdge rising frac rate offset locked) s = .next { s with dev := (ppsInEdge rising frac rate offset locked s.dev).settle } :=
  live_running _ s h

theorem exec_ptpMessage (rx : PtpRx) : exec (.ptpMessage rx) s = .next { s with dev := (ptpMessage rx s.dev).settle } :=
  live_running _ s h

theorem exec_ptpMessageSend (l : Nat) (data : Bytes) :
    exec (.ptpMessageSend l data) s = .next { s with dev := (ptpMessageSend l data s.dev).settle } := live_running _ s h

theorem exec_esmcPdu (l ql : Nat) : exec (.esmcPdu l ql) s = .next { s with dev := (esmcPdu l ql s.dev).settle } := live_running _ s h

theorem exec_esmcInformationSend (l : Nat) :
    exec (.esmcInformationSend l) s = .next { s with dev := (esmcInformationSend l s.dev).settle } := live_running _ s h

theorem exec_synceWaitToRestoreExpiry (l : Nat) :
    exec (.synceWaitToRestoreExpiry l) s = .next { s with dev := (synceRestore l s.dev).settle } := live_running _ s h

end

section
variable (d : Dev)

/-! ### Captures (R309) -/

section
variable (pin : Nat) (rising : Bool) (frac : Nat)

theorem Dev.capture_off (hoff : (d.time.inputs.getD pin {}).mask.getLsbD (if rising then 0 else 1) = false) :
    d.capture pin rising frac = d := if_pos (by rw [hoff]; rfl)

variable (hon : (d.time.inputs.getD pin {}).mask.getLsbD (if rising then 0 else 1) = true)
include hon

theorem Dev.capture_on : d.capture pin rising frac =
    if 64 ≤ (d.time.inputs.getD pin {}).caps.length then d.count (0x3E00 + 32 + pin)
    else d.setTime fun t => { t with inputs := t.inputs.put pin { d.time.inputs.getD pin {} with
      caps := (d.time.inputs.getD pin {}).caps ++ [⟨rising, wrap 64 ((d.now : Int) - 4), frac % 2 ^ 32⟩] } } := by
  have hlisted : ¬(!(d.time.inputs.getD pin {}).mask.getLsbD (if rising then 0 else 1)) = true := by
    rw [hon]
    decide
  refine (if_neg hlisted).trans ?_
  rw [ctrDev, Nat.add_assoc]
  rfl

end

/-! ### PPS_IN (R291, R292) -/

theorem ppsInEdge_falling (frac : Nat) (rate offset : Int) (locked : Bool) :
    ppsInEdge false frac rate offset locked d = d.capture 8 false frac := rfl

/-- A waiting `TIME_SET`, applied and answered at the edge; nothing where none waits. -/
def Dev.appliesTimeSet : Dev :=
  match d.time.waiting with
  | some (dom, seq, v, _) => ((d.setStep v).setTime fun t => { t with stepped := true, waiting := none }).finishId dom seq .done []
  | none => d

/-- A rising edge applies what waits, and then disciplines a grandmaster. -/
theorem ppsInEdge_rising (frac : Nat) (rate offset : Int) (locked : Bool) (set : Dev) (h : (d.capture 8 true frac).appliesTimeSet = set) :
    ppsInEdge true frac rate offset locked d =
      if set.time.role = 2 then (set.setTime fun t => Time.noteLock { t.setRate (clampRate rate) with
        offset, ppsLocked := locked, ppsLost := t.ppsLost && !locked }).esmcUpdate
      else set := by
  subst h
  rfl

/-! ### PTP (R296, R298, R299) -/

section
variable (rx : PtpRx) (q : PtpPort)

/-- The port's state after a message: slave only where role and settings let it be, the stamp of an event message noted. -/
def Dev.ptpHeard : PtpPort :=
  let slave := rx.slave && q.maySlave d.time.role
  { q with slave, locked := slave && rx.locked
           rxStamp := if ptpEvent q rx.data then some (d.stamp (d.laneFix false rx.lane), d.frac) else q.rxStamp }

def Dev.ptpMoved : Dev := d.setTime fun t => { t with ptp := t.ptp.put rx.lane (d.ptpHeard rx q) }

variable (hq : d.time.ptp.find? rx.lane = some q)
include hq

theorem ptpMessage_port : ptpMessage rx d = ((d.ptpMoved rx q).setTime fun t =>
    if rx.slave && q.maySlave d.time.role then
      { t.setRate (clampRate rx.rate) with ptpLocked := rx.locked, ptpLost := t.ptpLost && !rx.locked, offset := rx.offset }
    else if t.role = 1 ∧ t.slaves.isEmpty then { t with ptpLocked := false, ptpLost := false }
    else t).esmcUpdate := by
  unfold ptpMessage
  rw [hq]
  rfl

theorem ptpMessage_slave (hs : (rx.slave && q.maySlave d.time.role) = true) : ptpMessage rx d =
    ((d.ptpMoved rx q).setTime fun t =>
      { t.setRate (clampRate rx.rate) with ptpLocked := rx.locked, ptpLost := t.ptpLost && !rx.locked, offset := rx.offset }).esmcUpdate := by
  rw [ptpMessage_port d rx q hq]
  exact congrArg Dev.esmcUpdate (Dev.setTime_congr _ _ _ (if_pos hs))

/-- With its last slave port gone, a ROLE 1 device is locked to no PTP master. -/
theorem ptpMessage_lastSlave (hs : (rx.slave && q.maySlave d.time.role) = false) (hrole : d.time.role = 1)
    (hnone : (d.ptpMoved rx q).time.slaves = []) : ptpMessage rx d =
    ((d.ptpMoved rx q).setTime fun t => { t with ptpLocked := false, ptpLost := false }).esmcUpdate := by
  rw [ptpMessage_port d rx q hq]
  refine congrArg Dev.esmcUpdate (Dev.setTime_congr _ _ _ ((if_neg (Bool.eq_false_iff.1 hs)).trans (if_pos ⟨hrole, ?_⟩)))
  rw [hnone]
  rfl

theorem ptpMessage_other (hs : (rx.slave && q.maySlave d.time.role) = false)
    (hother : d.time.role ≠ 1 ∨ (d.ptpMoved rx q).time.slaves ≠ []) : ptpMessage rx d = (d.ptpMoved rx q).esmcUpdate := by
  rw [ptpMessage_port d rx q hq]
  refine congrArg Dev.esmcUpdate (Dev.setTime_congr _ _ id ((if_neg (Bool.eq_false_iff.1 hs)).trans (if_neg ?_)))
  rintro ⟨hrole, hempty⟩
  exact hother.elim (fun hn => hn hrole) fun hn => hn (List.isEmpty_iff.1 hempty)

end

section
variable (l : Nat) (data : Bytes) (q : PtpPort) (hq : d.time.ptp.find? l = some q)
include hq

theorem ptpMessageSend_joins (hlen : data.length ≤ 256) (hfree : (((d.port l).queue 0).frames.any fun x => x.src == srcKeepers) = false) :
    ptpMessageSend l data d =
    d.enqueuePort l { data := d.ptpFill q data, src := srcKeepers, cls := 0, slot := d.runSlot, itime := d.now } := by
  have hfits : ¬(256 < data.length ∨ (((d.port l).queue 0).frames.any fun x => x.src == srcKeepers) = true) := by
    rw [hfree]
    simp [hlen]
  simp only [ptpMessageSend, hq, if_neg hfits]

theorem ptpMessageSend_refused (h : 256 < data.length ∨ (((d.port l).queue 0).frames.any fun x => x.src == srcKeepers) = true) :
    ptpMessageSend l data d = d := by
  simp only [ptpMessageSend, hq, if_pos h]

end

/-! ### ESMC (R300) -/

section
variable (l : Nat) (y : SyncePort) (hy : d.time.synce.find? l = some y)
include hy

theorem synceRestore_waiting (due : Nat) (hw : y.waitTo = some due) : synceRestore l d =
    ((d.goCounter due).setTime fun t => { t with synce := t.synce.adjust l fun (z : SyncePort) =>
      { z with waitTo := none, failed := false } }).esmcUpdate := by
  simp only [synceRestore, hy, Option.bind_some, hw]

variable (he : bit y.flags.toNat 0 = true) (hup : d.portUp l = true)
include he hup

theorem esmcPdu_heard (ql : Nat) : esmcPdu l ql d =
    (d.setTime fun t => { t with synce := t.synce.put l (y.hear ql (d.time.c + 300300000000)) }).esmcUpdate := by
  simp only [esmcPdu, hy, SyncePort.esmc, he, hup, Bool.not_true, Bool.false_eq_true, or_self, if_false]
  rfl

theorem esmcInformationSend_sends : esmcInformationSend l d = d.sendEsmc l false := by
  simp only [esmcInformationSend, hy, SyncePort.esmc, he, hup, and_self, if_true]

end

end

/-- Settles O34: each event by the step that it takes in the case that the statement names. -/
theorem edgesAndPortProtocolsAct : Obligations.EdgesAndPortProtocolsAct := by
  unfold Obligations.EdgesAndPortProtocolsAct
  refine ⟨fun s pin frac rising locked rate offset dom seq v due set => ?edges, fun s rx q y l ql data due => ?protocols⟩
  case edges =>
    intro d q on pps hr
    have hpin : pin < 8 → exec (.teInEdge pin rising frac) s = .next { s with dev := (d.capture pin rising frac).settle } := fun hlt => by
      rw [exec_teInEdge s hr, show teInEdge pin rising frac d = d.capture pin rising frac from if_pos hlt]
    refine ⟨fun hlt => ⟨fun hon hroom => ?captured, fun hon hfull => ?counted, fun hoff => ?off⟩, ?falling,
      fun hwait => ⟨fun hrole => ?other, fun hrole => ?grandmaster⟩⟩
    case captured => rw [hpin hlt, d.capture_on pin rising frac hon, if_neg (Nat.not_le.2 hroom)]
    case counted => rw [hpin hlt, d.capture_on pin rising frac hon, if_pos hfull]
    case off => rw [hpin hlt, d.capture_off pin rising frac hoff]
    case falling => rw [exec_ppsInEdge s hr, ppsInEdge_falling]
    all_goals
      have hset : pps.appliesTimeSet = set := by
        rcases hwait with ⟨hnone, rfl⟩ | ⟨hsome, rfl⟩
        · simp only [Dev.appliesTimeSet, hnone]
        · simp only [Dev.appliesTimeSet, hsome]
      rw [exec_ppsInEdge s hr, ppsInEdge_rising d frac rate offset locked set hset]
    case other => rw [if_neg hrole]
    case grandmaster => rw [if_pos hrole]; rfl
  case protocols =>
    intro d slave heard moved sent hr
    have hslave : slave = (rx.slave && q.maySlave d.time.role) := Bool.and_assoc _ _ _
    have hmoved : moved = d.ptpMoved rx q := by
      simp only [moved, heard, hslave]
      rfl
    rw [hslave, hmoved]
    refine ⟨fun hq => ⟨fun hs => ?slave, fun hs hrole hnone => ?lastSlave, fun hs hother => ?other⟩,
      fun hq => ⟨fun hlen hfree => ?joins, fun hrefused => ?refused⟩, fun hy he hup => ⟨?heard, ?sent⟩, fun hy hw => ?restored⟩
    case slave => rw [exec_ptpMessage s hr, ptpMessage_slave d rx q hq hs]; rfl
    case lastSlave => rw [exec_ptpMessage s hr, ptpMessage_lastSlave d rx q hq hs hrole hnone]
    case other => rw [exec_ptpMessage s hr, ptpMessage_other d rx q hq hs hother]
    case joins => rw [exec_ptpMessageSend s hr, ptpMessageSend_joins d l data q hq hlen hfree]
    case refused => rw [exec_ptpMessageSend s hr, ptpMessageSend_refused d l data q hq hrefused]
    case heard => rw [exec_esmcPdu s hr, esmcPdu_heard d l y hy he hup]
    case sent => rw [exec_esmcInformationSend s hr, esmcInformationSend_sends d l y hy he hup]; rfl
    case restored => rw [exec_synceWaitToRestoreExpiry s hr, synceRestore_waiting d l y hy due hw]

end Sys2Proof.Machine
end

section
/-!
SUPPORT. Firmware and its staging memory (17 R404 to R407), reset and its release (18 R423 to R425; 17 R400, R401, R403), and what a device
that is held answers (18 R425; 16 Table 16-6).
-/
namespace Sys2Proof.Machine

/-! ### The staging memory (17 R404) -/

/-- A byte written is read back at its address, and nowhere else. -/
theorem Memory.read_putByte (m : Tbl Byte) (a k : Nat) (b : Byte) :
    Memory.read (Memory.putByte m a b) k = if k = a then b else Memory.read m k := by
  unfold Memory.read Memory.putByte Tbl.getD
  by_cases hk : k = a
  · subst hk
    rw [if_pos rfl]
    split
    · next hb => rw [Tbl.find_del, hb]; rfl
    · rw [Tbl.find_put]; rfl
  · rw [if_neg hk]
    split
    · rw [Tbl.find_del_ne m a k hk]
    · rw [Tbl.find_put_ne m a k b hk]

/-- What was stored last is read back: every byte of the range, and no other. -/
theorem Memory.read_store (m : Tbl Byte) (a : Nat) (bs : Bytes) (k : Nat) :
    Memory.read (Memory.store m a bs) k = if a ≤ k ∧ k < a + bs.length then bs.getD (k - a) 0#8 else Memory.read m k := by
  induction bs generalizing m a with
  | nil =>
    have hempty : ¬(a ≤ k ∧ k < a + ([] : Bytes).length) := fun h => Nat.lt_irrefl a (Nat.lt_of_le_of_lt h.1 h.2)
    rw [if_neg hempty]
    rfl
  | cons b t ih =>
    rw [Memory.store, ih, Memory.read_putByte, List.length_cons]
    by_cases hhead : k = a
    · subst hhead
      rw [if_neg (by omega), if_pos rfl, if_pos (by omega), Nat.sub_self]
      rfl
    · by_cases htail : a + 1 ≤ k ∧ k < a + 1 + t.length
      · have hnext : k - a = k - (a + 1) + 1 := by omega
        rw [if_pos htail, if_pos (by omega), hnext, List.getD_cons_succ]
      · rw [if_neg htail, if_neg hhead, if_neg (by omega)]

/-! ### Starting an image (17 R403, R405, R406) -/

section
variable (d : Dev) (e : Exec)

/-- Keeping a command in execution and changing the system's registers are apart. -/
theorem Dev.park_sys (y : Sys) : { d.park e with sys := y } = Dev.park { d with sys := y } e := by
  unfold Dev.park
  dsimp only
  split <;> rfl

/-- An image with its CRC fails by its header alone. -/
theorem imageFails_header (image : Bytes) (crc : Nat) (h : (crc32c image).toNat = crc) :
    imageFails image crc = if Config.imageHeaderOk image then none else some 2 := by
  have hcrc : ¬(crc32c image).toNat ≠ crc := not_not_intro h
  simp only [imageFails, if_neg hcrc, Bool.not_eq_true', ← Bool.not_eq_true]
  split <;> simp_all

theorem imageFails_isNone_iff (image : Bytes) (crc : Word) :
    (imageFails image crc.toNat).isNone = true ↔ crc32c image = crc ∧ Config.imageHeaderOk image = true := by
  by_cases hcrc : crc32c image = crc
  · rw [imageFails_header image crc.toNat (congrArg _ hcrc)]
    simp only [hcrc, true_and]
    split <;> simp_all
  · have hsum : (crc32c image).toNat ≠ crc.toNat := fun h => hcrc (BitVec.eq_of_toNat_eq h)
    simp [imageFails, hsum, hcrc]

theorem cmdFirmwareStart_bad (image : Bytes) (hi : image = Memory.load d.sys.staging (ent e.par 16 4))
    (hcrc : (crc32c image).toNat = ent e.par 20 4) :
    cmdFirmwareStart.bad d e = if Config.imageHeaderOk image then none else some [2] := by
  have hfails : cmdFirmwareStart.bad d e = (imageFails image (ent e.par 20 4)).map fun n => [n] := by rw [hi]; rfl
  rw [hfails, imageFails_header image _ hcrc]
  split <;> rfl

theorem cmdFirmwareStart_forbid (hstarted : d.sys.fwStarted = false) (hboot : d.sys.boot ≠ 3) : cmdFirmwareStart.forbid d e = none := by
  refine if_neg ?_
  rw [hstarted]
  simp [hboot]

theorem cmdFirmwareStart_run : cmdFirmwareStart.run e d = Dev.park { d with sys := { d.sys with
    fwStarted := true, starting := some (some (e.dom, e.seq))
    newRev := Config.imageRevision (Memory.load d.sys.staging (ent e.par 16 4)) } } e := by
  have hsys : (d.park e).sys = d.sys := by rw [Dev.park_frame]
  have hrun : cmdFirmwareStart.run e d = { d.park e with sys := { (d.park e).sys with
      fwStarted := true, starting := some (some (e.dom, e.seq))
      newRev := Config.imageRevision (Memory.load d.sys.staging (ent e.par 16 4)) } } := rfl
  rw [hrun, hsys, Dev.park_sys]

theorem exec_selfTestEnd (s : State) (h : s.dev.sys.inReset = false) (failures : BitVec 8) (repaired ms : Nat) :
    exec (.selfTestEnd failures repaired ms) s = .next { s with dev := (selfTestEnd failures repaired ms s.dev).settle } :=
  live_running _ s h

theorem exec_spiBoot (s : State) (h : s.dev.sys.inReset = false) (image : Bytes) (n : Nat) (crc : Word) :
    exec (.spiBoot image n crc) s = .next { s with dev := (spiBoot image n crc s.dev).settle } := live_running _ s h

/-- What the self test leaves in the system's registers (17 R406). -/
def Sys.tested (y : Sys) (failures : BitVec 8) (repaired : Nat) : Sys :=
  { y with
    boot := if failures &&& 0xFC#8 = 0#8 then 3 else 4
    fwRev := if failures &&& 0xFC#8 = 0#8 then y.newRev else y.fwRev
    selfBits := failures &&& 0xFC#8, repaired := repaired % 2 ^ 32, starting := none }

theorem selfTestEnd_answers (failures : BitVec 8) (repaired ms dom seq : Nat) (hs : d.sys.starting = some (some (dom, seq)))
    (he : d.exec? dom seq = some e) : selfTestEnd failures repaired ms d =
    Dev.finish { d with sys := d.sys.tested failures repaired } e .done
      [(failures &&& 0xFC#8).toNat, 256 * Config.siliconRev.toNat
        + (if failures &&& 0xFC#8 = 0#8 then d.sys.newRev else d.sys.fwRev).toNat, ms % 2 ^ 32, repaired % 2 ^ 32] := by
  have hexec : ∀ y : Sys, Dev.exec? { d with sys := y } dom seq = some e := fun _ => he
  simp only [selfTestEnd, hs, Dev.finishId, hexec]
  rfl

/-- Answered or not, the start leaves the system's registers as the self test sets them. -/
theorem selfTestEnd_sys (failures : BitVec 8) (repaired ms : Nat) (hs : d.sys.starting ≠ none) :
    (selfTestEnd failures repaired ms d).sys = d.sys.tested failures repaired := by
  unfold selfTestEnd
  split
  · next hnone => exact absurd hnone hs
  · dsimp only
    split
    · unfold Dev.finishId
      split <;> rfl
    · rfl

/-- The image that the boot ROM reads is started or rejected. -/
theorem spiBoot_reads (image : Bytes) (n : Nat) (crc : Word) (hboot : d.sys.boot = 1) (hstarted : d.sys.fwStarted = false) :
    spiBoot image n crc d =
      if 64 ≤ n ∧ n ≤ 16777216 ∧ crc32c (slice image 0 n) = crc ∧ Config.imageHeaderOk (slice image 0 n) then
        { d with sys := { d.sys with fwStarted := true, starting := some none, newRev := Config.imageRevision (slice image 0 n) } }
      else { d with sys := { d.sys with boot := 2 } } := by
  have hreads : ¬(d.sys.boot ≠ 1 ∨ d.sys.fwStarted = true) := by
    rw [hboot, hstarted]
    decide
  refine (if_neg hreads).trans (ite_congr (propext ?_) (fun _ => rfl) fun _ => rfl)
  rw [imageFails_isNone_iff]
  simp only [within, Bool.and_eq_true, decide_eq_true_eq, and_assoc]

theorem spiBoot_elsewhere (image : Bytes) (n : Nat) (crc : Word) (hboot : d.sys.boot ≠ 1) : spiBoot image n crc d = d := if_pos (.inl hboot)

end

/-- Settles O3: a load and a start by their runs, the self test's end by its answer, and the memory by what a store leaves of each byte. -/
theorem firmwareAndItsStagingMemory : Obligations.FirmwareAndItsStagingMemory := by
  unfold Obligations.FirmwareAndItsStagingMemory
  refine ⟨fun p s => ?firmware, fun m a bs k hm => ⟨Memory.store_keeps_wf m a bs hm, Memory.reset_wf, Memory.read_store m a bs k⟩⟩
  intro d b image
  refine ⟨fun ha => exec_answers _ cmdFirmwareLoad p s rfl ha { d with sys := { d.sys with staging := _ } } .done [] rfl rfl, ?start,
    fun failures repaired ms dom seq e hr hs he => ?tested⟩
  case start =>
    intro hs hplain hring hdom htver hinline hentry hlow hhigh hz hstarted hboot hcrc
    obtain ⟨hlast, hfence, hbeacon, _⟩ := id hplain
    have hread : Packet.indirect p = true → p.buf ≠ none := fun hi => absurd hi (Bool.eq_false_iff.1 hinline)
    have hsimple : cmdFirmwareStart.Simple (d.fetch p) (cmdFirmwareStart.entry d p) := ⟨hentry, hread, htver, hbeacon, rfl, rfl, rfl⟩
    have hpriv : cmdFirmwareStart.privilege (d.fetch p) (cmdFirmwareStart.entry d p) = none :=
      cmdFirmwareStart.privilege_ring0 _ _ hring hdom (.inr rfl)
    have hform : cmdFirmwareStart.form b = true := by
      have hfields : cmdFirmwareStart.form b = (within (ent b 16 4) 64 16777216 && zeros 16 b [(24, 63)]) := rfl
      rw [hfields, hz, within, decide_eq_true hlow, decide_eq_true hhigh]
      rfl
    have hbad := cmdFirmwareStart_bad (d.fetch p) (cmdFirmwareStart.entry d p) (image (ent b 16 4)) rfl hcrc
    by_cases hheader : Config.imageHeaderOk (image (ent b 16 4)) = true
    · rw [if_pos hheader] at hbad ⊢
      have haccepts : cmdFirmwareStart.accepts d p := ⟨hs, hplain, (hsimple.refuse_formed hpriv hform hbad).trans
        (cmdFirmwareStart_forbid (d.fetch p) _ hstarted hboot)⟩
      rw [exec_accepted _ cmdFirmwareStart p s rfl haccepts, cmdFirmwareStart_run]
      simp only [CmdDef.entry, hring]
      rfl
    · rw [if_neg hheader] at hbad ⊢
      exact exec_refused _ cmdFirmwareStart p s rfl hs hlast hfence .badParam [2] (hsimple.refuse_bad hpriv [2] hform hbad) (.inl (by decide))
  case tested =>
    rw [exec_selfTestEnd s hr, selfTestEnd_answers d e failures repaired ms dom seq hs he]
    rfl

/-! ### Reset and release (18 R423 to R425) -/

/-- The entry of a table that lists the members of a list which meet a test, each with the same value. -/
theorem Tbl.find_filterMap_const {α : Type} (l : List Nat) (p : Nat → Bool) (v : α) (k : Nat) :
    Tbl.find? (l.filterMap fun t => if p t then some (t, v) else none) k = if k ∈ l ∧ p k = true then some v else none := by
  induction l with
  | nil => simp [Tbl.find?]
  | cons t l ih =>
    by_cases ht : p t = true
    · by_cases hk : k = t
      · subst hk
        simp [Tbl.find?, ht]
      · simp [Tbl.find?, ht, hk, ih]
    · by_cases hk : k = t
      · subst hk
        simp [ht, ih]
      · simp [ht, hk, ih]

/-- The levels at TREE_LOS are the board's: a reset leaves them as they were. -/
theorem Dev.intoReset_losPin (d : Dev) (k : Nat) (hk : k < 48) : (d.intoReset.tree k).losPin = (d.tree k).losPin := by
  have htree : d.intoReset.tree k = (if k ∈ List.range 48 ∧ (d.tree k).losPin = true then some ({ losPin := true } : Tree) else none).getD {} :=
    congrArg (fun o : Option Tree => o.getD {}) (Tbl.find_filterMap_const (List.range 48) (fun t => (d.tree t).losPin)
      ({ losPin := true } : Tree) k)
  rw [htree]
  cases hpin : (d.tree k).losPin <;> simp [hk]

section
variable (d : Dev)

theorem resetAssert_long (ns : Nat) (h : 1000 ≤ ns) : resetAssert ns d = d.intoReset := if_pos h

theorem resetAssert_short (ns : Nat) (h : ns < 1000) : resetAssert ns d = d := if_neg (Nat.not_le.2 h)

theorem undervoltage_long (io : Bool) (mv ns : Nat) (h : 1000 ≤ ns) (hv : mv < if io then 1600 else 700) :
    undervoltage io mv ns d = d.intoReset := if_pos ⟨h, hv⟩

theorem undervoltage_filtered (io : Bool) (mv ns : Nat) (h : ns < 1000 ∨ (if io then 1600 else 700) ≤ mv) :
    undervoltage io mv ns d = d :=
  if_neg fun hn => h.elim (fun hs => Nat.not_le.2 hs hn.1) fun hv => Nat.not_le.2 hn.2 hv

theorem resetRelease_held (id : BitVec 3) (sel : Bool) (h : d.sys.inReset = true) : resetRelease id sel d =
    { d with sys := { d.sys with inReset := false, devId := id, bootSel := sel, boot := if sel then 1 else 0 } } := if_pos h

theorem resetRelease_running (id : BitVec 3) (sel : Bool) (h : d.sys.inReset = false) : resetRelease id sel d = d :=
  if_neg (Bool.eq_false_iff.1 h)

end

/-- The pins of reset act in every state. -/
theorem exec_resetAssert (s : State) (ns : Nat) : exec (.resetAssert ns) s = .next { s with dev := (resetAssert ns s.dev).settle } := rfl

theorem exec_supplyUndervoltage (s : State) (io : Bool) (mv ns : Nat) :
    exec (.supplyUndervoltage io mv ns) s = .next { s with dev := (undervoltage io mv ns s.dev).settle } := rfl

theorem exec_resetRelease (s : State) (id : BitVec 3) (sel : Bool) :
    exec (.resetRelease id sel) s = .next { s with dev := (resetRelease id sel s.dev).settle } := rfl

/-- Settles O46: each pin of reset and the boot ROM by its effect; the device in reset is the reset value, field by field. -/
theorem resetAndRelease : Obligations.ResetAndRelease := by
  unfold Obligations.ResetAndRelease
  intro s ns mv io sel id image n crc d limit bytes inReset
  have hreset : inReset { s with dev := d.intoReset.settle } :=
    ⟨rfl, rfl, rfl, rfl, rfl, rfl, rfl, rfl, rfl, rfl, rfl, rfl, rfl, rfl, rfl, d.intoReset_losPin⟩
  refine ⟨fun h => ⟨_, ?pulse, hreset⟩, fun h => ?glitch, fun h hv => ⟨_, ?brownout, hreset⟩, fun h => ?supplied, fun h => ?released,
    fun h => ?running, fun hr hboot hstarted => ?flash, fun hr hboot => ?elsewhere⟩
  case pulse => rw [exec_resetAssert, resetAssert_long d ns h]
  case glitch => rw [exec_resetAssert, resetAssert_short d ns h]
  case brownout => rw [exec_supplyUndervoltage, undervoltage_long d io mv ns h hv]
  case supplied => rw [exec_supplyUndervoltage, undervoltage_filtered d io mv ns h]
  case released => rw [exec_resetRelease, resetRelease_held d id sel h]
  case running => rw [exec_resetRelease, resetRelease_running d id sel h]
  case flash =>
    rw [exec_spiBoot s hr, spiBoot_reads d image n crc hboot hstarted]
    split <;> rfl
  case elsewhere => rw [exec_spiBoot s hr, spiBoot_elsewhere d image n crc hboot]

/-! ### Identity and boot state (17 R402, R407) -/

theorem allZero_slice (b : Bytes) (off len : Nat) (h : allZero b = true) : allZero (slice b off len) = true := by
  rw [allZero, List.all_eq_true] at h ⊢
  intro x hx
  rcases List.mem_append.1 hx with hmem | hpad
  · exact h x (List.mem_of_mem_drop (List.mem_of_mem_take hmem))
  · rw [List.eq_of_mem_replicate hpad]
    rfl

/-- Settles O57: no check of 02 R45 that is left to a plain read in its form can fail. -/
theorem identityReadAnswersInAnyState : Obligations.IdentityReadAnswersInAnyState := by
  unfold Obligations.IdentityReadAnswersInAnyState
  intro p s d hs hplain hdom htver hentry hread hzero
  obtain ⟨_, _, hbeacon, _⟩ := id hplain
  have hsimple : cmdIdentityRead.Simple (d.fetch p) (cmdIdentityRead.entry d p) := ⟨hentry, hread, htver, hbeacon, rfl, rfl, rfl⟩
  have hpriv : cmdIdentityRead.privilege (d.fetch p) (cmdIdentityRead.entry d p) = none := by
    simp [CmdDef.privilege, CmdDef.entry, cmdIdentityRead, hdom, htver, hbeacon, anyDomain]
  have hform : cmdIdentityRead.form (Packet.bytes p) = true := by
    have hfields : cmdIdentityRead.form (Packet.bytes p) = (allZero (slice (Packet.bytes p) 0 48) && true) := rfl
    rw [hfields, allZero_slice _ _ _ hzero, Bool.and_true]
  exact exec_reads _ cmdIdentityRead p s rfl ⟨hs, hplain, hsimple.refuse_formed hpriv hform rfl⟩ .done _ rfl

/-- Settles O59: the words are the registers, and each event leaves the boot state in its register. -/
theorem bootStatusReports : Obligations.BootStatusReports := by
  unfold Obligations.BootStatusReports
  intro p s id image n crc f repaired ms t d
  refine ⟨fun ha => exec_reads _ cmdBootStatus p s rfl ha .done _ rfl, fun h ht => ?host, fun h ht => ?flash,
    fun hr hboot hstarted hbad ht => ?rejected, fun hr hs hf ht => ?runs, fun hr hs hf ht => ?failed⟩
  case host =>
    rw [exec_resetRelease, resetRelease_held d id false h] at ht
    cases ht
    rfl
  case flash =>
    rw [exec_resetRelease, resetRelease_held d id true h] at ht
    cases ht
    rfl
  case rejected =>
    have himage : ¬(64 ≤ n ∧ n ≤ 16777216 ∧ crc32c (slice image 0 n) = crc ∧ Config.imageHeaderOk (slice image 0 n) = true) := by
      rintro ⟨hlow, _, hcrc, _⟩
      exact hbad.elim (Nat.not_lt.2 hlow) fun hne => hne hcrc
    rw [exec_spiBoot s hr, spiBoot_reads d image n crc hboot hstarted, if_neg himage] at ht
    cases ht
    rfl
  all_goals
    rw [exec_selfTestEnd s hr] at ht
    cases ht
    have hsys := selfTestEnd_sys d f repaired ms hs
    show (selfTestEnd f repaired ms d).sys.boot = _ ∧ (selfTestEnd f repaired ms d).sys.selfBits = _
      ∧ (selfTestEnd f repaired ms d).sys.repaired = _
    rw [hsys]
  case runs => exact ⟨if_pos hf, hf, rfl⟩
  case failed => exact ⟨if_neg hf, rfl, rfl⟩

/-! ### A device that is held (18 R425, 16 Table 16-6) -/

/-- In reset no packet is taken. -/
theorem command_reset (c : CmdDef) (p : Packet) (s : State) (h : s.dev.sys.inReset = true) :
    command c p s = .next { s with dev := s.dev.settle } := live_reset _ s h

/-- Every event but the pins of reset has an effect only out of reset; the other rows are command packets, which `hi` excludes. -/
theorem exec_event_reset (i : Instr) (s : State) (hi : commandOf i = none) (hr : s.dev.sys.inReset = true)
    (hassert : ∀ ns, i ≠ .resetAssert ns) (hsupply : ∀ io mv ns, i ≠ .supplyUndervoltage io mv ns)
    (hrelease : ∀ id sel, i ≠ .resetRelease id sel) : exec i s = .next { s with dev := s.dev.settle } := by
  cases i with
  | resetAssert ns => exact absurd rfl (hassert ns)
  | supplyUndervoltage io mv ns => exact absurd rfl (hsupply io mv ns)
  | resetRelease id sel => exact absurd rfl (hrelease id sel)
  | segmentFree idx o => exact live_reset (fun d => d.freeIndex o idx) s hr
  | _ => first
    | exact absurd hi (Option.some_ne_none _)
    | (show live _ s = _; exact live_reset _ s hr)

/-- After a fatal fault no packet is taken. -/
theorem command_fatal (c : CmdDef) (p : Packet) (s : State) (h : s.dev.sys.fatal = true) :
    command c p s = .next { s with dev := s.dev.settle } := by
  simp [command, live, act, h]

/-- Settles O47: what acts out of reset alone does nothing in reset, and a packet does nothing after a fatal fault. -/
theorem resetHoldsTheDevice : Obligations.ResetHoldsTheDevice := by
  unfold Obligations.ResetHoldsTheDevice
  intro i s
  refine ⟨fun hr hassert hsupply hrelease => ?held, fun hfatal hi => ?stopped⟩
  case held =>
    cases hi : commandOf i with
    | none => exact exec_event_reset i s hi hr hassert hsupply hrelease
    | some cp => rw [exec_command i cp.1 cp.2 s hi, command_reset cp.1 cp.2 s hr]
  case stopped =>
    obtain ⟨⟨c, p⟩, hcp⟩ := Option.ne_none_iff_exists'.1 hi
    rw [exec_command i c p s hcp, command_fatal c p s hfatal]

end Sys2Proof.Machine
end

section
/-!
SUPPORT. Ranges of counters, the count of one event, and dumps (16 R387 to R393).
-/
namespace Sys2Proof

/-! ### Parts of a table -/

/-- A table cut by its indices has the entries of the indices kept. -/
theorem Tbl.find_filter {α : Type} (t : Tbl α) (q : Nat → Bool) (k : Nat) :
    Tbl.find? (t.filter fun e => q e.1) k = if q k then t.find? k else none := by
  induction t with
  | nil => simp [Tbl.find?]
  | cons e t ih =>
    obtain ⟨j, v⟩ := e
    by_cases hk : k = j
    · subst hk
      cases hq : q k <;> simp [Tbl.find?, hq, ih]
    · cases hq : q j <;> simp [Tbl.find?, hq, hk, ih]

/-- An index is looked up in the first part of a table, and then in the second. -/
theorem Tbl.find_append {α : Type} (t u : Tbl α) (k : Nat) : Tbl.find? (t ++ u) k = (t.find? k).or (u.find? k) := by
  induction t with
  | nil => rfl
  | cons e t ih =>
    obtain ⟨j, v⟩ := e
    by_cases hk : k = j <;> simp [Tbl.find?, hk, ih]

/-- One value at each of a list of indices. -/
theorem Tbl.find_map_const {α : Type} (l : List Nat) (v : α) (k : Nat) :
    Tbl.find? (l.map fun i => (i, v)) k = if k ∈ l then some v else none := by
  induction l with
  | nil => rfl
  | cons i l ih =>
    by_cases hk : k = i <;> simp [Tbl.find?, hk, ih]

namespace Machine

/-! ### Ranges (R387, R389, R390) -/

section
variable {α : Type} (t : Tbl α) (first count k : Nat)

theorem outsideRange_find :
    (outsideRange t first count).find? k = if first ≤ k ∧ k < first + count then none else t.find? k := by
  have hcut := Tbl.find_filter t (fun j => decide (j < first) || decide (first + count ≤ j)) k
  rw [outsideRange, hcut]
  by_cases hin : first ≤ k ∧ k < first + count
  · rw [if_neg (by simp; omega), if_pos hin]
  · rw [if_pos (by simp; omega), if_neg hin]

theorem outsideRange_getD (x : α) :
    (outsideRange t first count).getD k x = if first ≤ k ∧ k < first + count then x else t.getD k x := by
  unfold Tbl.getD
  rw [outsideRange_find]
  split <;> rfl

theorem fillRange_find (v : α) :
    (fillRange t first count v).find? k = if first ≤ k ∧ k < first + count then some v else t.find? k := by
  have hlow := Tbl.find_filter t (fun j => decide (j < first)) k
  have hhigh := Tbl.find_filter t (fun j => decide (first + count ≤ j)) k
  have hmap : (List.range count).map (fun i => (first + i, v)) = ((List.range count).map (first + ·)).map fun i => (i, v) := by
    simp [Function.comp_def]
  have hmem : k ∈ (List.range count).map (first + ·) ↔ first ≤ k ∧ k < first + count := by
    simp only [List.mem_map, List.mem_range]
    constructor
    · rintro ⟨i, hi, rfl⟩
      omega
    · intro h
      exact ⟨k - first, by omega, by omega⟩
  rw [fillRange, Tbl.find_append, Tbl.find_append, hlow, hhigh, hmap, Tbl.find_map_const]
  simp only [hmem]
  by_cases hin : first ≤ k ∧ k < first + count
  · have hbelow : ¬k < first := by omega
    simp [hin, hbelow]
  · rcases Nat.lt_or_ge k first with hbelow | habove
    · have habove : ¬first + count ≤ k := by omega
      simp [hin, hbelow, habove]
    · have habove : first + count ≤ k := by omega
      have hbelow : ¬k < first := by omega
      simp [hin, hbelow, habove]

theorem fillRange_getD (v x : α) :
    (fillRange t first count v).getD k x = if first ≤ k ∧ k < first + count then v else t.getD k x := by
  unfold Tbl.getD
  rw [fillRange_find]
  split <;> rfl

end

/-! ### The count of one event (R387, R388) -/

section
variable (d : Dev) (i : Nat)

/-- Below its end a counter rises. -/
theorem Dev.count_below (h : d.counter i < 2 ^ 64 - 1) :
    d.count i = { d with health := { d.health with counters := d.health.counters.put i (d.counter i + 1) } } := by
  have hfits : Tbl.getD d.health.counters i 0 + 1 < 2 ^ 64 := by
    unfold Dev.counter at h
    omega
  have hadd : addCounter d.health.chain.length d.health.chain d.health.counters i 1 =
      (d.health.counters.put i (d.counter i + 1), false) := by
    unfold addCounter
    exact if_pos hfits
  unfold Dev.count Dev.countBy
  rw [hadd]
  rfl

/-- At its end a counter without its chain bit stays, and the alarm of saturation is set. -/
theorem Dev.count_saturated (h : d.counter i = 2 ^ 64 - 1) (hchain : Tbl.getD d.health.chain i false = false) :
    d.count i = Dev.alarm { d with health := { d.health with counters := d.health.counters.put i (2 ^ 64 - 1) } } 15 := by
  have hend : ¬Tbl.getD d.health.counters i 0 + 1 < 2 ^ 64 := by
    unfold Dev.counter at h
    omega
  have hadd : addCounter d.health.chain.length d.health.chain d.health.counters i 1 = (d.health.counters.put i (2 ^ 64 - 1), true) := by
    unfold addCounter
    rw [if_neg hend, hchain]
    rfl
  unfold Dev.count Dev.countBy
  rw [hadd]
  rfl

/-- At its end a counter with its chain bit carries into the next one. -/
theorem Dev.count_carries (h : d.counter i = 2 ^ 64 - 1) (hchain : Tbl.getD d.health.chain i false = true)
    (hnext : d.counter (i + 1) < 2 ^ 64 - 1) : d.count i = { d with health := { d.health with
      counters := (d.health.counters.put i 0).put (i + 1) (d.counter (i + 1) + 1) } } := by
  have hv : Tbl.getD d.health.counters i 0 + 1 = 2 ^ 64 := by
    unfold Dev.counter at h
    omega
  have hbits : ∃ fuel, d.health.chain.length = fuel + 1 := by
    cases hlist : d.health.chain with
    | nil => simp [hlist, Tbl.getD, Tbl.find?] at hchain
    | cons e l => exact ⟨l.length, rfl⟩
  obtain ⟨fuel, hfuel⟩ := hbits
  have hthere : Tbl.getD (d.health.counters.put i 0) (i + 1) 0 = d.counter (i + 1) := Tbl.getD_put_ne _ _ _ _ _ (Nat.succ_ne_self i)
  have hcarry : addCounter fuel d.health.chain (d.health.counters.put i 0) (i + 1) 1 =
      ((d.health.counters.put i 0).put (i + 1) (d.counter (i + 1) + 1), false) := by
    unfold addCounter
    rw [hthere]
    exact if_pos (by omega)
  have hadd : addCounter d.health.chain.length d.health.chain d.health.counters i 1 =
      ((d.health.counters.put i 0).put (i + 1) (d.counter (i + 1) + 1), false) := by
    rw [hfuel, addCounter, hv, if_neg (by decide), if_pos hchain, Nat.mod_self, Nat.div_self (by decide), hcarry]
  unfold Dev.count Dev.countBy
  rw [hadd]
  rfl

end

/-- Settles O42: ranges by what they leave of each index, and a count by the three cases of the counter that it adds to. -/
theorem counterCommandsAct : Obligations.CounterCommandsAct := by
  unfold Obligations.CounterCommandsAct
  refine ⟨fun p s => ?commands, fun d i k hi => ⟨fun hbelow => ?rises, fun hend hchain => ?stays, fun hend hchain hnext => ?carries⟩⟩
  case commands =>
    intro d b first n
    refine ⟨fun ha => ?read, fun ha => ?clear, fun ha => ?chain⟩
    case read =>
      exact exec_answers _ cmdCounterRead p s rfl ha _ .done _ rfl rfl
    case clear =>
      exact ⟨{ d.health with counters := outsideRange d.health.counters first n },
        exec_answers _ cmdCounterClear p s rfl ha { d with health := _ } .done [] rfl rfl, rfl,
        fun k => outsideRange_getD d.health.counters first n k 0⟩
    case chain =>
      refine ⟨{ d.health with chain :=
          (if ent b 24 1 = 1 then fillRange d.health.chain first n true else outsideRange d.health.chain first n) },
        exec_answers _ cmdCounterChainSet p s rfl ha { d with health := _ } .done [] rfl rfl, rfl, fun k => ?_⟩
      dsimp only
      by_cases hset : ent b 24 1 = 1
      · rw [if_pos hset, decide_eq_true hset, fillRange_getD]
      · rw [if_neg hset, decide_eq_false hset, outsideRange_getD]
  case rises =>
    rw [d.count_below i hbelow]
    exact ⟨Tbl.getD_put _ _ _ _, fun hk => Tbl.getD_put_ne _ _ _ _ _ hk⟩
  case stays =>
    rw [d.count_saturated i hend hchain]
    refine ⟨Tbl.getD_put _ _ _ _, ?_, Dev.mem_stick _ 0 15⟩
    by_cases hk : k = i
    · subst hk
      exact (Tbl.getD_put _ _ _ _).trans hend.symm
    · exact Tbl.getD_put_ne _ _ _ _ _ hk
  case carries =>
    rw [d.count_carries i hend hchain hnext]
    exact ⟨(Tbl.getD_put_ne _ _ _ _ _ (Nat.succ_ne_self i).symm).trans (Tbl.getD_put _ _ _ _), Tbl.getD_put _ _ _ _⟩

/-! ### Dumps (R391 to R393) -/

theorem Dev.setDumps_put (d : Dev) (n : Nat) (x y : DumpSet) :
    ((d.setDumps fun u => u.put n x).setDumps fun u => u.put n y) = d.setDumps fun u => u.put n y := by
  simp only [Dev.setDumps, Tbl.put_put]

section
variable (d : Dev) (n : Nat) (x : DumpSet) (h : d.dump? n = some x)
include h

theorem Dev.setDumps_adjust (f : DumpSet → DumpSet) : (d.setDumps fun u => u.adjust n f) = d.setDumps fun u => u.put n (f x) := by
  have hfind : d.health.dumps.find? n = some x := h
  simp only [Dev.setDumps, Tbl.adjust, hfind]

/-- A dump that comes too early is counted in its set's record (R393). -/
theorem Dev.skipDump_eq : d.skipDump n =
    ((d.setDumps fun u => u.put n { x with skips := x.skips + 1, skipped := true }).count (0x3E00 + 43)).alarm 21 := by
  rw [Dev.skipDump, d.setDumps_adjust n x h]
  rfl

theorem dumpInstant_stopped (hperiod : x.period = 0) : dumpInstant n d = d := by
  rw [dumpInstant, h]
  exact if_pos hperiod

/-- The next whole multiple of PERIOD that the set has not had (R391). -/
def Dev.dumpAt : Nat := max (roundUp d.now (x.period * 1000000)) ((x.last / (x.period * 1000000) + 1) * (x.period * 1000000))

theorem dumpInstant_taken (hperiod : x.period ≠ 0) (hidle : x.writing = none) :
    dumpInstant n d = (d.goTime (d.dumpAt x)).beginDump n { x with last := d.dumpAt x } (d.dumpAt x) none := by
  rw [dumpInstant, h]
  refine (if_neg hperiod).trans (if_neg ?_)
  rw [hidle]
  decide

theorem dumpInstant_early (hperiod : x.period ≠ 0) (hbusy : x.writing ≠ none) : dumpInstant n d =
    (((d.goTime (d.dumpAt x)).setDumps fun u => u.put n { x with last := d.dumpAt x, skips := x.skips + 1, skipped := true }).count
      (0x3E00 + 43)).alarm 21 := by
  have hmoved : (d.goTime (d.dumpAt x)).dump? n = some x := by
    rw [(d.goTime_frame _).1]
    exact h
  have hearly : dumpInstant n d =
      ((d.goTime (d.dumpAt x)).setDumps fun u => u.adjust n fun (y : DumpSet) => { y with last := d.dumpAt x }).skipDump n := by
    rw [dumpInstant, h]
    exact (if_neg hperiod).trans (if_pos (Option.isSome_iff_ne_none.2 hbusy))
  have hset : ((d.goTime (d.dumpAt x)).setDumps fun u => u.put n { x with last := d.dumpAt x }).dump? n =
      some { x with last := d.dumpAt x } := Tbl.find_put _ _ _
  rw [hearly, Dev.setDumps_adjust _ n x hmoved, Dev.skipDump_eq _ n _ hset, Dev.setDumps_put]

/-- A dump that is complete has its header before its values (R392). -/
def Dev.closeDump (r : DumpRun) : Dev :=
  (d.hostWrite (x.buffer r.num) (dumpHeader n (totalOf x.ranges) r)).setDumps fun u => u.put n { x with writing := none }

variable (r : DumpRun) (hwriting : x.writing = some r)
include hwriting

theorem dumpWriteComplete_unasked (hexec : r.exec = none) : dumpWriteComplete n d = d.closeDump n x r := by
  simp only [dumpWriteComplete, h, hwriting, hexec]
  rfl

theorem dumpWriteComplete_answers (dom seq : Nat) (hexec : r.exec = some (dom, seq)) :
    dumpWriteComplete n d = (d.closeDump n x r).finishId dom seq .done [r.num % 2 ^ 32] := by
  simp only [dumpWriteComplete, h, hwriting, hexec]
  rfl

end

theorem exec_dumpInstant (n : Nat) (s : State) (h : s.dev.sys.inReset = false) :
    exec (.dumpInstant n) s = .next { s with dev := (dumpInstant n s.dev).settle } := live_running _ s h

theorem exec_dumpWriteComplete (n : Nat) (s : State) (h : s.dev.sys.inReset = false) :
    exec (.dumpWriteComplete n) s = .next { s with dev := (dumpWriteComplete n s.dev).settle } := live_running _ s h

section
variable (d : Dev) (e : Exec) (x : DumpSet) (h : d.dump? (ent e.par 16 1) = some x)
include h

theorem cmdDumpStart_taken (hidle : x.writing = none) : cmdDumpStart.run e d =
    (d.park e).beginDump (ent e.par 16 1) x (e.stamp.getD d.now) (some (e.dom, e.seq)) := by
  simp only [cmdDumpStart, h, hidle]
  rfl

theorem cmdDumpStart_early (hbusy : x.writing ≠ none) : cmdDumpStart.run e d =
    (((d.setDumps fun u => u.put (ent e.par 16 1) { x with skips := x.skips + 1, skipped := true }).count (0x3E00 + 43)).alarm 21).finish
      e .busy [] := by
  rw [← d.skipDump_eq _ x h]
  simp only [cmdDumpStart, h]
  exact if_pos (Option.isSome_iff_ne_none.2 hbusy)

end

/-- Settles O43: a set by the table that it leaves, a start and an instant by whether a dump is being written, and its end by who asked. -/
theorem dumpsAreTaken : Obligations.DumpsAreTaken := by
  unfold Obligations.DumpsAreTaken
  intro p s n x r d b k buf values begun skipped ms t header closed
  refine ⟨fun ha => exec_answers _ cmdDumpSet p s rfl ha _ .done [] rfl rfl, fun ha hx hidle => ?start, fun ha hx hbusy => ?busy,
    fun hr hx => ⟨fun hperiod => ?stopped, fun hperiod hidle => ?periodic, fun hperiod hbusy => ?early, fun hwriting hexec => ?unasked,
      fun dom seq hwriting hexec => ?answers⟩⟩
  case start =>
    rw [exec_accepted _ cmdDumpStart p s rfl ha, cmdDumpStart_taken (d.fetch p) (cmdDumpStart.entry d p) x hx hidle]
    rfl
  case busy =>
    rw [exec_accepted _ cmdDumpStart p s rfl ha, cmdDumpStart_early (d.fetch p) (cmdDumpStart.entry d p) x hx hbusy]
    rfl
  case stopped => rw [exec_dumpInstant n s hr, dumpInstant_stopped d n x hx hperiod]
  case periodic =>
    rw [exec_dumpInstant n s hr, dumpInstant_taken d n x hx hperiod hidle]
    rfl
  case early =>
    rw [exec_dumpInstant n s hr, dumpInstant_early d n x hx hperiod hbusy]
    rfl
  case unasked =>
    rw [exec_dumpWriteComplete n s hr, dumpWriteComplete_unasked d n x hx r hwriting hexec]
    rfl
  case answers =>
    rw [exec_dumpWriteComplete n s hr, dumpWriteComplete_answers d n x hx r hwriting dom seq hexec]
    rfl

end Machine
end Sys2Proof
end

section
/-!
SUPPORT. Alarms, the fault log, sensors and the life ledger (16 R395, R397, R399, R434).
-/
namespace Sys2Proof

/-- Changing every entry of a table, after an entry is put or before. -/
theorem Tbl.mapAll_put {α : Type} (t : Tbl α) (i : Nat) (v : α) (f : Nat → α → α) : (t.put i v).mapAll f = (t.mapAll f).put i (f i v) := by
  induction t with
  | nil => rfl
  | cons e t ih =>
    obtain ⟨j, w⟩ := e
    have hcons : Tbl.mapAll ((j, w) :: t) f = (j, f j w) :: Tbl.mapAll t f := rfl
    rw [hcons]
    by_cases hbefore : i < j
    · simp only [Tbl.put, if_pos hbefore]
      rfl
    · by_cases hat : i = j
      · subst hat
        simp only [Tbl.put, if_neg hbefore, if_true]
        rfl
      · simp only [Tbl.put, if_neg hbefore, if_neg hat, ← ih]
        rfl

namespace Machine

/-! ### Sticky alarms (R395) -/

/-- A page without the masked sticky bits. -/
def Dom.unstuck (m : Dom) (mask : Nat) : Dom := { m with sticky := m.sticky.filter fun b => !bit mask b }

/-- Every page without the masked sticky bits. -/
def Dev.unstick (d : Dev) (mask : Nat) : Dev := { d with doms := d.doms.mapAll fun _ m => m.unstuck mask }

section
variable (d : Dev) (mask n : Nat)

theorem Dev.unstick_dom : (d.unstick mask).dom n = (d.dom n).unstuck mask := by
  unfold Dev.unstick Dev.dom Tbl.getD
  rw [Tbl.find_mapAll]
  cases d.doms.find? n <;> rfl

theorem Dom.mem_unstuck (m : Dom) (a : Nat) : a ∈ (m.unstuck mask).sticky ↔ a ∈ m.sticky ∧ bit mask a = false := by
  simp [Dom.unstuck, List.mem_filter]

theorem Dev.unstick_fetch (p : Packet) : (d.fetch p).unstick mask = (d.unstick mask).fetch p := by
  have hdom := d.unstick_dom mask p.ring
  unfold Dev.fetch Dev.setDom
  rw [hdom]
  unfold Dev.unstick
  rw [Tbl.mapAll_put]
  rfl

/-- A reply does not depend on the alarms. -/
theorem Dev.unstick_replyOut (p : Packet) (op : Nat) (st : Status) (res : List Nat) :
    (d.unstick mask).replyOut p op st res = d.replyOut p op st res := by
  unfold Dev.replyOut
  rw [Dev.unstick_dom]
  rfl

/-- An answer leaves every page's alarms. -/
theorem Dev.answer_sticky (p : Packet) (op : Nat) (st : Status) (res : List Nat) :
    ((d.answer p op st res).dom n).sticky = (d.dom n).sticky := by
  by_cases hn : n = p.ring
  · subst hn
    have hpage : (d.answer p op st res).dom p.ring =
        { d.dom p.ring with nextSeq := (d.dom p.ring).nextSeq + 1, replyIdx := (d.dom p.ring).replyIdx + 1 } := Tbl.getD_put _ _ _ _
    rw [hpage]
  · exact congrArg Dom.sticky (Tbl.getD_put_ne _ _ _ _ _ hn)

end

theorem cmdAlarmClear_run (d : Dev) (e : Exec) : cmdAlarmClear.run e d = (d.unstick (ent e.par 16 32)).finish e .done [] := rfl

/-! ### The fault log and the sensors (R434, R397) -/

theorem FaultRec.bytes_eq (r : FaultRec) :
    r.bytes = beBytes 4 r.index ++ beBytes 1 r.cls ++ [r.detail, 0#8, 0#8] ++ beBytes 8 r.time := by
  simp [FaultRec.bytes]

theorem cmdSensorRead_measured (d : Dev) (e : Exec) (v : Int) (h : d.health.sensors.find? (ent e.par 16 1) = some v) :
    cmdSensorRead.run e d = d.finish e .done [wrap 32 v, wrap 32 (Tbl.getD d.health.highs (ent e.par 16 1) v)] := by
  simp only [cmdSensorRead, h]

/-! ### Parts of a record -/

theorem slice_whole (a : Bytes) (len : Nat) (h : a.length = len) : slice a 0 len = a := by
  subst h
  simp [slice]

theorem slice_append_left (a b : Bytes) (off len : Nat) (h : off + len ≤ a.length) : slice (a ++ b) off len = slice a off len := by
  have hdrop : (a ++ b).drop off = a.drop off ++ b := List.drop_append_of_le_length (by omega)
  have htake : (a.drop off ++ b).take len = (a.drop off).take len := List.take_append_of_le_length (by rw [List.length_drop]; omega)
  simp only [slice, hdrop, htake]

theorem slice_append_end (a b : Bytes) (off len : Nat) (ha : a.length = off) (hb : b.length = len) : slice (a ++ b) off len = b := by
  subst ha
  have hdrop : slice (a ++ b) a.length len = slice b 0 len := by simp [slice]
  rw [hdrop, slice_whole b len hb]

theorem length_slice (a : Bytes) (off len : Nat) : (slice a off len).length = len := by
  simp only [slice, List.length_append, List.length_take, List.length_replicate]
  omega

/-! ### The life ledger (R399) -/

section
variable (l : Ledger)

theorem Ledger.body_length : l.body.length = 60 := by
  simp only [Ledger.body, List.length_append, length_beBytes, List.length_replicate]

/-- Where the fields of Table 16-8 lie. -/
theorem Ledger.body_fields : slice l.body 0 8 = beBytes 8 Config.serial.toNat ∧ slice l.body 16 8 = beBytes 8 l.powered
    ∧ slice l.body 24 8 = beBytes 8 l.hot95 ∧ slice l.body 32 8 = beBytes 8 l.hot100
    ∧ slice l.body 40 2 = beBytes 2 (wrap 16 l.highest) ∧ slice l.body 48 12 = List.replicate 12 0#8 := by
  refine ⟨?_, ?_, ?_, ?_, ?_, ?_⟩ <;>
    simp (disch := simp) only [Ledger.body, slice_append_left, slice_append_end, slice_whole]

end

/-- The device with another life ledger. -/
def Dev.withLedger (d : Dev) (l : Ledger) : Dev := { d with health := { d.health with ledger := l } }

theorem cmdLedgerLoad_run (d : Dev) (e : Exec) : cmdLedgerLoad.run e d = (d.withLedger (d.health.ledger.load e.par)).finish e .done [] := rfl

theorem cmdLedgerLoad_entry_run (d : Dev) (p : Packet) : cmdLedgerLoad.run (cmdLedgerLoad.entry d p) (d.fetch p) =
    ((d.withLedger (d.health.ledger.load (Packet.bytes p))).fetch p).finish (cmdLedgerLoad.entry d p) .done [] := by
  have hpar : (cmdLedgerLoad.entry d p).par = Packet.bytes p := rfl
  have hhealth : (d.fetch p).health = d.health := rfl
  have hfetch : ∀ l, (d.fetch p).withLedger l = (d.withLedger l).fetch p := fun _ => rfl
  rw [cmdLedgerLoad_run, hpar, hhealth, hfetch]

theorem exec_ledgerLoad (p : Packet) (s : State) (ha : cmdLedgerLoad.accepts s.dev p) (l : Ledger)
    (hl : s.dev.health.ledger.load (Packet.bytes p) = l) :
    exec (.ledgerLoad p) s = .next { s with dev := (Dev.answer (s.dev.withLedger l) p 0x0F0A .done []).settle } :=
  exec_answers _ cmdLedgerLoad p s rfl ha (s.dev.withLedger l) .done [] rfl (hl ▸ cmdLedgerLoad_entry_run s.dev p)

/-- A record of zeros does not hold its own CRC. -/
theorem crc32c_zeros : (crc32c (slice (List.replicate 64 0#8) 0 60)).toNat ≠ field (List.replicate 64 0#8) 60 4 := by decide +kernel

/-- A record with its CRC has been read, inline or as a buffer. -/
theorem Packet.buf_of_crc (p : Packet) (hlen : (Packet.bytes p).length = 64)
    (hcrc : field (Packet.bytes p) 60 4 = (crc32c (slice (Packet.bytes p) 0 60)).toNat) (hind : Packet.indirect p = true) : p.buf ≠ none := by
  intro hnone
  have hslice : Packet.bytes p = slice [] 0 (Packet.length p) := by rw [Packet.bytes, if_pos hind, hnone]; rfl
  have hlength : Packet.length p = 64 := by rw [← hlen, hslice, length_slice]
  have hzeros : Packet.bytes p = List.replicate 64 0#8 := by rw [hslice, hlength]; rfl
  rw [hzeros] at hcrc
  exact crc32c_zeros hcrc.symm

theorem cmdLedgerLoad_form (b : Bytes) (hlen : b.length = 64) (hz : zeros 0 b [(48, 59)] = true)
    (hcrc : field b 60 4 = (crc32c (slice b 0 60)).toNat) : cmdLedgerLoad.form b = true ↔ field b 0 8 = Config.serial.toNat := by
  have hfields : cmdLedgerLoad.form b = (b.length == 64 && zeros 0 b [(48, 59)] && field b 60 4 == (crc32c (slice b 0 60)).toNat
    && field b 0 8 == Config.serial.toNat) := rfl
  rw [hfields, hlen, hz, hcrc]
  simp

theorem cmdLedgerLoad_forbid (d : Dev) (e : Exec) (hv : d.vers.committed = false) (hl : d.health.ledger.loaded = false) :
    cmdLedgerLoad.forbid d e = none := by
  refine if_neg ?_
  rw [hv, hl]
  decide

/-- Settles O44: the clear by what each page keeps, the reads by their bytes, and the load by the serial number of its record. -/
theorem healthCommandsAct : Obligations.HealthCommandsAct := by
  unfold Obligations.HealthCommandsAct
  intro p s v d b l loaded
  refine ⟨fun ha => ?clear, fun ha => ?log, fun ha hv => ?sensor, fun ha => ?ledgerRead,
    fun hs hplain hring hdom htver hboot hlen hentry hz hcrc hvers hloaded => ?ledgerLoad⟩
  case clear =>
    have hdom := fun n => d.unstick_dom (ent b 16 32) n
    have hexec := exec_answers (.alarmClear p) cmdAlarmClear p s rfl ha (d.unstick (ent b 16 32)) .done [] (by rw [hdom]; rfl)
      (by rw [cmdAlarmClear_run]; exact congrArg (fun D => Dev.finish D _ .done []) (d.unstick_fetch _ p))
    refine ⟨_, hexec, fun n a => ?_, rfl, ?_⟩
    · have hpage : (((d.unstick (ent b 16 32)).answer p 0x0F06 .done []).settle.dom n).sticky = ((d.dom n).unstuck (ent b 16 32)).sticky := by
        rw [← hdom]
        exact Dev.answer_sticky (d.unstick (ent b 16 32)) n p 0x0F06 .done []
      rw [← Dom.mem_unstuck, ← hpage]
      rfl
    · rw [← d.unstick_replyOut (ent b 16 32) p]
      rfl
  case log =>
    have hbytes : d.health.log.flatMap (fun r => beBytes 4 r.index ++ beBytes 1 r.cls ++ [r.detail, 0#8, 0#8] ++ beBytes 8 r.time) =
        d.health.log.flatMap FaultRec.bytes :=
      congrArg (List.flatMap · d.health.log) (funext fun r => r.bytes_eq.symm)
    rw [hbytes]
    exact exec_answers _ cmdFaultLogRead p s rfl ha (d.hostWrite _ _) .done _ rfl rfl
  case sensor =>
    exact exec_reads _ cmdSensorRead p s rfl ha .done _ (cmdSensorRead_measured _ _ v hv)
  case ledgerRead =>
    obtain ⟨hserial, hpowered, hhot95, hhot100, hhighest, hzero⟩ := l.body_fields
    exact ⟨l.body, l.body_length, hserial, hpowered, hhot95, hhot100, hhighest, hzero,
      exec_answers _ cmdLedgerRead p s rfl ha (d.hostWrite _ _) .done [] rfl rfl⟩
  case ledgerLoad =>
    obtain ⟨hlast, hfence, hbeacon, _⟩ := id hplain
    have hsimple : cmdLedgerLoad.Simple (d.fetch p) (cmdLedgerLoad.entry d p) :=
      ⟨hentry, Packet.buf_of_crc p hlen hcrc, htver, hbeacon, rfl, rfl, rfl⟩
    have hpriv : cmdLedgerLoad.privilege (d.fetch p) (cmdLedgerLoad.entry d p) = none :=
      cmdLedgerLoad.privilege_ring0 _ _ hring hdom (.inl hboot)
    have hform := cmdLedgerLoad_form b hlen hz hcrc
    by_cases hserial : field b 0 8 = Config.serial.toNat
    · have haccepts : cmdLedgerLoad.accepts d p := ⟨hs, hplain,
        (hsimple.refuse_formed hpriv (hform.2 hserial) rfl).trans (cmdLedgerLoad_forbid _ _ hvers hloaded)⟩
      rw [if_pos hserial]
      exact exec_ledgerLoad p s haccepts loaded rfl
    · have hmalformed : cmdLedgerLoad.form b = false := Bool.eq_false_iff.2 (mt hform.1 hserial)
      rw [if_neg hserial]
      exact exec_refused _ cmdLedgerLoad p s rfl hs hlast hfence .badParam [] (hsimple.refuse_malformed hpriv hmalformed) (.inl (by decide))

end Machine
end Sys2Proof
end

section
/-!
SUPPORT. A round of claims on a line (14 R345, Table 14-7), and which of two devices wins it.
-/
namespace Sys2Proof.Machine

/-! ### One device on a line -/

/-- The device has left the round by the end of its first claim slots: it released in one and sampled low. -/
def claimLost (claim : Nat) (low : List Bool) (n : Nat) : Prop := ∃ i < n, low.getD (i + 1) false = true ∧ claim.testBit (31 - i) = false

theorem bit_eq_testBit (v i : Nat) : bit v i = v.testBit i := by
  rw [Nat.testBit_eq_decide_div_mod_eq]
  rfl

section
variable (claim : Nat) (low : List Bool) (drives : Bool)

theorem staysIn_iff (n : Nat) : staysIn claim low (n + 1) = true ↔ ¬claimLost claim low n := by
  simp only [staysIn, claimLost, Nat.add_sub_cancel, List.all_eq_true, List.mem_range, Bool.or_eq_true, bit_eq_testBit, Bool.not_eq_true',
    not_exists, not_and, Bool.not_eq_false]
  refine forall_congr' fun i => forall_congr' fun _ => ?_
  cases claim.testBit (31 - i) <;> simp

theorem lineRound_ok : (lineRound drives claim low).1 = true ↔ low.getD 0 false = true ∧ low.getD 33 false = false := by
  simp only [lineRound, Bool.and_eq_true, Bool.not_eq_true']

theorem lineRound_won : (lineRound drives claim low).2 = true ↔
    drives = true ∧ low.getD 0 false = true ∧ low.getD 33 false = false ∧ ¬claimLost claim low 32 := by
  simp only [lineRound, Bool.and_eq_true, Bool.not_eq_true', staysIn_iff]
  constructor
  · rintro ⟨⟨⟨hsync, hrelease⟩, hdrives⟩, hstays⟩
    exact ⟨hdrives, hsync, hrelease, hstays⟩
  · rintro ⟨hdrives, hsync, hrelease, hstays⟩
    exact ⟨⟨⟨hsync, hrelease⟩, hdrives⟩, hstays⟩

theorem lineDrives_length : (lineDrives drives claim low).length = 34 := by simp [lineDrives]

theorem lineDrives_getD (i : Nat) (hi : i < 34) : (lineDrives drives claim low).getD i false = slotDrive drives claim low i := by
  simp [lineDrives, List.getD_eq_getElem?_getD, List.getElem?_range hi]

/-- A claim slot is driven where its bit is set and the device is still in the round. -/
theorem slotDrive_claim (i : Nat) (hi : i < 32) :
    slotDrive true claim low (i + 1) = true ↔ claim.testBit (31 - i) = true ∧ ¬claimLost claim low i := by
  have hslot : 32 - (i + 1) = 31 - i := by omega
  have hrange : i + 1 ≤ 32 := hi
  have hsync : (i + 1 == 0) = false := rfl
  simp only [slotDrive, hslot, hsync, decide_eq_true hrange, Bool.true_and, Bool.false_or, Bool.and_eq_true, bit_eq_testBit, staysIn_iff]

theorem slotDrive_iff (i : Nat) (hi : i < 34) : slotDrive drives claim low i = true ↔
    drives = true ∧ (i = 0 ∨ (i ≤ 32 ∧ claim.testBit (32 - i) = true ∧ ¬claimLost claim low (i - 1))) := by
  cases i with
  | zero => simp [slotDrive]
  | succ i =>
    have hstays := staysIn_iff claim low i
    have hsync : (i + 1 == 0) = false := rfl
    simp only [slotDrive, hsync, Bool.false_or, Bool.and_eq_true, decide_eq_true_eq, bit_eq_testBit, hstays, Nat.add_sub_cancel,
      Nat.succ_ne_zero, false_or, and_assoc]

end

/-! ### Two devices on a line -/

/-- Of two claims, the higher has the first bit in which they differ. -/
theorem exists_deciding_bit (w own partner : Nat) (hlt : partner < own) (hfits : own < 2 ^ w) :
    ∃ k < w, own.testBit k = true ∧ partner.testBit k = false ∧ ∀ j, k < j → own.testBit j = partner.testBit j := by
  induction w generalizing own partner with
  | zero => exact absurd hlt (Nat.not_lt.2 (Nat.le_trans (Nat.lt_succ_iff.1 hfits) (Nat.zero_le partner)))
  | succ w ih =>
    by_cases hhalf : partner / 2 < own / 2
    · obtain ⟨k, hk, hown, hpartner, hsame⟩ := ih (own / 2) (partner / 2) hhalf (by omega)
      refine ⟨k + 1, Nat.succ_lt_succ hk, ?_, ?_, fun j hj => ?_⟩
      · rw [Nat.testBit_succ, hown]
      · rw [Nat.testBit_succ, hpartner]
      · obtain ⟨i, rfl⟩ : ∃ i, j = i + 1 := ⟨j - 1, by omega⟩
        rw [Nat.testBit_succ, Nat.testBit_succ, hsame i (by omega)]
    · have hodd : own % 2 = 1 ∧ ¬partner % 2 = 1 := by omega
      have hequal : own / 2 = partner / 2 := by omega
      refine ⟨0, Nat.succ_pos w, ?_, ?_, fun j hj => ?_⟩
      · rw [Nat.testBit_zero, decide_eq_true hodd.1]
      · rw [Nat.testBit_zero, decide_eq_false hodd.2]
      · obtain ⟨i, rfl⟩ : ∃ i, j = i + 1 := ⟨j - 1, by omega⟩
        rw [Nat.testBit_succ, Nat.testBit_succ, hequal]

section
variable (own partner : Nat) (low : List Bool)
  (hlow : ∀ i < 32, low.getD (i + 1) false = (slotDrive true own low (i + 1) || slotDrive true partner low (i + 1)))
include hlow

/-- A claim slot samples low where one of the devices drives it. -/
theorem claimSlot_low (i : Nat) (hi : i < 32) : low.getD (i + 1) false = true ↔
    (own.testBit (31 - i) = true ∧ ¬claimLost own low i) ∨ (partner.testBit (31 - i) = true ∧ ¬claimLost partner low i) := by
  rw [hlow i hi, Bool.or_eq_true, slotDrive_claim own low i hi, slotDrive_claim partner low i hi]

/-- The device with the higher claim stays in the round, and the other leaves it in the first slot in which their claims differ. -/
theorem claimLost_of_lt (hlt : partner < own) (hfits : own < 2 ^ 32) : ¬claimLost own low 32 ∧ claimLost partner low 32 := by
  obtain ⟨k, hk, hown, hpartner, hsame⟩ := exists_deciding_bit 32 own partner hlt hfits
  have hslot : 31 - (31 - k) = k := by omega
  have hbefore : ∀ n ≤ 31 - k, ¬claimLost own low n := by
    rintro n hn ⟨i, hi, hsampled, hclear⟩
    have hpartner : partner.testBit (31 - i) = false := (hsame (31 - i) (by omega)).symm.trans hclear
    rcases (claimSlot_low own partner low hlow i (by omega)).1 hsampled with ⟨hset, _⟩ | ⟨hset, _⟩
    · exact Bool.false_ne_true (hclear.symm.trans hset)
    · exact Bool.false_ne_true (hpartner.symm.trans hset)
  have hdecided : low.getD (31 - k + 1) false = true :=
    (claimSlot_low own partner low hlow (31 - k) (by omega)).2 (.inl ⟨by rw [hslot]; exact hown, hbefore _ (Nat.le_refl _)⟩)
  have hgone : ∀ n, 31 - k < n → claimLost partner low n := fun n hn => ⟨31 - k, hn, hdecided, by rw [hslot]; exact hpartner⟩
  refine ⟨?_, hgone 32 (by omega)⟩
  rintro ⟨i, hi, hsampled, hclear⟩
  rcases Nat.lt_trichotomy i (31 - k) with hearly | hat | hlate
  · exact hbefore (31 - k) (Nat.le_refl _) ⟨i, hearly, hsampled, hclear⟩
  · rw [hat, hslot, hown] at hclear
    exact Bool.false_ne_true hclear.symm
  · rcases (claimSlot_low own partner low hlow i hi).1 hsampled with ⟨hset, _⟩ | ⟨_, hin⟩
    · exact Bool.false_ne_true (hclear.symm.trans hset)
    · exact hin (hgone i hlate)

/-- So the higher claim wins the line, and the lower one does not. -/
theorem lineRound_higher_wins (hsync : low.getD 0 false = true) (hrelease : low.getD 33 false = false) (hlt : partner < own)
    (hfits : own < 2 ^ 32) : lineRound true own low = (true, true) ∧ lineRound true partner low = (true, false) := by
  obtain ⟨hstays, hleaves⟩ := claimLost_of_lt own partner low hlow hlt hfits
  refine ⟨Prod.ext ?_ ?_, Prod.ext ?_ ?_⟩
  · exact (lineRound_ok own low true).2 ⟨hsync, hrelease⟩
  · exact (lineRound_won own low true).2 ⟨rfl, hsync, hrelease, hstays⟩
  · exact (lineRound_ok partner low true).2 ⟨hsync, hrelease⟩
  · exact Bool.eq_false_iff.2 fun h => ((lineRound_won partner low true).1 h).2.2.2 hleaves

end

/-- Settles O38: each line by its slots, and the two devices by the first bit in which their claims differ. -/
theorem higherClaimWinsTheLine : Obligations.HigherClaimWinsTheLine := by
  unfold Obligations.HigherClaimWinsTheLine
  intro own partner drives slots low lost
  refine ⟨lineRound_ok own slots drives, lineRound_won own slots drives, lineDrives_length own slots drives, fun i hi => ?drive,
    fun hown hpartner hne hlow => ?wins⟩
  case drive =>
    rw [lineDrives_getD own slots drives i hi]
    exact slotDrive_iff own slots drives i hi
  case wins =>
    have hslot : ∀ i < 34, slots.getD i false = (slotDrive true own slots i || slotDrive true partner slots i) := fun i hi => by
      rw [← lineDrives_getD own slots true i hi, ← lineDrives_getD partner slots true i hi]
      exact hlow i hi
    have hsync : slots.getD 0 false = true := hslot 0 (by decide)
    have hrelease : slots.getD 33 false = false := hslot 33 (by decide)
    rcases Nat.lt_or_gt_of_ne hne with hlt | hlt
    · have hclaims := fun i (hi : i < 32) => (hslot (i + 1) (by omega)).trans (Bool.or_comm _ _)
      obtain ⟨hwins, hloses⟩ := lineRound_higher_wins partner own slots hclaims hsync hrelease hlt hpartner
      rw [hwins, hloses, decide_eq_true hlt, decide_eq_false (Nat.lt_asymm hlt)]
      exact ⟨rfl, rfl⟩
    · have hclaims := fun i (hi : i < 32) => hslot (i + 1) (by omega)
      obtain ⟨hwins, hloses⟩ := lineRound_higher_wins own partner slots hclaims hsync hrelease hlt hown
      rw [hwins, hloses, decide_eq_true hlt, decide_eq_false (Nat.lt_asymm hlt)]
      exact ⟨rfl, rfl⟩

end Sys2Proof.Machine
end

section
/-!
SUPPORT. The line code of PAM4: bit pairs, Gray code, precoding and its inverse, and which lanes precode (15 R369).
-/
namespace Sys2Proof.Machine

/-! ### Bit pairs and symbols -/

theorem bitPairs_length (bs : List Bool) : (bitPairs bs).length = bs.length / 2 := by
  fun_induction bitPairs bs with
  | case1 a b t ih => simp only [List.length_cons, ih]; omega
  | case2 bs hshort =>
    match bs, hshort with
    | [], _ => rfl
    | [_], _ => exact (Nat.div_eq_of_lt Nat.one_lt_two).symm
    | a :: b :: t, h => exact absurd rfl (h a b t)

theorem bitPairs_lt (bs : List Bool) : ∀ x ∈ bitPairs bs, x < 4 := by
  fun_induction bitPairs bs with
  | case1 a b t ih =>
    rintro x (_ | ⟨_, hx⟩)
    · have ha := b2n_le_one a
      have hb := b2n_le_one b
      omega
    · exact ih x hx
  | case2 bs hshort => intro x hx; cases hx

theorem gray_lt (v : Nat) (h : v < 4) : gray v < 4 := by
  have hcases : v = 0 ∨ v = 1 ∨ v = 2 ∨ v = 3 := by omega
  rcases hcases with rfl | rfl | rfl | rfl <;> decide

theorem map_gray_lt (s : List Nat) (h : ∀ x ∈ s, x < 4) : ∀ x ∈ s.map gray, x < 4 := by
  intro x hx
  obtain ⟨v, hv, rfl⟩ := List.mem_map.1 hx
  exact gray_lt v (h v hv)

theorem map_gray_gray (s : List Nat) (h : ∀ x ∈ s, x < 4) : (s.map gray).map gray = s := by
  rw [List.map_map]
  exact (List.map_congr_left fun x hx => gray_gray x (h x hx)).trans (List.map_id s)

theorem map_gray_getD (s : List Nat) (i : Nat) : (s.map gray).getD i 0 = gray (s.getD i 0) := by
  rw [List.getD_eq_getElem?_getD, List.getD_eq_getElem?_getD, List.getElem?_map]
  cases s[i]? <;> rfl

/-! ### Precoding -/

section
variable (prev : Nat) (s : List Nat)

theorem precodeOn_length : (precodeOn prev s).length = s.length := by
  induction s generalizing prev with
  | nil => rfl
  | cons x t ih => rw [precodeOn, List.length_cons, List.length_cons, ih]

theorem precodeOn_lt : ∀ x ∈ precodeOn prev s, x < 4 := by
  induction s generalizing prev with
  | nil => intro x hx; cases hx
  | cons v t ih =>
    rintro x (_ | ⟨_, hx⟩)
    · exact Nat.mod_lt _ (by decide)
    · exact ih _ x hx

variable (hprev : prev < 4) (hs : ∀ x ∈ s, x < 4)
include hprev hs

/-- A precoded symbol and the one before it sum to the symbol that was coded. -/
theorem precodeOn_sum (i : Nat) (hi : i < s.length) :
    ((precodeOn prev s).getD i 0 + if i = 0 then prev else (precodeOn prev s).getD (i - 1) 0) % 4 = s.getD i 0 := by
  induction s generalizing prev i with
  | nil => exact absurd hi (Nat.not_lt_zero i)
  | cons v t ih =>
    have hv : v < 4 := hs v List.mem_cons_self
    have ht : ∀ x ∈ t, x < 4 := fun x hx => hs x (List.mem_cons_of_mem v hx)
    cases i with
    | zero =>
      simp only [precodeOn, List.getD_cons_zero, if_true]
      omega
    | succ i =>
      have hnext := ih ((v + (4 - prev)) % 4) (Nat.mod_lt _ (by decide)) ht i (Nat.lt_of_succ_lt_succ hi)
      cases i with
      | zero => exact hnext
      | succ i => exact hnext

/-- The receiver's sums give back the symbols. -/
theorem precodeOff_precodeOn : precodeOff prev (precodeOn prev s) = s := by
  induction s generalizing prev with
  | nil => rfl
  | cons v t ih =>
    have hv : v < 4 := hs v List.mem_cons_self
    have hsum : ((v + (4 - prev)) % 4 + prev) % 4 = v := by omega
    rw [precodeOn, precodeOff, hsum, ih _ (Nat.mod_lt _ (by decide)) fun x hx => hs x (List.mem_cons_of_mem v hx)]

end

/-! ### The agreement (PRECODE) -/

section
variable (q : Group) (on asked : Bool)

/-- What PRECODE or the training gives the transmitter. -/
def Group.precodeTx : Nat := if q.precode % 4 ≠ 0 then q.precode % 4 else if on && asked then 2 else 1

/-- What PRECODE or the rate gives the receiver. -/
def Group.precodeRx : Nat := if q.precode / 4 % 4 ≠ 0 then q.precode / 4 % 4 else if on && q.rate == 1 then 2 else 1

theorem Group.precodeAfter_nrz (h : 2 < q.rate) : q.precodeAfter on asked = 0 := if_pos h

theorem Group.precodeTx_lt : q.precodeTx on asked < 4 := by
  unfold Group.precodeTx
  split
  · exact Nat.mod_lt _ (by decide)
  · split <;> decide

variable (h : q.rate ≤ 2)
include h

theorem Group.precodeAfter_mod : q.precodeAfter on asked % 4 = q.precodeTx on asked := by
  have hboth : q.precodeAfter on asked = 4 * q.precodeRx on + q.precodeTx on asked := if_neg (Nat.not_lt.2 h)
  have hlt := q.precodeTx_lt on asked
  omega

theorem Group.precodeAfter_div : q.precodeAfter on asked / 4 = q.precodeRx on := by
  have hboth : q.precodeAfter on asked = 4 * q.precodeRx on + q.precodeTx on asked := if_neg (Nat.not_lt.2 h)
  have hlt := q.precodeTx_lt on asked
  omega

end

/-- Settles O60: the receiver's sums undo the precoding symbol by symbol, Gray code undoes itself, and each direction agrees apart. -/
theorem precodingIsUndoneByTheReceiver : Obligations.PrecodingIsUndoneByTheReceiver := by
  unfold Obligations.PrecodingIsUndoneByTheReceiver
  refine ⟨by decide, fun bs precoded => ?symbols, fun q on asked => ⟨q.precodeAfter_nrz on asked, fun hrate hfits => ?agreed⟩⟩
  case symbols =>
    have hpairs := bitPairs_lt bs
    have hsymbols := map_gray_lt _ hpairs
    have hlength : ((bitPairs bs).map gray).length = bs.length / 2 := (List.length_map _).trans (bitPairs_length bs)
    cases precoded with
    | false => exact ⟨rfl, hlength, hsymbols, fun _ _ h => absurd h (by decide), map_gray_gray _ hpairs⟩
    | true =>
      have hsent := precodeOn_length 0 ((bitPairs bs).map gray)
      refine ⟨rfl, hsent.trans hlength, precodeOn_lt _ _, fun i hi _ => ?_, ?_⟩
      · have hsum := precodeOn_sum 0 _ (by decide) hsymbols i (hsent ▸ hi)
        have hcoded : ((bitPairs bs).map gray).getD i 0 = gray ((bitPairs bs).getD i 0) := map_gray_getD _ i
        exact hsum.trans hcoded
      · have hback : pam4Pairs true (precodeOn 0 ((bitPairs bs).map gray)) = (precodeOff 0 (precodeOn 0 ((bitPairs bs).map gray))).map gray := rfl
        exact hback.trans ((congrArg (List.map gray) (precodeOff_precodeOn 0 _ (by decide) hsymbols)).trans (map_gray_gray _ hpairs))
  case agreed =>
    have htx := fun on => q.precodeAfter_mod on asked hrate
    have hrx := fun on => q.precodeAfter_div on asked hrate
    have hwithin : q.precode / 4 % 4 = q.precode / 4 := Nat.mod_eq_of_lt (by omega)
    simp only [htx, hrx, Group.precodeTx, Group.precodeRx, hwithin]
    refine ⟨fun hset => if_pos hset, fun hset => if_pos hset, fun hopen => ?_, fun hopen => ?_⟩
    · cases asked <;> simp [hopen]
    · by_cases hfast : q.rate = 1 <;> simp [hopen, hfast]

end Sys2Proof.Machine
end

section
/-!
SUPPORT. The settings of protection, its rounds and timers, shadow ranging, and what comes over the tender link (14 R339 to R364).
-/
namespace Sys2Proof.Machine

/-! ### The running round (R344) -/

section
variable (d : Dev)

theorem Dev.latchRound_fetch (p : Packet) : (d.fetch p).latchRound = d.latchRound.fetch p := by
  have hfetch : (d.fetch p).latchRound = if d.isProtected ∧ roundStart d.now ≤ d.now then
      (d.fetch p).setProt fun q => { q with latched := some (d.now / frameNs, d.roundClaim.1, d.roundClaim.2) } else d.fetch p := rfl
  rw [hfetch, Dev.latchRound]
  split <;> rfl

theorem Dev.latchRound_dom (n : Nat) : d.latchRound.dom n = d.dom n := by
  rw [d.latchRound_frame.1]
  rfl

theorem Dev.latchRound_role : d.latchRound.role = d.role := by
  rw [d.latchRound_frame.1]
  rfl

theorem Dev.latchRound_sentLast : d.latchRound.prot.sentLast = d.prot.sentLast := by
  rw [d.latchRound_frame.1]

/-- After slot 0 the claim unit keeps what it took for the frame's round. -/
theorem Dev.latchRound_taken (hprot : d.isProtected = true) (hslot : 100000 ≤ d.now % 125000) :
    d.latchRound.prot.latched = some (d.now / 125000, d.roundClaim) := by
  have hbegun : roundStart d.now ≤ d.now := by
    unfold roundStart frameNs
    omega
  rw [Dev.latchRound, if_pos ⟨hprot, hbegun⟩]
  rfl

theorem Dev.roundClaim_unlatched (h : d.prot.latched = none) : d.roundClaim = (d.claim, !d.prot.isolated) := by
  simp only [Dev.roundClaim, h]

theorem Dev.roundClaim_latched (n c : Nat) (drives : Bool) (h : d.prot.latched = some (n, c, drives)) :
    d.roundClaim = if n = d.now / 125000 then (c, drives) else (d.claim, !d.prot.isolated) := by
  simp only [Dev.roundClaim, h]
  rfl

/-- A change that leaves the role ends no command. -/
theorem Dev.roleFrom_same (old : Nat) (h : d.role = old) : d.roleFrom old = d := if_neg fun hne => hne.2.2 h.symm

end

/-! ### Settings (R339, R355, R358, R363) -/

section
variable (d : Dev) (e : Exec)

/-- The settings of `PROT_SET` (R339). -/
def Prot.configured (q : Prot) (p : Bytes) : Prot :=
  { q with
    mode := ent p 16 1, partner := ent p 17 1, tlane := ent p 18 1, aprio := ent p 19 1, prio := ent p 19 1
    wtr := if ent p 20 2 = 0 then 300 else ent p 20 2, rbeacon := ent p 22 2 }

theorem cmdProtSet_entry_run (p : Packet) : cmdProtSet.run (cmdProtSet.entry d p) (d.fetch p) =
    ((d.setProt fun q => q.configured (Packet.bytes p)).fetch p).finish (cmdProtSet.entry d p) .done [] := by
  have hrun : ∀ (D : Dev) (e : Exec), cmdProtSet.run e D = (D.setProt fun q => q.configured e.par).ok e := fun _ _ => rfl
  rw [hrun]
  rfl

theorem cmdClaimSet_run : cmdClaimSet.run e d = (d.latchRound.setProt fun q => { q with prio := ent e.par 16 1 }).finish e .done
    [roundEffect (e.stamp.getD d.now) % 2 ^ 32] := rfl

theorem cmdClaimSet_entry_run (p : Packet) : cmdClaimSet.run (cmdClaimSet.entry d p) (d.fetch p) =
    ((d.latchRound.setProt fun q => { q with prio := ent (Packet.bytes p) 16 1 }).fetch p).finish (cmdClaimSet.entry d p) .done
      [roundEffect d.now % 2 ^ 32] := by
  rw [cmdClaimSet_run, d.latchRound_fetch p]
  rfl

theorem cmdProtIsolate_isolates (h : ent e.par 16 1 = 1) : cmdProtIsolate.run e d = ((d.latchRound.setProt fun q =>
    { q with isolated := true, wtrRunning := false, wtrDue := none, wtrOver := false }).finish e .done []).roleFrom d.role := by
  simp only [cmdProtIsolate, h, if_true]
  rfl

theorem cmdProtIsolate_returns (h : ent e.par 16 1 = 0) : cmdProtIsolate.run e d = ((d.latchRound.setProt fun q =>
    { q with isolated := false, wtrRunning := true, wtrDue := none, wtrOver := false, restoreArmed := false }).finish e .done []).roleFrom
      d.role := by
  simp only [cmdProtIsolate, h, Nat.zero_ne_one, if_false]
  rfl

/-- What `SHADOW_SET` makes of a tree's shadow: a new DELTA0 restarts the acquisition (R355). -/
def Shadow.settled (x : Shadow) (follows : Bool) (delta ratio asym : Int) : Shadow :=
  let y := if x.delta0 = delta then x
    else { x with delta0 := delta, state := if follows then 1 else 0, samples := [], taken := 0, missed := 0 }
  { y with ratio, asym }

theorem cmdShadowSet_entry_run (p : Packet) : cmdShadowSet.run (cmdShadowSet.entry d p) (d.fetch p) =
    ((d.setShadow (ent (Packet.bytes p) 16 1) fun x => x.settled d.follows (signed 32 (ent (Packet.bytes p) 20 4))
      (signed 32 (ent (Packet.bytes p) 24 4)) (signed 32 (ent (Packet.bytes p) 28 4))).fetch p).finish (cmdShadowSet.entry d p) .done [] := rfl

/-- Only what a change makes of the present shadow counts. -/
theorem Dev.setShadow_congr (t : Nat) (f g : Shadow → Shadow) (h : f (d.shadow t) = g (d.shadow t)) : d.setShadow t f = d.setShadow t g := by
  unfold Dev.setShadow
  rw [h]

theorem exec_shadowSet (p : Packet) (s : State) (ha : cmdShadowSet.accepts s.dev p) (f : Shadow → Shadow)
    (hf : (s.dev.shadow (ent (Packet.bytes p) 16 1)).settled s.dev.follows (signed 32 (ent (Packet.bytes p) 20 4))
      (signed 32 (ent (Packet.bytes p) 24 4)) (signed 32 (ent (Packet.bytes p) 28 4)) = f (s.dev.shadow (ent (Packet.bytes p) 16 1))) :
    exec (.shadowSet p) s = .next { s with dev := (Dev.answer (s.dev.setShadow (ent (Packet.bytes p) 16 1) f) p 0x0D04 .done []).settle } := by
  have hset := s.dev.setShadow_congr (ent (Packet.bytes p) 16 1) (fun x => x.settled s.dev.follows (signed 32 (ent (Packet.bytes p) 20 4))
    (signed 32 (ent (Packet.bytes p) 24 4)) (signed 32 (ent (Packet.bytes p) 28 4))) f hf
  rw [← hset]
  exact exec_answers _ cmdShadowSet p s rfl ha _ .done [] rfl (cmdShadowSet_entry_run s.dev p)

end

/-- Settles O37: each setting by the device that it leaves, and the round by what the claim unit has taken for it. -/
theorem protectionCommandsAct : Obligations.ProtectionCommandsAct := by
  unfold Obligations.ProtectionCommandsAct
  intro p s d b t q delta round
  refine ⟨fun ha => ?set, fun ha => ?claim, fun ha ht => ?isolate, fun ha ht => ?back, fun hprot => ⟨d.latchRound_frame.2, fun hslot => ?round⟩,
    d.roundClaim_unlatched, d.roundClaim_latched, fun ha hsame => ?keeps, fun ha hnew => ?restarts, fun ha => ?shadow, fun ha => ?status⟩
  case set => exact exec_answers _ cmdProtSet p s rfl ha (d.setProt fun q => q.configured b) .done [] rfl (cmdProtSet_entry_run d p)
  case claim =>
    refine exec_answers _ cmdClaimSet p s rfl ha _ .done _ ?_ (cmdClaimSet_entry_run d p)
    exact congrArg Dom.nextSeq (d.latchRound_dom p.ring)
  case isolate =>
    rw [exec_accepted _ cmdProtIsolate p s rfl ha, cmdProtIsolate_isolates _ _ ht]
    rfl
  case back =>
    rw [exec_accepted _ cmdProtIsolate p s rfl ha, cmdProtIsolate_returns _ _ ht]
    rfl
  case round => exact ⟨_, d.latchRound_taken hprot hslot, rfl⟩
  case keeps =>
    refine exec_shadowSet p s ha _ ?_
    rw [Shadow.settled, if_pos hsame]
  case restarts =>
    refine exec_shadowSet p s ha _ ?_
    rw [Shadow.settled, if_neg hnew]
  case shadow => exact exec_reads _ cmdShadowRead p s rfl ha .done _ rfl
  case status => exact exec_reads _ cmdProtStatus p s rfl ha .done _ rfl

/-! ### Rounds and falls of HEALTH (R343 to R346, R359) -/

section
variable (s : State) (h : s.dev.sys.inReset = false)
include h

theorem exec_claimRound (la lb : List Bool) : exec (.claimRound la lb) s = .next { s with dev := (claimRound la lb s.dev).settle } :=
  live_running _ s h

theorem exec_heldFrameExpiry : exec .heldFrameExpiry s = .next { s with dev := (heldFrameExpiry s.dev).settle } := live_running _ s h

theorem exec_healthRefreshTimeout : exec .healthRefreshTimeout s = .next { s with dev := (healthRefreshTimeout s.dev).settle } :=
  live_running _ s h

theorem exec_shadowLock (tree : Nat) : exec (.shadowLock tree) s = .next { s with dev := (shadowLock tree s.dev).settle } := live_running _ s h

theorem exec_shadowLoss (tree : Nat) : exec (.shadowLoss tree) s = .next { s with dev := (shadowLoss tree s.dev).settle } := live_running _ s h

theorem exec_waitToRestoreExpiry : exec .waitToRestoreExpiry s = .next { s with dev := (waitToRestoreExpiry s.dev).settle } :=
  live_running _ s h

theorem exec_rbeaconRetry : exec .rbeaconRetry s = .next { s with dev := (rbeaconRetry s.dev).settle } := live_running _ s h

theorem exec_tenderStatusWord (w : StatusWord) :
    exec (.tenderStatusWord w) s = .next { s with dev := (tenderStatusWord w s.dev).settle } := live_running _ s h

theorem exec_mirrorRecordReceive (r : MirrorRecord) :
    exec (.mirrorRecordReceive r) s = .next { s with dev := (mirrorRecordReceive r s.dev).settle } := live_running _ s h

end

section
variable (d : Dev)

theorem claimRound_unprotected (la lb : List Bool) (h : d.isProtected = false) : claimRound la lb d = d := by
  simp only [claimRound, h, Bool.not_false, if_true]

/-- The device at slot 33 of a round, its drives sent. -/
def Dev.roundShown (la lb : List Bool) : Dev :=
  let c := d.enterFalls.roundClaim
  let shown := d.enterFalls.emit (.claim (lineDrives c.2 c.1 la) (lineDrives c.2 c.1 lb))
  shown.goTime (shown.time.frame * 125000 + 116500)

theorem claimRound_protected (la lb : List Bool) (h : d.isProtected = true) : claimRound la lb d =
    ((d.roundShown la lb).judgeRound d.enterFalls.roundClaim.2 d.enterFalls.roundClaim.1 la lb).startLosing.goTime
      ((d.roundShown la lb).time.frame * 125000 + 117000) := by
  simp only [claimRound, h, Bool.not_true, Bool.false_eq_true, if_false]
  rfl

theorem Dev.enterFalls_protected (hprot : d.isProtected = true) (hhung : d.prot.hung = false) :
    d.enterFalls = d.setProt fun p => { p with health := fallOf p.health d.healthNow } := by
  refine if_neg ?_
  rw [hprot, hhung]
  decide

/-! ### Held frames (R353) -/

theorem heldFrameExpiry_none (h : d.prot.held = []) : heldFrameExpiry d = d := by
  have hsorted : sortBy (fun h : Nat × Frame => h.2.itime) d.prot.held = [] := by rw [h]; rfl
  simp only [heldFrameExpiry, hsorted]

theorem heldFrameExpiry_oldest (x : Nat × Frame) (later : List (Nat × Frame))
    (h : sortBy (fun h : Nat × Frame => h.2.itime) d.prot.held = x :: later) (hs : d.standby = true) : heldFrameExpiry d =
    (((d.goTime (x.2.itime + 500001)).freeFrame x.2).count (ctrDev 8)).setProt fun p => { p with held := p.held.erase x } := by
  simp only [heldFrameExpiry, h, hs, Bool.not_true, Bool.false_eq_true, if_false]

/-! ### Shadow ranging (R357) -/

/-- The spread of the newest 16 samples of a tree. -/
def Dev.shadowSpread (tree : Nat) : Int :=
  let l := (d.shadow tree).samples.take 16
  l.foldl max (l.headD 0) - l.foldl min (l.headD 0)

theorem shadowLock_eq (tree : Nat) : shadowLock tree d =
    if d.follows ∧ (d.shadow tree).state = 1 ∧ ((d.shadow tree).samples.take 16).length = 16
      ∧ d.shadowSpread tree ≤ ((8 * d.bitUnits tree : Nat) : Int) then
      d.setShadow tree fun s => Shadow.track { s with state := 2, taken := 0, missed := 0 }
    else d := rfl

theorem shadowLoss_eq (tree : Nat) : shadowLoss tree d =
    if (d.shadow tree).state = 2 ∧ 64 ≤ (d.shadow tree).missed then
      d.setShadow tree fun s => { s with state := 1, samples := [], missed := 0 }
    else d := rfl

/-! ### Wait-to-restore (R362) -/

theorem waitToRestoreExpiry_runs (due : Nat) (hdue : d.prot.wtrDue = some due) (hrun : d.prot.wtrRunning = true)
    (hover : d.prot.wtrOver = false) :
    waitToRestoreExpiry d = ((d.goCounter due).setProt fun p => { p with wtrOver := true }).tryRestore := by
  simp only [waitToRestoreExpiry, hdue]
  refine if_neg ?_
  rw [hrun, hover]
  decide

theorem rbeaconRetry_tries (hrun : d.prot.wtrRunning = true) (hover : d.prot.wtrOver = true) (hbusy : d.restoring = false) :
    rbeaconRetry d = ((d.goCounter (d.prot.triedAt + 1000000000)).count (ctrDev 9)).tryRestore := by
  refine if_neg ?_
  rw [hrun, hover, hbusy]
  decide

/-! ### The tender link (R341, R346, R350, R352, R359) -/

/-- The device with the partner's status word noted. -/
def Dev.noteStatus (w : StatusWord) : Dev := d.latchRound.setProt fun p => { p with status := some w }

section
variable (w : StatusWord)

theorem Dev.noteStatus_role : (d.noteStatus w).role = d.role := d.latchRound_role

theorem Dev.noteStatus_sentLast : (d.noteStatus w).prot.sentLast = d.prot.sentLast := d.latchRound_sentLast

theorem tenderStatusWord_down (h : d.tenderUp = false) : tenderStatusWord w d = d := by
  simp only [tenderStatusWord, h, Bool.not_false, if_true]

/-- Both devices have transmitted, which stops this one at once (R346). -/
def Dev.clash : Dev := if w.transmitted ∧ d.prot.sentLast then (d.alarm alClaim).setProt fun p => { p with transmitting := false } else d

variable (h : d.tenderUp = true)
include h

theorem tenderStatusWord_up : tenderStatusWord w d =
    (if d.prot.status.isNone ∧ w.transmitted ∧ d.role = 2 then ((d.noteStatus w).clash w).setProt Prot.wait
      else (d.noteStatus w).clash w).roleFrom d.role := by
  have hup : ¬(!d.tenderUp) = true := by rw [h]; decide
  exact if_neg hup

theorem tenderStatusWord_idle (hw : w.transmitted = false) : tenderStatusWord w d = d.noteStatus w := by
  have hquiet : ¬w.transmitted = true := by rw [hw]; decide
  have hclash : (d.noteStatus w).clash w = d.noteStatus w := if_neg fun hc => hquiet hc.1
  rw [tenderStatusWord_up d w h, hclash, if_neg fun hc => hquiet hc.2.1, Dev.roleFrom_same _ _ (d.noteStatus_role w)]

theorem tenderStatusWord_clash (hw : w.transmitted = true) (hsent : d.prot.sentLast = true) (hstatus : d.prot.status ≠ none) :
    tenderStatusWord w d = (((d.noteStatus w).alarm alClaim).setProt fun p => { p with transmitting := false }).roleFrom d.role := by
  have hclash : (d.noteStatus w).clash w = ((d.noteStatus w).alarm alClaim).setProt fun p => { p with transmitting := false } :=
    if_pos ⟨hw, (d.noteStatus_sentLast w).trans hsent⟩
  rw [tenderStatusWord_up d w h, hclash, if_neg fun hc => hstatus (Option.isNone_iff_eq_none.1 hc.1)]

theorem tenderStatusWord_first (hw : w.transmitted = true) (hsent : d.prot.sentLast = false) (hstatus : d.prot.status = none)
    (hrole : d.role = 2) : tenderStatusWord w d = ((d.noteStatus w).setProt Prot.wait).roleFrom 2 := by
  have hclash : (d.noteStatus w).clash w = d.noteStatus w := by
    refine if_neg fun hc => Bool.false_ne_true ?_
    rw [← hsent, ← d.noteStatus_sentLast w]
    exact hc.2
  rw [tenderStatusWord_up d w h, hclash, if_pos ⟨Option.isNone_iff_eq_none.2 hstatus, hw, hrole⟩, hrole]

end

section
variable (r : MirrorRecord)

theorem mirrorRecordReceive_down (h : d.tenderUp = false) : mirrorRecordReceive r d = d := by
  simp only [mirrorRecordReceive, h, Bool.not_false, if_true]

theorem mirrorRecordReceive_follows (h : d.tenderUp = true) (hf : d.follows = true) : mirrorRecordReceive r d = d.followRecord r := by
  simp only [mirrorRecordReceive, h, hf, Bool.not_true, Bool.false_eq_true, if_false, if_true]

theorem mirrorRecordReceive_takes (h : d.tenderUp = true) (hf : d.follows = false) (ht : d.prot.transmitting = true) :
    mirrorRecordReceive r d = d.takeRecord r := by
  simp only [mirrorRecordReceive, h, hf, ht, Bool.not_true, Bool.false_eq_true, if_false, if_true]

/-- Neither a standby nor an incoming device. -/
theorem mirrorRecordReceive_outgoing (hf : d.follows = false) (ht : d.prot.transmitting = false) : mirrorRecordReceive r d = d := by
  simp only [mirrorRecordReceive, hf, ht, Bool.false_eq_true, if_false, ite_self]

theorem Dev.followRecord_other (h : 3 < r.part) : d.followRecord r = d := by
  obtain ⟨k, hk⟩ : ∃ k, r.part = k + 4 := ⟨r.part - 4, by omega⟩
  simp only [Dev.followRecord, hk]

theorem Dev.takeRecord_rest (h : r.part = 3) (hcut : (r.frame + 1) * 125000 = d.prot.cutAt) :
    d.takeRecord r = (d.applyHeader r).applyChanges r := by
  have hmet : (r.frame + 1) * frameNs = d.prot.cutAt := hcut
  simp only [Dev.takeRecord, h, hmet, decide_true, if_true]

end
end

/-- Settles O39: each event by the branch that its premises choose, the round by the claim that the fall of HEALTH leaves. -/
theorem protectionEventsAct : Obligations.ProtectionEventsAct := by
  unfold Obligations.ProtectionEventsAct
  refine ⟨fun s la lb tree due x later => ?timers, fun s w r => ?tender⟩
  case timers =>
    intro d c shown t a b r' l spread hr
    refine ⟨fun hprot => ?unprotected, fun hprot => ?round, fun hprot hhung => ?falls, exec_healthRefreshTimeout s hr, fun hheld => ?nothing,
      fun hheld hs => ?held, fun hf hstate hlen hnear => ?lock, fun hf hstate hfar => ?spread, fun hstate hmissed => ?loss,
      fun hdue hrun hover => ?expiry, fun hrun hover hbusy => ?retry⟩
    case unprotected => rw [exec_claimRound s hr, claimRound_unprotected d la lb hprot]
    case round =>
      rw [exec_claimRound s hr, claimRound_protected d la lb hprot]
      rfl
    case falls => exact d.enterFalls_protected hprot hhung
    case nothing => rw [exec_heldFrameExpiry s hr, heldFrameExpiry_none d hheld]
    case held =>
      rw [exec_heldFrameExpiry s hr, heldFrameExpiry_oldest d x later hheld hs]
      rfl
    case lock => rw [exec_shadowLock s hr, shadowLock_eq, if_pos ⟨hf, hstate, hlen, hnear⟩]
    case spread => rw [exec_shadowLock s hr, shadowLock_eq, if_neg fun hlock => Int.not_le.2 hfar hlock.2.2.2]
    case loss => rw [exec_shadowLoss s hr, shadowLoss_eq, if_pos ⟨hstate, hmissed⟩]
    case expiry => rw [exec_waitToRestoreExpiry s hr, waitToRestoreExpiry_runs d due hdue hrun hover]
    case retry =>
      rw [exec_rbeaconRetry s hr, rbeaconRetry_tries d hrun hover hbusy]
      rfl
  case tender =>
    intro d noted cut hr
    refine ⟨fun hdown => ⟨?wordDown, ?recordDown⟩, fun hup hw => ?idle, fun hup hw hsent hstatus => ?clash,
      fun hup hw hsent hstatus hrole => ?first, fun hup hf => ?standby, fun hup hf ht => ?incoming, fun hf ht => ?outgoing⟩
    case wordDown => rw [exec_tenderStatusWord s hr, tenderStatusWord_down d w hdown]
    case recordDown => rw [exec_mirrorRecordReceive s hr, mirrorRecordReceive_down d r hdown]
    case idle =>
      rw [exec_tenderStatusWord s hr, tenderStatusWord_idle d w hup hw]
      rfl
    case clash =>
      rw [exec_tenderStatusWord s hr, tenderStatusWord_clash d w hup hw hsent hstatus]
      rfl
    case first =>
      rw [exec_tenderStatusWord s hr, tenderStatusWord_first d w hup hw hsent hstatus hrole]
      rfl
    case standby =>
      rw [exec_mirrorRecordReceive s hr, mirrorRecordReceive_follows d r hup hf]
      refine ⟨fun hpart => ?_, fun hpart => ?_, fun hpart => ?_, fun hpart => ?_, fun hpart => by rw [d.followRecord_other r hpart]⟩ <;>
        simp only [Dev.followRecord, hpart, d]
    case incoming =>
      rw [exec_mirrorRecordReceive s hr, mirrorRecordReceive_takes d r hup hf ht]
      refine ⟨fun hcut hpart _ => ?_, fun hcut hpart _ => ?_, fun hcut hpart _ => ?_, fun hpart hat => by rw [d.takeRecord_rest r hpart hat],
        fun hcut hpart => ?_⟩ <;>
        simp only [Dev.takeRecord, hpart, hcut, d]
    case outgoing => rw [exec_mirrorRecordReceive s hr, mirrorRecordReceive_outgoing d r hf ht]

end Sys2Proof.Machine
end

section
/-!
SUPPORT. The ends of trainings and eye scans (15 R373, R374, R377), and the links of groups (15 R371, R372, R380; 17 R411).
-/
namespace Sys2Proof.Machine

/-! ### Eye scans (R377) -/

/-- An axis of a scan lies between its ends. -/
theorem mem_scanAxis (lo hi step : Nat) (x : Int) (h : x ∈ scanAxis lo hi step) : -(lo : Int) ≤ x ∧ x ≤ hi := by
  obtain ⟨i, hi', rfl⟩ := List.mem_map.1 h
  have hsteps : i ≤ (lo + hi) / step := Nat.lt_succ_iff.1 (List.mem_range.1 hi')
  have hreach : i * step ≤ lo + hi := Nat.le_trans (Nat.mul_le_mul_right step hsteps) (Nat.div_mul_le_self _ _)
  constructor <;> omega

theorem mem_scanPoints (ps vs : Nat) (errors : List Nat) (x : (Int × Int) × Nat) (h : x ∈ scanPoints ps vs errors) :
    x.1.1 ∈ scanAxis 32 31 ps ∧ x.1.2 ∈ scanAxis 127 127 vs := by
  have hpoint : x.1 ∈ (scanAxis 32 31 ps).flatMap fun p => (scanAxis 127 127 vs).map fun v => (p, v) := (List.of_mem_zip h).1
  obtain ⟨p, hp, hx⟩ := List.mem_flatMap.1 hpoint
  obtain ⟨v, hv, hx⟩ := List.mem_map.1 hx
  rw [← hx]
  exact ⟨hp, hv⟩

/-- A span is no wider than the range of its points. -/
theorem widest_le (lo : Int) (width : Nat) (l : List (Int × Nat)) (start : Option Int) (best : Nat)
    (hl : ∀ x ∈ l, lo ≤ x.1 ∧ x.1 ≤ lo + width) (hs : ∀ v, start = some v → lo ≤ v) (hb : best ≤ width) : widest l start best ≤ width := by
  induction l generalizing start best with
  | nil => exact hb
  | cons x t ih =>
    obtain ⟨v, n⟩ := x
    obtain ⟨hlow, hhigh⟩ := hl (v, n) List.mem_cons_self
    have ht : ∀ x ∈ t, lo ≤ x.1 ∧ x.1 ≤ lo + width := fun x hx => hl x (List.mem_cons_of_mem _ hx)
    have hfrom : lo ≤ start.getD v := by
      cases start with
      | none => exact hlow
      | some w => exact hs w rfl
    rw [widest]
    split
    · refine ih _ _ ht (fun w hw => ?_) (Nat.max_le.2 ⟨hb, ?_⟩)
      · cases hw
        exact hfrom
      · dsimp only at hhigh
        omega
    · exact ih _ _ ht (fun w hw => nomatch hw) hb

section
variable (ps vs : Nat) (errors : List Nat)

/-- The points of a scan at the voltage step 0, by their phases. -/
def scanRow : List (Int × Nat) := ((scanPoints ps vs errors).filter fun x => x.1.2 == 0).map fun x => (x.1.1, x.2)

/-- The points of a scan at the phase step 0, by their voltages. -/
def scanColumn : List (Int × Nat) := ((scanPoints ps vs errors).filter fun x => x.1.1 == 0).map fun x => (x.1.2, x.2)

theorem widest_scanRow_le : widest (scanRow ps vs errors) none 0 ≤ 63 := by
  refine widest_le (-32) 63 _ none 0 (fun x hx => ?_) (fun v hv => nomatch hv) (Nat.zero_le _)
  obtain ⟨y, hy, rfl⟩ := List.mem_map.1 hx
  obtain ⟨hlow, hhigh⟩ := mem_scanAxis 32 31 ps _ (mem_scanPoints ps vs errors y (List.mem_filter.1 hy).1).1
  exact ⟨hlow, hhigh⟩

theorem widest_scanColumn_le : widest (scanColumn ps vs errors) none 0 ≤ 254 := by
  refine widest_le (-127) 254 _ none 0 (fun x hx => ?_) (fun v hv => nomatch hv) (Nat.zero_le _)
  obtain ⟨y, hy, rfl⟩ := List.mem_map.1 hx
  obtain ⟨hlow, hhigh⟩ := mem_scanAxis 127 127 vs _ (mem_scanPoints ps vs errors y (List.mem_filter.1 hy).1).2
  exact ⟨hlow, hhigh⟩

end

section
variable (d : Dev) (e : Exec) (errors : List Nat)

/-- RESULT1 of a scan: the widest phase span, free where the scan has no row at 0. -/
def Dev.scanWidth : Nat :=
  if 127 % ent e.par 21 1 = 0 then widest (scanRow (ent e.par 20 1) (ent e.par 21 1) errors) none 0 else Config.freeValue d.freeCount % 2 ^ 32

/-- RESULT2 of a scan: the widest voltage span, free where the scan has no column at 0. -/
def Dev.scanHeight : Nat :=
  if 32 % ent e.par 20 1 = 0 then widest (scanColumn (ent e.par 20 1) (ent e.par 21 1) errors) none 0
  else Config.freeValue (d.freeCount + 1) % 2 ^ 32

theorem Dev.scanWidth_lt : d.scanWidth e errors < 2 ^ 32 := by
  have hspan := widest_scanRow_le (ent e.par 20 1) (ent e.par 21 1) errors
  unfold Dev.scanWidth
  split
  · omega
  · exact Nat.mod_lt _ (by decide)

theorem Dev.scanHeight_lt : d.scanHeight e errors < 2 ^ 32 := by
  have hspan := widest_scanColumn_le (ent e.par 20 1) (ent e.par 21 1) errors
  unfold Dev.scanHeight
  split
  · omega
  · exact Nat.mod_lt _ (by decide)

theorem eyeScanComplete_ends (kind l : Nat) (cut : Bool)
    (h : d.execs.find? (fun x => x.op == 0x0E09 && x.started && x.armed.isNone && ent x.par 16 1 == kind && ent x.par 18 2 == l) = some e) :
    eyeScanComplete kind l errors cut d = (Dev.setLane { d with
        freeCount := d.freeCount + 2
        out := d.out ++ [.hostWrite (ent e.par 24 8) ((scanPoints (ent e.par 20 1) (ent e.par 21 1) errors).flatMap pointBytes
          ++ List.replicate 8 0#8)] } kind l fun x => { x with scanning := false }).finish e .done
      [(scanPoints (ent e.par 20 1) (ent e.par 21 1) errors).length, d.scanWidth e errors, d.scanHeight e errors, b2n cut] := by
  simp only [eyeScanComplete, h]
  rfl

end

/-! ### Trainings (R373, R374) -/

section
variable (s : State) (h : s.dev.sys.inReset = false)
include h

theorem exec_laneTrainComplete (l us outcome : Nat) (training : List LaneTraining) (partner : Word) :
    exec (.laneTrainComplete l training partner us outcome) s =
      .next { s with dev := (laneTrainComplete l training partner us outcome s.dev).settle } := live_running _ s h

theorem exec_treeTrainComplete (l : Nat) (failed : List (Nat × BitVec 4)) (presets taps : List (Nat × Nat)) :
    exec (.treeTrainComplete l failed presets taps) s = .next { s with dev := (treeTrainComplete l failed presets taps s.dev).settle } :=
  live_running _ s h

theorem exec_eyeScanComplete (kind l : Nat) (errors : List Nat) (cut : Bool) :
    exec (.eyeScanComplete kind l errors cut) s = .next { s with dev := (eyeScanComplete kind l errors cut s.dev).settle } :=
  live_running _ s h

theorem exec_linkUp (l : Nat) (training : List LaneTraining) :
    exec (.linkUp l training) s = .next { s with dev := (linkUp l training s.dev).settle } := live_running _ s h

theorem exec_brynlinkIdentity (l id : Nat) (serial : BitVec 64) :
    exec (.brynlinkIdentity l id serial) s = .next { s with dev := (brynlinkIdentity l id serial s.dev).settle } := live_running _ s h

theorem exec_linkDown (l : Nat) (cause : LinkCause) :
    exec (.linkDown l cause) s = .next { s with dev := (linkDown l cause s.dev).settle } := live_running _ s h

theorem exec_linkRecoveryRetry (l : Nat) :
    exec (.linkRecoveryRetry l) s = .next { s with dev := (linkRecoveryRetry l s.dev).settle } := live_running _ s h

theorem exec_trainingTimeout (l : Nat) : exec (.trainingTimeout l) s = .next { s with dev := (trainingTimeout l s.dev).settle } :=
  live_running _ s h

theorem exec_preemptionVerifyEnd (l : Nat) (ok : Bool) :
    exec (.preemptionVerifyEnd l ok) s = .next { s with dev := (preemptionVerifyEnd l ok s.dev).settle } := live_running _ s h

end

section
variable (d : Dev)

theorem laneTrainComplete_ends (l us outcome : Nat) (training : List LaneTraining) (partner : Word) (e : Exec) (q : Group)
    (h : d.running? 0x0E05 l = some e) (hq : d.group? l = some q) : laneTrainComplete l training partner us outcome d =
      ((d.trainLanes q true training).setLane 1 l fun x => { x with training := false }).finish e .done
        [((d.trainLanes q true training).lane 1 l).taps.word, partner.toNat % 2 ^ 24, us % 2 ^ 32, min outcome 2] := by
  simp only [laneTrainComplete, h, hq]

theorem laneTrainComplete_idle (l us outcome : Nat) (training : List LaneTraining) (partner : Word) (h : d.running? 0x0E05 l = none) :
    laneTrainComplete l training partner us outcome d = d := by simp only [laneTrainComplete, h]

theorem trainedMap_toNat (old : BitVec 2) (modes : Nat) (failed : List (Nat × BitVec 4)) : (trainedMap old modes failed).toNat =
    b2n (if bit modes 0 then failed.all fun f => f.1 != 0 + 1 || f.2 == 0#4 else old.getLsbD 0)
      + 2 * b2n (if bit modes 1 then failed.all fun f => f.1 != 1 + 1 || f.2 == 0#4 else old.getLsbD 1) := by
  refine (BitVec.toNat_ofNat _ _).trans (Nat.mod_eq_of_lt ?_)
  dsimp only
  have hlow := b2n_le_one (if bit modes 0 then failed.all fun f => f.1 != 1 || f.2 == 0#4 else old.getLsbD 0)
  have hhigh := b2n_le_one (if bit modes 1 then failed.all fun f => f.1 != 2 || f.2 == 0#4 else old.getLsbD 1)
  omega

section
variable (t : Nat) (failed : List (Nat × BitVec 4)) (presets taps : List (Nat × Nat))

/-- What a training of the named modes leaves of a tree (R374). -/
def Tree.trainedWith (x : Tree) (modes : Nat) (failed : List (Nat × BitVec 4)) (presets taps : List (Nat × Nat)) : Tree :=
  { x with
    training := false, trained := trainedMap x.trained modes failed
    presets := presets.foldl (fun t p => Tbl.put t p.1 p.2) x.presets
    taps := (taps.filter fun p => bit modes (p.1 % 4 - 1)).foldl (fun t p => Tbl.put t p.1 p.2) x.taps }

theorem treeTrainComplete_ends (e : Exec) (h : d.running? 0x0E06 t = some e) : treeTrainComplete t failed presets taps d =
    (d.setTree t fun x => x.trainedWith (ent e.par 17 1) failed presets taps).finish e .done
      [(trainedMap (d.tree t).trained (ent e.par 17 1) failed).toNat,
        ((failed.filter fun f => bit (ent e.par 17 1) (f.1 - 1) && f.1 != 0).foldl (fun a f => a ||| f.2) (0#4)).toNat] := by
  have htree : (d.setTree t fun x => x.trainedWith (ent e.par 17 1) failed presets taps).tree t =
      (d.tree t).trainedWith (ent e.par 17 1) failed presets taps := Dev.tree_setTree _ _ _
  have hends : treeTrainComplete t failed presets taps d = (d.setTree t fun x => x.trainedWith (ent e.par 17 1) failed presets taps).finish e
      .done [((d.setTree t fun x => x.trainedWith (ent e.par 17 1) failed presets taps).tree t).trained.toNat,
        ((failed.filter fun f => bit (ent e.par 17 1) (f.1 - 1) && f.1 != 0).foldl (fun a f => a ||| f.2) (0#4)).toNat] := by
    simp only [treeTrainComplete, h]
    rfl
  rw [hends, htree]
  rfl

theorem treeTrainComplete_idle (h : d.running? 0x0E06 t = none) : treeTrainComplete t failed presets taps d = d := by
  simp only [treeTrainComplete, h]

end

/-! ### Links (R371, R372; 17 R411) -/

theorem Dev.group_lane (l : Nat) (q : Group) (h : d.group? l = some q) : q.lane = l :=
  eq_of_beq (List.find?_some (p := fun q : Group => q.lane == l) h)

theorem Dev.linkGroup_group (l : Nat) (q : Group) (h : d.linkGroup? l = some q) : d.group? l = some q :=
  (Option.filter_eq_some_iff.1 h).1

theorem Dev.trained_eq (l : Nat) (q : Group) (training : List LaneTraining) (h : d.linkGroup? l = some q) :
    d.trained q training = if (d.port l).link = 5 then d.trainLanes q q.train training else d := by
  rw [Dev.trained, d.group_lane l q (d.linkGroup_group l q h)]

/-! Training and locking lanes leaves what neither a lane's state nor what leaves the device is part of. -/
section
variable {γ : Type} (g : Dev → γ) (hlane : ∀ (D : Dev) (k l : Nat) (f : Lane → Lane), g (D.setLane k l f) = g D)
include hlane

theorem Dev.lockLanes_keeps (q : Group) (on : Bool) : g (d.lockLanes q on) = g d :=
  foldl_keeps g _ (fun D i => hlane D 1 (q.lane + i) _) (List.range q.width) d

variable (hemit : ∀ (D : Dev) (o : Out), g (D.emit o) = g D)
include hemit

theorem Dev.answerTaps_keeps (l : Nat) (requests : List (Int × Int)) : g (d.answerTaps l requests) = g d :=
  foldl_keeps g _ (fun D _ => (hemit _ _).trans (hlane D 1 l _)) requests d

theorem Dev.trainLanes_keeps (q : Group) (on : Bool) (training : List LaneTraining) : g (d.trainLanes q on training) = g d := by
  have hasked : ∀ (D : Dev) (x : LaneTraining),
      g (if x.lane < q.width then D.answerTaps (q.lane + x.lane) x.requests else D) = g D := fun D x => by
    split
    · exact D.answerTaps_keeps g hlane hemit _ _
    · rfl
  exact (foldl_keeps g _ (fun D i => hlane D 1 (q.lane + i) _) (List.range q.width) _).trans
    (foldl_keeps g _ hasked (if on then training else []) d)

/-- What a link's coming up leaves. -/
theorem Dev.lockLanes_trained_keeps (q : Group) (training : List LaneTraining) (on : Bool) :
    g ((d.trained q training).lockLanes q on) = g d := by
  refine (Dev.lockLanes_keeps _ g hlane q on).trans ?_
  unfold Dev.trained
  split
  · exact d.trainLanes_keeps g hlane hemit q _ _
  · rfl

end

theorem Dev.setPort_setPort (l : Nat) (f g : Port → Port) : (d.setPort l f).setPort l g = d.setPort l fun x => g (f x) := by
  simp only [Dev.setPort, Dev.port, Tbl.getD_put, Tbl.put_put]

theorem brynlinkIdentity_already (l id : Nat) (serial : BitVec 64) (hup : d.portUp l = true) : brynlinkIdentity l id serial d = d := by
  unfold brynlinkIdentity
  split
  · exact if_pos hup
  · rfl

theorem linkRecoveryRetry_already (l : Nat) (hup : d.portUp l = true) : linkRecoveryRetry l d = d := by
  unfold linkRecoveryRetry
  split
  · exact if_pos hup
  · rfl

section
variable (l : Nat) (q : Group) (hq : d.linkGroup? l = some q)
include hq

theorem linkUp_already (training : List LaneTraining) (hup : d.portUp l = true) : linkUp l training d = d := by
  simp only [linkUp, hq, hup, if_true]

theorem linkUp_port (training : List LaneTraining) (hup : d.portUp l = false) (hk : q.kind = 1) :
    linkUp l training d = ((d.trained q training).lockLanes q true).bringUp q := by
  simp only [linkUp, hq, hup, hk, Bool.false_eq_true, if_false, if_true]

theorem linkUp_unidentified (training : List LaneTraining) (hup : d.portUp l = false) (hk : q.kind ≠ 1) (hpeer : (d.port l).peer = none) :
    linkUp l training d = ((d.trained q training).lockLanes q true).emit (.control l 3 [d.sys.devId.toNat, Config.serial.toNat]) := by
  have hports := d.lockLanes_trained_keeps Dev.ports (fun _ _ _ _ => rfl) (fun _ _ => rfl) q training true
  have hsys := d.lockLanes_trained_keeps Dev.sys (fun _ _ _ _ => rfl) (fun _ _ => rfl) q training true
  have hpeer' : ∀ o, ((((d.trained q training).lockLanes q true).emit o).port l).peer = none := fun o => by
    rw [← hpeer]
    exact congrArg (fun t => (Tbl.getD t l ({} : Port)).peer) hports
  simp only [linkUp, hq, hup, if_neg hk, hpeer', hsys, Bool.false_eq_true, if_false, Option.isSome_none]

theorem linkRecoveryRetry_starts (due : Nat) (hup : d.portUp l = false) (hdue : (d.port l).retryAt = some due) :
    linkRecoveryRetry l d = ((d.goCounter due).setPort l fun x => { x with peer := none }).startLanes q := by
  simp only [linkRecoveryRetry, hq, hdue, hup, Bool.false_eq_true, if_false]

section
variable (id : Nat) (serial : BitVec 64) (hup : d.portUp l = false) (hk : q.kind = 2 ∨ q.kind = 3)
include hup hk

theorem brynlinkIdentity_down : brynlinkIdentity l id serial d =
    if d.idConflict l (id % 8) then d.setPort l fun p =>
      { p with link := 1, changed := d.now, peer := none, conflict := some (id % 8)
               retryAt := some (p.retryAt.getD (d.inNs (q.recov * 1000000))) }
    else if (d.lane 1 l).blockLock then
      (d.setPort l fun p => { p with peer := some (id % 8, serial.toNat), conflict := none }).bringUp q
    else d.setPort l fun p => { p with peer := some (id % 8, serial.toNat), conflict := none } := by
  have hpeers : (d.linkGroup? l).filter (fun q => q.kind == 2 || q.kind == 3) = some q := by
    rw [hq]
    exact if_pos (by rcases hk with hk | hk <;> simp [hk])
  simp only [brynlinkIdentity, hpeers, hup, Bool.false_eq_true, if_false]
  rfl

theorem brynlinkIdentity_conflict (hid : d.idConflict l (id % 8) = true) : brynlinkIdentity l id serial d = d.setPort l fun p =>
    { p with link := 1, changed := d.now, peer := none, conflict := some (id % 8)
             retryAt := some (p.retryAt.getD (d.inNs (q.recov * 1000000))) } :=
  (brynlinkIdentity_down d l q hq id serial hup hk).trans (if_pos hid)

theorem brynlinkIdentity_noted (hid : d.idConflict l (id % 8) = false) (hlock : (d.lane 1 l).blockLock = false) :
    brynlinkIdentity l id serial d = d.setPort l fun p => { p with peer := some (id % 8, serial.toNat), conflict := none } := by
  have hagrees : ¬d.idConflict l (id % 8) = true := by rw [hid]; decide
  have hunlocked : ¬(d.lane 1 l).blockLock = true := by rw [hlock]; decide
  rw [brynlinkIdentity_down d l q hq id serial hup hk, if_neg hagrees, if_neg hunlocked]

end
end

section
variable (l : Nat) (q : Group)

/-- Loss of time words takes down no port (12 R289). -/
theorem linkDown_words (hq : d.group? l = some q) (hk : q.kind = 1) : linkDown l .timeWords d = d := by
  simp only [linkDown, hq, hk, and_self, if_true]

theorem linkDown_up (cause : LinkCause) (hq : d.group? l = some q) (hc : cause ≠ .timeWords ∨ q.kind ≠ 1) (hup : d.portUp l = true) :
    linkDown l cause d = Dev.linkLost ((if cause = .lossOfLock then d.lockLanes q false else d).setPort l fun x =>
      { x with peer := none, preempt := 0, link := 1, downs := x.downs + 1, changed := d.now
               retryAt := some (d.time.c + q.recov * 1000000) }) q := by
  have hcause : ¬(cause = .timeWords ∧ q.kind = 1) := fun h => hc.elim (fun hn => hn h.1) fun hn => hn h.2
  have htime : ∀ D : Dev, D.time = d.time → D.now = d.now ∧ D.time.c = d.time.c := fun D hD => by
    unfold Dev.now Dev.raw
    rw [hD]
    exact ⟨rfl, rfl⟩
  obtain ⟨hnow, hcounter⟩ := htime (if cause = .lossOfLock then d.lockLanes q false else d) (by
    split
    · exact d.lockLanes_time q false
    · rfl)
  simp only [linkDown, hq, if_neg hcause, hup, if_true, Dev.setPort_setPort]
  rw [← hnow, ← hcounter]
  rfl

theorem trainingTimeout_fails (hq : d.groupOfLane? l = some q) (ht : q.train = true) (hlit : d.groupLit q = true)
    (hup : d.portUp q.lane = false) : trainingTimeout l d = (d.count (ctrLane l 8)).setPort q.lane fun x =>
      { x with link := 1, changed := d.now, retryAt := some (d.time.c + q.recov * 1000000) } := by
  have htrains : (d.groupOfLane? l).filter (fun q => q.train && d.groupLit q) = some q := by
    rw [hq]
    exact if_pos (by simp [ht, hlit])
  simp only [trainingTimeout, htrains, hup, Bool.false_eq_true, if_false]
  rfl

theorem preemptionVerifyEnd_verified (ok : Bool) (hq : d.group? l = some q) (hk : q.kind = 1) (hp : q.preempt = true)
    (hv : q.noVerify = false) (hup : d.portUp l = true) :
    preemptionVerifyEnd l ok d = d.setPort l fun x => { x with preempt := if ok then 2 else 3 } := by
  have hverifies : (d.group? l).filter (fun q => q.kind == 1 && q.preempt && !q.noVerify && d.portUp l) = some q := by
    rw [hq]
    exact if_pos (by simp [hk, hp, hv, hup])
  simp only [preemptionVerifyEnd, hverifies]

end

end

/-- Settles O41: each training's end by the command that it ends, and each link's event by its group, its state and its peer. -/
theorem trainingsAndLinksAct : Obligations.TrainingsAndLinksAct := by
  unfold Obligations.TrainingsAndLinksAct
  refine ⟨fun s l us outcome training partner failed presets taps kind errors cut e => ?trainings,
    fun s l id serial cause q training due ok => ?links⟩
  case trainings =>
    intro d modes trained points shown bad hr
    refine ⟨fun q he hq => ?lane, fun he => ?laneIdle, fun he => ?tree, fun he => ?treeIdle, fun he => ?scan⟩
    case lane =>
      have hcode : min outcome 2 = if outcome < 2 then outcome else 2 := by split <;> omega
      rw [exec_laneTrainComplete s hr, laneTrainComplete_ends d l us outcome training partner e q he hq, hcode]
      rfl
    case laneIdle => rw [exec_laneTrainComplete s hr, laneTrainComplete_idle d l us outcome training partner he]
    case tree =>
      rw [exec_treeTrainComplete s hr, treeTrainComplete_ends d l failed presets taps e he, trainedMap_toNat]
      rfl
    case treeIdle => rw [exec_treeTrainComplete s hr, treeTrainComplete_idle d l failed presets taps he]
    case scan =>
      refine ⟨d.scanWidth e errors, d.scanWidth_lt e errors, d.scanHeight e errors, d.scanHeight_lt e errors, fun hrow => if_pos hrow,
        fun hcolumn => if_pos hcolumn, ?_⟩
      rw [exec_eyeScanComplete s hr, eyeScanComplete_ends d e errors kind l cut he]
  case links =>
    intro d back up hr
    refine ⟨fun hq => ⟨fun hup => ⟨?already, ?known, ?recovered⟩, fun hup hk => ?port, fun hup hk hpeer => ?unidentified,
      fun hup hk hid => ?conflict, fun hup hk hid hlock => ?noted, fun hup hdue => ?retry⟩, fun hq hk => ?words, fun hq hc hup => ?down,
      fun hq ht hlit hup => ?timeout, fun hq hk hp hv hup => ?verified⟩
    case already => rw [exec_linkUp s hr, linkUp_already d l q hq training hup]
    case known => rw [exec_brynlinkIdentity s hr, brynlinkIdentity_already d l id serial hup]
    case recovered => rw [exec_linkRecoveryRetry s hr, linkRecoveryRetry_already d l hup]
    case port =>
      rw [exec_linkUp s hr, linkUp_port d l q hq training hup hk, d.trained_eq l q training hq]
    case unidentified =>
      rw [exec_linkUp s hr, linkUp_unidentified d l q hq training hup hk hpeer, d.trained_eq l q training hq]
    case conflict => rw [exec_brynlinkIdentity s hr, brynlinkIdentity_conflict d l q hq id serial hup hk hid]; rfl
    case noted => rw [exec_brynlinkIdentity s hr, brynlinkIdentity_noted d l q hq id serial hup hk hid hlock]
    case retry => rw [exec_linkRecoveryRetry s hr, linkRecoveryRetry_starts d l q hq due hup hdue]
    case words => rw [exec_linkDown s hr, linkDown_words d l q hq hk]
    case down => rw [exec_linkDown s hr, linkDown_up d l q cause hq hc hup]
    case timeout => rw [exec_trainingTimeout s hr, trainingTimeout_fails d l q hq ht hlit hup]
    case verified => rw [exec_preemptionVerifyEnd s hr, preemptionVerifyEnd_verified d l q ok hq hk hp hv hup]

end Sys2Proof.Machine
end

section
/-!
SUPPORT. Heritage lanes and their performance: alignment, frames in alignment, defects, seconds and bins (13 R314 to R319, R333 to R335).
-/
namespace Sys2Proof.Machine

/-! ### Alignment (R314, R315) -/

section
variable (h : Heritage) (n : Nat) (s : Bytes)

theorem Heritage.align_good (hin : h.inFrame = true) (hf : framed n s h.position = true) : h.align n s = { h with badRun := 0 } := by
  simp only [Heritage.align, hin, hf, if_true]

theorem Heritage.align_bad (hin : h.inFrame = true) (hf : framed n s h.position = false) : h.align n s =
    if h.badRun + 1 < 4 then { h with badRun := h.badRun + 1 }
    else { h with inFrame := false, badRun := 0, candidate := [], left := true, defects := h.defects ||| 2#8, seen := h.seen ||| 2#8 } := by
  simp only [Heritage.align, hin, hf, if_true, Bool.false_eq_true, if_false]

theorem Heritage.align_lost (hin : h.inFrame = true) (hf : framed n s h.position = false) (hrun : h.badRun = 3) :
    (h.align n s).inFrame = false ∧ (h.align n s).defects.getLsbD 1 = true := by
  have hfourth : ¬h.badRun + 1 < 4 := by omega
  rw [h.align_bad n s hin hf, if_neg hfourth]
  exact ⟨rfl, by simp⟩

theorem Heritage.align_kept (hin : h.inFrame = true) (hf : framed n s h.position = false) (hrun : h.badRun < 3) :
    (h.align n s).inFrame = true := by
  rw [h.align_bad n s hin hf, if_pos (by omega)]
  exact hin

theorem Heritage.align_found (c : Nat) (hin : h.inFrame = false)
    (hc : (h.candidate.find? fun c => (frameStarts n s).contains c) = some c) : h.align n s =
      { h with inFrame := true, position := c, badRun := 0, candidate := [], left := false, fresh := true
               defects := h.defects &&& 0xFD#8 } := by
  simp only [Heritage.align, hin, hc, Bool.false_eq_true, if_false]

/-- Without a candidate that recurs, every start found is a candidate; after a loss the old position is the first. -/
theorem Heritage.align_searched (hin : h.inFrame = false) (hc : ∀ c ∈ h.candidate, c ∉ frameStarts n s) : h.align n s = { h with
    left := false
    candidate := if h.left then (frameStarts n s).filter (fun c => c == h.position) ++ (frameStarts n s).filter (fun c => c != h.position)
      else frameStarts n s } := by
  have hnone : (h.candidate.find? fun c => (frameStarts n s).contains c) = none :=
    List.find?_eq_none.2 fun c hmem hfound => hc c hmem (List.contains_iff_mem.1 hfound)
  simp only [Heritage.align, hin, hnone, Bool.false_eq_true, if_false]

theorem Heritage.align_candidates (hin : h.inFrame = false) (hc : ∀ c ∈ h.candidate, c ∉ frameStarts n s) (c : Nat) :
    c ∈ (h.align n s).candidate ↔ c ∈ frameStarts n s := by
  rw [h.align_searched n s hin hc]
  dsimp only
  split
  · by_cases hold : c = h.position <;> simp [hold]
  · rfl

theorem Heritage.align_old_first (hin : h.inFrame = false) (hc : ∀ c ∈ h.candidate, c ∉ frameStarts n s) (hleft : h.left = true)
    (hold : h.position ∈ frameStarts n s) : (h.align n s).candidate.head? = some h.position := by
  rw [h.align_searched n s hin hc]
  dsimp only
  rw [if_pos hleft]
  cases hfirst : (frameStarts n s).filter fun c => c == h.position with
  | nil => exact absurd hold (by simpa using List.filter_eq_nil_iff.1 hfirst h.position)
  | cons c t =>
    have hmem : c ∈ (frameStarts n s).filter fun c => c == h.position := hfirst ▸ List.mem_cons_self
    exact congrArg some (eq_of_beq (List.mem_filter.1 hmem).2)

/-- The slip buffer holds the newest four frames (R319). -/
theorem Heritage.store_length (payload : List (Nat × Bytes)) (steps : List (Nat × Int)) (c : Nat) :
    (h.store payload steps c).buffer.length ≤ 4 := by
  simp only [Heritage.store, List.length_drop]
  omega

end

/-! ### Frames and defects (R316, R318, R319) -/

section
variable (d : Dev)

theorem Dev.hl_setHl (l : Nat) (f : Heritage → Heritage) : (d.setHl l f).hl l = f (d.hl l) := Tbl.getD_put _ _ _ _

section
variable (rx : HeritageRx)

theorem heritageFrameReceive_off (h : (hlane d.objs rx.lane).mode = 0) : heritageFrameReceive rx d = d := if_pos (.inl h)

/-- A lane's state after the alignment of one frame time, and the bits that it looked at. -/
def Dev.hlBits : Bytes :=
  slice (d.hl rx.lane).prev 0 (frameLen (lineN (hlane d.objs rx.lane).mode)) ++ slice rx.bits 0 (frameLen (lineN (hlane d.objs rx.lane).mode))

/-- See `Dev.hlBits`. -/
def Dev.hlAligned : Heritage :=
  ((d.hl rx.lane).align (lineN (hlane d.objs rx.lane).mode) (d.hlBits rx)).elapse (slice rx.bits 0 (frameLen (lineN (hlane d.objs rx.lane).mode)))

theorem heritageFrameReceive_on (hmode : (hlane d.objs rx.lane).mode ≠ 0) (hlane : rx.lane ≤ 31) : heritageFrameReceive rx d =
    if (d.hlAligned rx).inFrame then (d.setHl rx.lane fun _ => d.hlAligned rx).heritageFrame rx.lane (d.hlBits rx) rx.payload
    else d.setHl rx.lane fun _ => d.hlAligned rx := by
  have hused : ¬((Machine.hlane d.objs rx.lane).mode = 0 ∨ 31 < rx.lane) := fun h => h.elim hmode (Nat.not_lt.2 hlane)
  have haligned := d.hl_setHl rx.lane fun _ => d.hlAligned rx
  have hreceives : heritageFrameReceive rx d = if ((d.setHl rx.lane fun _ => d.hlAligned rx).hl rx.lane).inFrame then
      (d.setHl rx.lane fun _ => d.hlAligned rx).heritageFrame rx.lane (d.hlBits rx) rx.payload
      else d.setHl rx.lane fun _ => d.hlAligned rx := if_neg hused
  rw [hreceives, haligned]

end

/-- A frame in alignment: its section overhead is heard and counted, then its AU pointers, and it enters the slip buffer. -/
theorem Dev.heritageFrame_eq (l : Nat) (s : Bytes) (payload : List (Nat × Bytes)) (al : Heritage) :
    (d.setHl l fun _ => al).heritageFrame l s payload =
      (let n := lineN (hlane d.objs l).mode
      let f := frameAt n s al.position
      let sec := al.section (hlane d.objs l) f (scramble n f)
      let heard := (((((d.setHl l fun _ => al).setHl l fun _ => sec.1).countBy (ctrHeritage l 1) sec.2.b1).countBy (ctrHeritage l 2)
        sec.2.b2).countBy (ctrHeritage l 3) sec.2.m1).hearAus (hlane d.objs l) l (scramble n f)
      heard.1.setHl l fun h => h.store payload heard.2 heard.1.time.c) := by
  have haligned := d.hl_setHl l fun _ => al
  unfold Dev.heritageFrame
  rw [haligned]
  rfl

theorem heritageDefectDetect_eq (a i : Nat) (hk : adKind a = 1) (hmode : (hlane d.objs (adLane a)).mode ≠ 0) (hi : i ≤ 14)
    (hhas : i < 8 ∨ (hlane d.objs (adLane a)).has a = true) :
    heritageDefectDetect a i d = if d.defectShows (noMon a) i then d.setDefect a i true else d := by
  have hheld : ¬(8 ≤ i ∧ (!(hlane d.objs (adLane a)).has a) = true) := by
    rintro ⟨hau, hno⟩
    rcases hhas with hlow | hyes
    · omega
    · rw [hyes] at hno
      exact Bool.false_ne_true hno
  have hdeep : ¬14 < i := Nat.not_lt.2 hi
  have hkind : ¬adKind a ≠ 1 := not_not_intro hk
  simp only [heritageDefectDetect, hkind, hmode, hdeep, hheld, false_or]
  cases d.defectShows (noMon a) i <;> rfl

theorem heritageDefectClear_eq (a i : Nat) (hk : adKind a = 1) (hi : i ≤ 14) :
    heritageDefectClear a i d = if d.defectGone (noMon a) i then d.setDefect a i false else d := by
  have hdeep : ¬14 < i := Nat.not_lt.2 hi
  have hkind : ¬adKind a ≠ 1 := not_not_intro hk
  simp only [heritageDefectClear, hkind, hdeep, false_or]
  cases d.defectGone (noMon a) i <;> rfl

/-! ### Performance (R333 to R335) -/

theorem Dev.goTime_out (x : Nat) : (d.goTime x).out = d.out := by rw [(d.goTime_frame x).1]

theorem Dev.goTime_tdm (x : Nat) : (d.goTime x).tdm = d.tdm := by rw [(d.goTime_frame x).1]

/-- A new second starts a lane's counts again. -/
theorem Tdm.newSecond_lane (t : Tdm) (l : Nat) (h : Heritage) (hl : t.newSecond.lanes.find? l = some h) :
    h.nearRs = 0 ∧ h.nearMs = 0 ∧ h.farMs = 0 ∧ h.seen = h.defects := by
  have hlane := Tbl.find_mapAll t.lanes (fun _ (h : Heritage) => { h with nearRs := 0, nearMs := 0, farMs := 0, seen := h.defects }) l
  obtain ⟨x, -, rfl⟩ := Option.map_eq_some_iff.1 (hlane.symm.trans hl)
  exact ⟨rfl, rfl, rfl, rfl⟩

end

section
variable (s : State) (h : s.dev.sys.inReset = false)
include h

theorem exec_heritageFrameReceive (rx : HeritageRx) :
    exec (.heritageFrameReceive rx) s = .next { s with dev := (heritageFrameReceive rx s.dev).settle } := live_running _ s h

theorem exec_heritageDefectDetect (a i : Nat) :
    exec (.heritageDefectDetect a i) s = .next { s with dev := (heritageDefectDetect a i s.dev).settle } := live_running _ s h

theorem exec_heritageDefectClear (a i : Nat) :
    exec (.heritageDefectClear a i) s = .next { s with dev := (heritageDefectClear a i s.dev).settle } := live_running _ s h

theorem exec_pmSecond : exec .pmSecond s = .next { s with dev := (pmSecond s.dev).settle } := live_running _ s h

theorem exec_pmBinClose (day : Bool) : exec (.pmBinClose day) s = .next { s with dev := (pmBinClose day s.dev).settle } := live_running _ s h

end

/-- Settles O36: the alignment by its branches, each event by its effect, and a second and a bin's end by what they leave of each entity. -/
theorem heritageLanesAndPerformance : Obligations.HeritageLanesAndPerformance := by
  unfold Obligations.HeritageLanesAndPerformance
  refine ⟨fun s rx h sent k a i => ?lanes, fun s day => ?performance⟩
  case lanes =>
    intro d l x n bs two al aligned f sec counted heard
    refine ⟨h.align_lost k sent, h.align_kept k sent, h.align_good k sent, fun c hin hc => ?found, fun hin hc => ?searched,
      h.store_length rx.payload [] i, fun hr => ⟨fun hmode => ?off, fun hmode hl hal => ?unframed, fun hmode hl hal => ?framed,
        fun hk hmode hi hhas => ?detect, fun hk hi => ?clear⟩⟩
    case found =>
      rw [h.align_found k sent c hin hc]
      exact ⟨rfl, rfl, by simp⟩
    case searched =>
      refine ⟨?_, h.align_candidates k sent hin hc, h.align_old_first k sent hin hc⟩
      rw [h.align_searched k sent hin hc]
      exact hin
    case off => rw [exec_heritageFrameReceive s hr, heritageFrameReceive_off d rx hmode]
    case unframed =>
      have hout : ¬(d.hlAligned rx).inFrame = true := Bool.eq_false_iff.1 hal
      rw [exec_heritageFrameReceive s hr, heritageFrameReceive_on d rx hmode hl, if_neg hout]
      rfl
    case framed =>
      have hin : (d.hlAligned rx).inFrame = true := hal
      rw [exec_heritageFrameReceive s hr, heritageFrameReceive_on d rx hmode hl, if_pos hin, Dev.heritageFrame_eq]
      rfl
    case detect => rw [exec_heritageDefectDetect s hr, heritageDefectDetect_eq d a i hk hmode hi hhas]
    case clear => rw [exec_heritageDefectClear s hr, heritageDefectClear_eq d a i hk hi]
  case performance =>
    intro d second old len t hr
    have hout : second.out = d.out := d.goTime_out _
    have htdm : second.tdm = d.tdm := d.goTime_tdm _
    have hcircs : second.tdm.circs = d.tdm.circs := congrArg Tdm.circs htdm
    have hdefects : second.tdm.defects = d.tdm.defects := congrArg Tdm.defects htdm
    refine ⟨⟨_, exec_pmSecond s hr, rfl, rfl, fun l h hl => second.tdm.newSecond_lane l h hl, hout, hcircs,
      hdefects⟩, ?_⟩
    rw [exec_pmBinClose s hr]
    rfl

end Sys2Proof.Machine
end
